-- ==== Sys2Proof/Word.lean ====
section
/-!
DEFINITION. The words and the operand records of the commands of the OTC-3 core (00, "Notation"; 08 R206; 15 R377, R385).
-/

namespace Sys2Proof

/-- One byte. -/
abbrev Byte := BitVec 8
/-- A 16-bit word: tags, tickets, posting sequences. -/
abbrev W16 := BitVec 16
/-- A 32-bit word: the N registers. -/
abbrev W32 := BitVec 32
/-- A 48-bit word: the A registers, fabric addresses. -/
abbrev W48 := BitVec 48
/-- A 64-bit word: registers of the CSR window, VXN words. -/
abbrev W64 := BitVec 64

/-- The two instruction streams (01 R16). -/
inductive Sid where
  | a
  | x
deriving DecidableEq, Repr

/-- One occupied slot of a long word (09 R248, R250): its kind, its tag, its VXN base word and extension words. -/
structure Slot where
  kind : Nat
  tag : W16
  base : W64
  ext : List W64
deriving DecidableEq, Repr

/-- A unit of 128 bytes as it crosses the fabric port, with its poison bit (15 R377). -/
structure Unit128 where
  data : BitVec 1024
  poison : Bool
deriving DecidableEq, Repr

/-- The fields of a QMSG flit (15 Table 15-4, R381). -/
structure QMsg where
  sctx : BitVec 12
  place : BitVec 24
  rctx : BitVec 12
  ncar : BitVec 4
  ticket : W16
  poison : Bool
  axis : BitVec 2
  fidx : BitVec 3
  splace : BitVec 24
  data : BitVec 1024
deriving DecidableEq, Repr

/-- The fields of a VOTE (11 Table 11-4) with its destination place. -/
structure VoteMsg where
  place : BitVec 24
  vg : BitVec 4
  tick : W64
  step : W32
  ok : Bool
  stepErr : Bool
  reason : Byte
  count : W16
deriving DecidableEq, Repr

/-- The fields of a DECISION (11 Table 11-4) with its destination place. -/
structure DecMsg where
  place : BitVec 24
  vg : BitVec 4
  tick : W64
  commit : Bool
  reason : Byte
deriving DecidableEq, Repr

/-- The fields of an ARRIVE or a RELEASE (15 Table 15-4). -/
structure BarMsg where
  place : BitVec 24
  bar : BitVec 4
  gen : Byte
deriving DecidableEq, Repr

/-- An integrity failure that the array reports with an entry (03 R77, 14 R354): a ledger residue error in a
logical cell, or a difference between a cell and outrider `k` of the columns or of the rows. -/
inductive CellFault where
  | residue (row col : BitVec 7)
  | outCol (k : BitVec 2) (row col : BitVec 7)
  | outRow (k : BitVec 2) (row col : BitVec 7)
deriving DecidableEq, Repr

/-- The strap pins (15 R392). -/
structure Straps where
  pkg : W16
  die : BitVec 2
  core : BitVec 6
  feed : Byte
deriving DecidableEq, Repr

/-- The sensors' readings of one sector (16 R407): temperature in 1/8 degree, rail in mV. -/
structure SectReading where
  temp : BitVec 12
  vmeas : BitVec 12
deriving DecidableEq, Repr

/-- A unit that a wipe's verify or a BIST test finds failed (14 Table 14-5): its class and its physical number.
Classes: 0 columns, 1 rows, 2 lanes, 3 banks, 4 channels, 5 tracker slots, 6 car groups, 7 and 8 the rows of IMEM
bank 0 and 1, any other a unit without a class. -/
structure FailedUnit where
  cls : Nat
  unit : Nat
deriving DecidableEq, Repr

end Sys2Proof
end

