-- ==== Sys2Proof/Syntax.lean ====
section
/-!
DEFINITION. The commands of the block: one constructor per row of spec/opcode_table.json.
An instruction row carries the stream that issues it and its slot; the constructor fixes the opcode.
An event row carries what the event brings from outside.
-/

namespace Sys2Proof

/-- The commands of the core (spec/opcode_table.json). -/
inductive Instr where
  /-- LONG_WORD_ISSUE (R251). A stream fetches its next long word from the running bank, checks it as a whole and issues its commands in slot order. -/
  | longWordIssue (st : Sid)
  /-- SLI (R176). Loads an immediate into an N or A register. -/
  | sli (st : Sid) (c : Slot)
  /-- SMOV (R176). Copies among A, N and P registers or reads LC, CC or the local meridian. -/
  | smov (st : Sid) (c : Slot)
  /-- SADD (R176). Adds a register or immediate to an A or N register, wrapping. -/
  | sadd (st : Sid) (c : Slot)
  /-- SSUB (R176). Subtracts a register or immediate from an A or N register, wrapping. -/
  | ssub (st : Sid) (c : Slot)
  /-- SMUL (R176). Writes the low 32 bits of an N by N product. -/
  | smul (st : Sid) (c : Slot)
  /-- SAND (R176). Bitwise AND on N registers. -/
  | sand (st : Sid) (c : Slot)
  /-- SOR (R176). Bitwise OR on N registers. -/
  | sor (st : Sid) (c : Slot)
  /-- SXOR (R176). Bitwise XOR on N registers. -/
  | sxor (st : Sid) (c : Slot)
  /-- SSHL (R176). Logical left shift of an N register. -/
  | sshl (st : Sid) (c : Slot)
  /-- SSHR (R176). Logical right shift of an N register. -/
  | sshr (st : Sid) (c : Slot)
  /-- SSHRA (R176). Arithmetic right shift of an N register. -/
  | sshra (st : Sid) (c : Slot)
  /-- SCMP (R176). Sets a predicate to a signed or unsigned comparison of N operands. -/
  | scmp (st : Sid) (c : Slot)
  /-- SPL (R176). Sets a predicate to a logic function of predicates. -/
  | spl (st : Sid) (c : Slot)
  /-- SLD (R176). Loads 4 or 8 bytes from the scratchpad into an N or A register. -/
  | sld (st : Sid) (c : Slot)
  /-- SST (R176). Stores an N or A register to the scratchpad. -/
  | sst (st : Sid) (c : Slot)
  /-- LOOP (R182). Latches a count and opens a hardware loop level, or skips the body when the count is zero. -/
  | loop (st : Sid) (c : Slot)
  /-- LEXIT (R186). When its guard is true, leaves the innermost l loops without applying their steps. -/
  | lexit (st : Sid) (c : Slot)
  /-- BR (R188). Branches unconditionally to a long word. -/
  | br (st : Sid) (c : Slot)
  /-- BRP (R188). Branches when a predicate or its complement is 1. -/
  | brp (st : Sid) (c : Slot)
  /-- BRC (R188). Branches when an N register comparison is true. -/
  | brc (st : Sid) (c : Slot)
  /-- BRK (R218). Halts with BREAK_TAG when the software break is enabled, otherwise only counts. -/
  | brk (st : Sid) (c : Slot)
  /-- HALT (R259). Halts the stream precisely with HALT_COMMAND and its immediate. -/
  | halt (st : Sid) (c : Slot)
  /-- QPUSH (R152). Writes one entry with a ticket into a queue context. -/
  | qpush (st : Sid) (c : Slot)
  /-- QPOP (R220). Takes the head entry with ticket ET and delivers its data to the scratchpad or a scalar register. -/
  | qpop (st : Sid) (c : Slot)
  /-- QWAIT (R152). Takes the head entry and discards its data, optionally checking its ticket. -/
  | qwait (st : Sid) (c : Slot)
  /-- DMAP (R221). Reads and patches a descriptor template and pushes it to a DMA ring. -/
  | dmap (st : Sid) (c : Slot)
  /-- DMARD (R219). Reads the ring occupancy or the activity of a DMA channel into an N register. -/
  | dmard (st : Sid) (c : Slot)
  /-- TTF (R73). Binds a source tensor to a turntable feed with orientation, ranges, scale and tracker slot. -/
  | ttf (st : Sid) (c : Slot)
  /-- MXP (R223). Issues a matrix pass in a region with its feeds, initial value, drain format and slot. -/
  | mxp (st : Sid) (c : Slot)
  /-- VADD (R112). Adds two vector operands. -/
  | vadd (st : Sid) (c : Slot)
  /-- VSUB (R112). Subtracts two vector operands. -/
  | vsub (st : Sid) (c : Slot)
  /-- VMUL (R112). Multiplies two vector operands. -/
  | vmul (st : Sid) (c : Slot)
  /-- VMIN (R112). Elementwise minimum of two vector operands. -/
  | vmin (st : Sid) (c : Slot)
  /-- VMAX (R112). Elementwise maximum of two vector operands. -/
  | vmax (st : Sid) (c : Slot)
  /-- VABS (R225). Elementwise absolute value. -/
  | vabs (st : Sid) (c : Slot)
  /-- VNEG (R225). Elementwise negation. -/
  | vneg (st : Sid) (c : Slot)
  /-- VAND (R111). Elementwise integer AND. -/
  | vand (st : Sid) (c : Slot)
  /-- VOR (R111). Elementwise integer OR. -/
  | vor (st : Sid) (c : Slot)
  /-- VXOR (R111). Elementwise integer XOR. -/
  | vxor (st : Sid) (c : Slot)
  /-- VNOT (R111). Elementwise integer NOT. -/
  | vnot (st : Sid) (c : Slot)
  /-- VSHL (R111). Elementwise logical left shift. -/
  | vshl (st : Sid) (c : Slot)
  /-- VSHR (R111). Elementwise logical right shift. -/
  | vshr (st : Sid) (c : Slot)
  /-- VSHRA (R111). Elementwise arithmetic right shift. -/
  | vshra (st : Sid) (c : Slot)
  /-- VCMP (R121). Compares elements and writes a mask or mask bitmap. -/
  | vcmp (st : Sid) (c : Slot)
  /-- VSEL (R225). Selects between two sources under a condition mask. -/
  | vsel (st : Sid) (c : Slot)
  /-- VCVT (R114). Converts elements between types, producing narrow values under a tensor scale where it narrows. -/
  | vcvt (st : Sid) (c : Slot)
  /-- VMSET (R121). Sets a mask from a count or copies a bitmap into it. -/
  | vmset (st : Sid) (c : Slot)
  /-- VFMA (R112). Computes a times b plus c with one rounding. -/
  | vfma (st : Sid) (c : Slot)
  /-- VEXP2 (R113). Elementwise base-2 exponential. -/
  | vexp2 (st : Sid) (c : Slot)
  /-- VLOG2 (R113). Elementwise base-2 logarithm. -/
  | vlog2 (st : Sid) (c : Slot)
  /-- VRCP (R113). Elementwise reciprocal. -/
  | vrcp (st : Sid) (c : Slot)
  /-- VRSQ (R113). Elementwise reciprocal square root. -/
  | vrsq (st : Sid) (c : Slot)
  /-- VQ (R114). Quantizes a stream into a block-scaled ROW32 or SQ32 tensor. -/
  | vq (st : Sid) (c : Slot)
  /-- VDQ (R116). Decodes a block-scaled source into FP32 or BF16. -/
  | vdq (st : Sid) (c : Slot)
  /-- VLXADD (R117). Merges two LX128 sources. -/
  | vlxadd (st : Sid) (c : Slot)
  /-- VLXCVT (R117). Converts LX128 words to FP32, BF16 or FP16 under two tensor scales. -/
  | vlxcvt (st : Sid) (c : Slot)
  /-- VLXF (R117). Enters each FP32 value into an empty ledger and writes the LX128 word. -/
  | vlxf (st : Sid) (c : Slot)
  /-- VCPRS (R125). Compresses active elements to consecutive destination elements and writes their count. -/
  | vcprs (st : Sid) (c : Slot)
  /-- VEXPD (R125). Expands consecutive source elements into active lanes and writes the count consumed. -/
  | vexpd (st : Sid) (c : Slot)
  /-- VSETL (R106). Sets VLEN and optionally returns the remainder. -/
  | vsetl (st : Sid) (c : Slot)
  /-- VCHAIN (R118). Checks and marks the next n commands as one chain through the couplers. -/
  | vchain (st : Sid) (c : Slot) (members : List Slot)
  /-- REDSUM (R130). Reduces each segment to an exact or FP32 sum. -/
  | redsum (st : Sid) (c : Slot)
  /-- REDMAX (R130). Reduces each segment to its largest value. -/
  | redmax (st : Sid) (c : Slot)
  /-- REDMIN (R130). Reduces each segment to its smallest value. -/
  | redmin (st : Sid) (c : Slot)
  /-- REDARG (R130). Reduces each segment to the index of its largest value. -/
  | redarg (st : Sid) (c : Slot)
  /-- REDCNT (R130). Counts nonzero elements or set mask bits per segment. -/
  | redcnt (st : Sid) (c : Slot)
  /-- STKBIND (R81). Loads a slot's configuration word and binds the tracker slot. -/
  | stkbind (st : Sid) (c : Slot)
  /-- STKFREE (R81). Clears BOUND of a tracker slot. -/
  | stkfree (st : Sid) (c : Slot)
  /-- STKADV (R88). Closes a tracker epoch, derives NEXT and optionally commits it to CUR. -/
  | stkadv (st : Sid) (c : Slot)
  /-- STKMRG (R81). Merges a value into a slot's running amax. -/
  | stkmrg (st : Sid) (c : Slot)
  /-- STKSET (R81). Sets a slot's CUR and NEXT. -/
  | stkset (st : Sid) (c : Slot)
  /-- STKRD (R228). Writes a selected tracker item to an N register or the scratchpad. -/
  | stkrd (st : Sid) (c : Slot)
  /-- STKCLR (R81). Clears selected tracker counters and their SAT bits. -/
  | stkclr (st : Sid) (c : Slot)
  /-- STK_MERGES_DONE (R228). An STK command that waited for earlier merges of its slot completes. -/
  | stkMergesDone
  /-- CBEGIN (R278). Opens a consist once the previous outcome is decided, taking its ID. -/
  | cbegin (st : Sid) (c : Slot)
  /-- CCOMMIT (R288). Requests a local commit, optionally with a deadline, putting the consist in DECIDING. -/
  | ccommit (st : Sid) (c : Slot)
  /-- CVOTE (R292). Requests a voted commit for a decision tick in a vote group. -/
  | cvote (st : Sid) (c : Slot)
  /-- CABORT (R286). Aborts the stream's open consist with EXPLICIT. -/
  | cabort (st : Sid) (c : Slot)
  /-- MWAIT (R233). Waits until the local meridian reaches a target. -/
  | mwait (st : Sid) (c : Slot)
  /-- MARM (R234). Arms a meridian event slot with an action and target. -/
  | marm (st : Sid) (c : Slot)
  /-- BARR (R159). Enters a barrier generation and optionally waits for its release. -/
  | barr (st : Sid) (c : Slot)
  /-- POST (R192). Writes a value to a free posting slot, waiting while the slot is VALID. -/
  | post (st : Sid) (c : Slot)
  /-- UPDF (R314). Reads an update descriptor and applies the parameter update to its blocks. -/
  | updf (st : Sid) (c : Slot)
  /-- UPDF_BLOCK_DONE (R214). One 32 by 32 block of an UPDF is written, and the last block completes the command. -/
  | updfBlockDone
  /-- ORB_LOAD (R318). Loads an orrery schedule record and sets its counter to STEP0. -/
  | orbLoad (st : Sid) (c : Slot)
  /-- ORB_STEP (R322). Increments a schedule's step counter, saturating with STEP_SAT. -/
  | orbStep (st : Sid) (c : Slot)
  /-- ORB_MULT (R319). Writes the learning-rate multiplier at the current step. -/
  | orbMult (st : Sid) (c : Slot)
  /-- ORB_BIAS1 (R321). Writes the BETA1 bias-correction factor. -/
  | orbBias1 (st : Sid) (c : Slot)
  /-- ORB_BIAS2 (R321). Writes the BETA2 bias-correction factor. -/
  | orbBias2 (st : Sid) (c : Slot)
  /-- ORB_RDSTEP (R236). Reads a schedule's step counter into an N register. -/
  | orbRdstep (st : Sid) (c : Slot)
  /-- ORB_SETSTEP (R236). Sets a schedule's step counter from an N register. -/
  | orbSetstep (st : Sid) (c : Slot)
  /-- RNGK_KEY (R323). Loads a key register in position mode. -/
  | rngkKey (st : Sid) (c : Slot)
  /-- RNGK_GEN (R325). Writes generator draws into a destination form. -/
  | rngkGen (st : Sid) (c : Slot)
  /-- RNGK_SEQ (R326). Enters or leaves sequential mode of a key register. -/
  | rngkSeq (st : Sid) (c : Slot)
  /-- PASS_BEGIN (R67). A waiting matrix pass begins its first products once its feeds and lanes allow. -/
  | passBegin (region : BitVec 2)
  /-- TILE_READY (R75). A turntable makes a feed tile ready, re-quantizing where needed, and reports its last tile. -/
  | tileReady (north : Bool) (feed : BitVec 2) (bufErr : Bool) (laneErr : List (BitVec 7))
  /-- FTQ_ENTRY_VISIBLE (R65). A drained subtile becomes visible in the FTQ after its comparisons, and the LAST entry completes the pass. -/
  | ftqEntryVisible (region : BitVec 2) (faults : List CellFault)
  /-- VE_BEAT (R109). The VE delivers one destination beat of a command or chain, and the last beat completes it. -/
  | veBeat (kperr : List (BitVec 9))
  /-- RED_RESULT_WRITE (R131). A RED result reaches its N register or predicate after the segment's last beat. -/
  | redResultWrite (resErr : Bool)
  /-- CT_PUSH_QUOTA (R216). A completion push that waited for quota is made once cars are freed. -/
  | ctPushQuota (ctx : BitVec 12)
  /-- QUEUE_HEAD_SERVE (R151). The entry with ticket ET becomes held and the waiting head consumer takes it. -/
  | queueHeadServe (ctx : BitVec 12)
  /-- PUSH_QUOTA_PROCEED (R147). A producer waiting for cars completes its push in full when cars are freed. -/
  | pushQuotaProceed (ctx : BitVec 12)
  /-- POST_RESUME (R192). A POST waiting on a VALID slot writes the slot after the host frees it. -/
  | postResume (st : Sid)
  /-- QUEUE_WAIT_LONG (R157). A command's wait count reaches QSY.WAITLIM, recording what it waits on. -/
  | queueWaitLong (st : Sid)
  /-- FAB_OUT_SEND (R155). A FAB_OUT context sends an entry once CREDIT covers its length. -/
  | fabOutSend (ctx : BitVec 12)
  /-- BARRIER_ENTRY_COUNT (R160). A barrier entry counts once earlier fabric requests have responses, releasing or forwarding the round at EXPECT. -/
  | barrierEntryCount (bar : BitVec 4)
  /-- DMA_DESCRIPTOR_START (R165). A channel takes the next descriptor from its ring, checks it and begins moving data. -/
  | dmaDescriptorStart (ch : BitVec 4) (badUnits : List Nat)
  /-- DMA_DESCRIPTOR_COMPLETE (R166). A descriptor completes and pushes its completion record with its status. -/
  | dmaDescriptorComplete (ch : BitVec 4)
  /-- IMEM_LOAD_COMPLETE (R242). An IMEMLOAD finishes its digest and sets VALID, or zeroes the bank on a failed load. -/
  | imemLoadComplete (ch : BitVec 4)
  /-- SPM_ECC_WRITEBACK (R137). A corrected scratchpad word is written back in the bank's next idle ac. -/
  | spmEccWriteback (addr : BitVec 24)
  /-- IMEM_ECC_WRITEBACK (R246). A corrected IMEM row is written back in the bank's next idle ac. -/
  | imemEccWriteback (bank : Bool) (row : BitVec 13)
  /-- READ_DATA (R379). A read response arrives and is matched by tag and acted on by its status. -/
  | readData (tag : BitVec 12) (status : BitVec 2) (u : Unit128)
  /-- WRITE_ACK (R379). A write acknowledgement arrives and completes its write by status. -/
  | writeAck (tag : BitVec 12) (status : BitVec 2)
  /-- FABRIC_REQUEST_TIMEOUT (R380). A request without response after RTMO completes locally with TARGET_ERROR. -/
  | fabricRequestTimeout (isWrite : Bool) (tag : BitVec 12)
  /-- LINK_FLIT_RECEIVE (R375). A receiver accepts a flit with good CRC and expected SEQ, or discards it and raises nak. -/
  | linkFlitReceive (ch : BitVec 4) (flit : BitVec 1152)
  /-- LINK_ACK (R375). An acknowledgement frees flits up to ackseq from the replay buffer. -/
  | linkAck (ch : BitVec 4) (seq : Byte)
  /-- LINK_NAK (R375). A nak makes the sender replay every flit after ackseq. -/
  | linkNak (ch : BitVec 4) (seq : Byte)
  /-- LINK_CREDIT (R373). A returned link credit increments the channel's credit counter. -/
  | linkCredit (ch : BitVec 4)
  /-- QMSG (R382). A queue message flit arrives and its entry is accepted or rejected and assembled by FIDX. -/
  | qmsg (m : QMsg)
  /-- QMSG_ACK (R383). An acknowledgement frees the entry's cars or acts as a rejection. -/
  | qmsgAck (sctx : BitVec 12) (ticket : W16) (status : BitVec 2) (place : BitVec 24)
  /-- QMSG_CREDIT (R383). A queue credit adds cars to the sending context's CREDIT. -/
  | qmsgCredit (sctx : BitVec 12) (cars : BitVec 5) (place : BitVec 24)
  /-- VOTE (R293). A child's VOTE message is combined into round T and forwarded or decided at EXPECT. -/
  | vote (m : VoteMsg)
  /-- DECISION (R294). A DECISION message arrives, is forwarded to children and awaits T. -/
  | decision (m : DecMsg)
  /-- ARRIVE (R161). A child's ARRIVE message counts into the barrier round or is discarded as a fault. -/
  | arrive (m : BarMsg)
  /-- RELEASE (R161). A parent's RELEASE message releases the barrier round at this core. -/
  | release (m : BarMsg)
  /-- VOTE_SEND (R292). A CVOTE's conditions are met and the core enters its local vote and sends VOTE when complete. -/
  | voteSend (vg : BitVec 4)
  /-- COMMIT_POINT (R288). A local commit reaches its commit point and releases its held writes. -/
  | commitPoint (st : Sid)
  /-- DEADLINE (R289). A CCOMMIT deadline falls due before the commit point and aborts the consist. -/
  | deadline (st : Sid)
  /-- ROOT_GUARD_DECIDE (R293). The root decides at T minus VGUARD when its count is still short. -/
  | rootGuardDecide (vg : BitVec 4)
  /-- DECISION_APPLY (R294). At T the core applies the decision, committing or rolling back the consist. -/
  | decisionApply (st : Sid)
  /-- CONSIST_VOTE_LOST (R295). No decision has arrived VOTETMO after T, setting VLOST. -/
  | consistVoteLost (st : Sid)
  /-- CKPT_STALL (R296). A copy-before-overwrite hold exceeds CKTMO and dooms the consist. -/
  | ckptStall (st : Sid)
  /-- ROLLBACK_COMPLETE (R299). The last log word is restored and the outcome is pushed. -/
  | rollbackComplete (st : Sid)
  /-- TIME (R266). A time-update packet is forwarded with AGE added and disciplines the local meridian. -/
  | time (hdr tick : W64) (waited : Nat)
  /-- HOLDOVER_TIMEOUT (R266). No accepted update for 10 µs puts the MER into HOLDOVER. -/
  | holdoverTimeout
  /-- SLEW_END (R446). A slew has advanced the count by its amount and the count returns to the disciplined increment. -/
  | slewEnd
  /-- MER_SLOT_FIRE (R269). An armed slot's target falls due and the slot fires and starts its action. -/
  | merSlotFire (n : BitVec 4)
  /-- MWAIT_DUE (R269). An MWAIT's target falls due and the stream continues. -/
  | mwaitDue (st : Sid)
  /-- STREAM_TAKES_SWITCH (R245). A running stream takes a bank switch at its next long-word boundary and continues at its new entry. -/
  | streamTakesSwitch (st : Sid)
  /-- CKPT_RESUME (R336). The stop's steps and STOPLEN end, streams and channels resume and CSTATE becomes BACKGROUND. `io` carries
  nothing: what the engine reads and writes goes over the port, here and in the two below. -/
  | ckptResume (io : Unit := ())
  /-- CKPT_BLOCK_COPY (R340). A staging or Method R block is copied to the partner, releasing writes that waited on it. -/
  | ckptBlockCopy (io : Unit := ())
  /-- CKPT_DONE (R342). The trailer's acknowledgement arrives and the checkpoint becomes COMPLETE. -/
  | ckptDone
  /-- RESTORE (R348). A host write of CKE.CTRL.RESTORE starts the restore sequence. -/
  | restore
  /-- RESTORE_DONE (R348). The restore ends, setting RSTATE done or failed with a wipe. -/
  | restoreDone (trailer : Unit := ()) (records : Unit := ())
  /-- ABANDON (R352). A host write ends a BACKGROUND checkpoint as FAILED and clears the copy bitmap. -/
  | abandon
  /-- OVERRIDE (R335). A host write of CKE.CTRL.OVERRIDE sets the bit only in DEBUG-OPEN. -/
  | override (v : Bool)
  /-- CKE_CONFIG_WRITE (R334). A host write to checkpoint configuration is applied or refused with CFGERR while a checkpoint runs. -/
  | ckeConfigWrite (off : W16) (data : W64)
  /-- CAL_SWAP (R363). After the drain the core applies the column, row and lane maps and raises REPAIR_APPLIED. -/
  | calSwap
  /-- CAL_TRIAL_END (R364). A sector trial ends after DWELL or a mismatch and adjusts CTH. -/
  | calTrialEnd (comparisons : Nat) (mismatch skewed : Bool)
  /-- CAL_WINDOW_RELEASE (R363). At T plus W the outriders resume sampling. -/
  | calWindowRelease
  /-- BIST_START (R366). A host write of BIST.CTRL.START begins a test or is refused. -/
  | bistStart (test : BitVec 6)
  /-- BIST_DONE (R366). A test ends, re-initialises its block and reports its result. -/
  | bistDone (fails : List FailedUnit) (time : W32)
  /-- STRM_START (R200). A host START begins a stream at ENTRY after the image checks, or resumes it. -/
  | strmStart (st : Sid)
  /-- STRM_STOP (R201). A host STOP is accepted and the stream reads STOPPING. -/
  | strmStop (st : Sid)
  /-- STOP_BOUNDARY (R201). The stream stops at the next long-word boundary once any wait has ended. -/
  | stopBoundary (st : Sid)
  /-- STRM_HALT (R202). A host HALT is accepted and halts a STOPPED stream at once. -/
  | strmHalt (st : Sid)
  /-- HOST_HALT (R202). A host halt takes effect at the next long-word boundary, withdrawing waiting commands. -/
  | hostHalt (st : Sid)
  /-- STRM_RESET (R203). A host RESET starts a stream reset, abandoning engine work and aborting the open consist. -/
  | strmReset (st : Sid)
  /-- STREAM_RESET_DONE (R203). The reset work is abandoned and the stream returns to IDLE. -/
  | streamResetDone (st : Sid)
  /-- COHALT (R198). A stream with COHALT halts at its next boundary after its partner halts. -/
  | cohalt (st : Sid)
  /-- IMEM_SWITCH (R244). A host write of IMEM.CTRL.SWITCH exchanges the banks or sets SW_DENIED. -/
  | imemSwitch
  /-- IMEM_HTAG_WRITE (R243). A host write to IMEM.HTAG commits the window's unit to the idle bank or is denied. -/
  | imemHtagWrite (data : W64)
  /-- IMEM_HADDR_WRITE (R243). A host write to IMEM.HADDR loads the addressed unit into the window. -/
  | imemHaddrWrite (data : W64)
  /-- POST_ACK (R194). A host acknowledgement frees a posting slot or counts in BADACK. -/
  | postAck (data : W64)
  /-- POST_SLOT_READ (R195). A host read of a posting slot finding a parity error returns PERR and raises POST_PARITY. -/
  | postSlotRead (n : BitVec 6) (parityErr : Bool)
  /-- QCTX_W0_WRITE (R145). A host write of a context's W0 binds, unbinds or sets quotas subject to the class and quota checks. -/
  | qctxW0Write (data : W64)
  /-- CSU_SHADOW_WRITE (R301). A host write sets a shadow region or is refused with CFGERR. -/
  | csuShadowWrite (n : Sid) (data : W64)
  /-- CSU_VG_WRITE (R290). A host write to a vote-group context or child entry is applied or refused during an undecided round. -/
  | csuVgWrite (off : W16) (data : W64)
  /-- BAR_WRITE (R429). A host write through BAR.W0 or BAR.W1 configures a barrier or child entry or is refused. -/
  | barWrite (w1 : Bool) (data : W64)
  /-- MER_SLOT_CTRL_WRITE (R270). A host write of MER.SLOTn.CTRL arms or disarms a slot, or is refused with CFGERR. -/
  | merSlotCtrlWrite (n : BitVec 4) (data : W64)
  /-- REP_RECORD_WRITE (R361). A host write to the repair record marks or clears units, denied in RETIRED. -/
  | repRecordWrite (off : W16) (data : W64)
  /-- DBG_MODE_WRITE (R256). A host write of DBG.MODE changes the trace mode subject to the lifecycle state. -/
  | dbgModeWrite (data : W64)
  /-- EV_TEST_WRITE (R426). A host write of EV.TEST raises the selected event sources. -/
  | evTestWrite (data : W64)
  /-- PERF_CLEAR (R432). A host write of PERF.CTRL.CLEAR zeroes every performance counter, WRAPS and PERF.OVF. -/
  | perfClear
  /-- SPM_ECCCNT_WRITE (R428). A host write of 0 to a bank's COUNT clears it and may clear SPM.UNCADDR.VLD. -/
  | spmEcccntWrite (n : BitVec 4) (data : W64)
  /-- PERF_COUNTER_WRAP (R432). A performance counter passes 2^48 minus 1, increments WRAPS and raises PERF_OVF. -/
  | perfCounterWrap (n : BitVec 4)
  /-- REGISTER_WRITE (R12). A host write to a register without its own row acts by the field access codes. -/
  | registerWrite (off : W16) (data : W64)
  /-- CSR_RD (R386). A CSR read packet for this stop is applied and answered with CSR_RSP. -/
  | csrRd (hdr : W64)
  /-- CSR_WR (R386). A CSR write packet for this stop is applied and answered with CSR_RSP. -/
  | csrWr (hdr data : W64)
  /-- RING_FORWARD (R387). A ring packet not for this stop, or of a reserved type, is forwarded unchanged. -/
  | ringForward (words : List W64)
  /-- EVENT (R388). The stop injects an EVENT packet for a newly pending source. -/
  | event
  /-- TRACE (R388). The stop injects a TRACE packet from the trace buffer. -/
  | trace
  /-- BYPASS_CLOSE (R389). rp_stop_ready falls and the bypass cell closes around the stop. -/
  | bypassClose
  /-- BYPASS_OPEN (R391). rp_stop_ready rises and the bypass cell opens at the first empty cycle. -/
  | bypassOpen
  /-- BYPASS_CSR_REQUEST (R390). The closed bypass rewrites a CSR request for the core as an ABSENT response. -/
  | bypassCsrRequest (hdr data : W64)
  /-- KEY_DELIVERY (R393). A four-word key delivery is accepted or refused on the key port. -/
  | keyDelivery (kind : BitVec 2) (words : List W64)
  /-- UNLOCK_TIMEOUT (R417). No token arrives within 1,400,000 root cycles and the unlock fails. -/
  | unlockTimeout
  /-- LC_PROVISION (R415). REQ 1 moves BLANK to PROVISIONED with a wipe. -/
  | lcProvision
  /-- LC_SECURE (R415). REQ 2 moves PROVISIONED to SECURED with a wipe. -/
  | lcSecure
  /-- LC_UNLOCK (R417). REQ 3 in SECURED sets UNLOCKWAIT for a token. -/
  | lcUnlock
  /-- LC_RETIRE (R415). REQ 4 with CONFIRM 0xC3 moves the core to RETIRED with a wipe. -/
  | lcRetire (confirm : Byte)
  /-- ID_RESET_KEY (R399). A host write of 0xA5 to ID.RESET.KEY performs a warm reset. -/
  | idResetKey (key : Byte)
  /-- COLD_RESET_ASSERT (R400). pcp_cold_rst_n falls, outputs take reset values and the bypass closes. -/
  | coldResetAssert
  /-- COLD_RESET_RELEASE (R400). pcp_cold_rst_n rises, the straps are latched and the ACLK generator starts. -/
  | coldResetRelease (straps : Straps)
  /-- ACLK_LOCK (R400). The ACLK generator locks, maps are applied and the wipe begins. -/
  | aclkLock
  /-- WARM_RESET_ASSERT (R401). pcp_warm_rst_n falls and every stream and engine stops. -/
  | warmResetAssert
  /-- WARM_RESET_RELEASE (R401). pcp_warm_rst_n rises, repair maps are applied and the wipe begins. -/
  | warmResetRelease
  /-- WIPE_COMPLETE (R403). The wipe's verify ends and RESET_DONE rises with fp_up. -/
  | wipeComplete (fails : List FailedUnit)
  /-- PWR_GNT_CHANGE (R412). pcp_pwr_gnt changes and the governor holds issue to comply. -/
  | pwrGntChange (level : BitVec 4)
  /-- PWR_REQ_STEP (R411). The governor moves pcp_pwr_req one step toward the needed level. -/
  | pwrReqStep (level : BitVec 4)
  /-- VDDC_REQ_STEP (R410). The core moves pcp_vddc_req one step per µs toward its target. -/
  | vddcReqStep
  /-- DROOP_TRIP (R413). A sector's droop detector trips, stretching the sector and raising pcp_droop_warn. -/
  | droopTrip (sec : BitVec 2)
  /-- CANARY_STRETCH (R406). A canary fails at its threshold and the next sector cycle is stretched. -/
  | canaryStretch (strip : BitVec 3)
  /-- LOCKSTEP_ENTER (R408). A sector spread passes its limit and the core couples its stretchers, raising SECTOR_SKEW. -/
  | lockstepEnter (sectors : List SectReading)
  /-- LOCKSTEP_EXIT (R408). Every spread stays within limits for 1 ms and the core leaves lockstep. -/
  | lockstepExit
  /-- TP_RESET (R395). tp_wrstn low loads WS_BYPASS into the WIR. -/
  | tpReset
  /-- WS_BYPASS (R395). A WIR update selects WBY. -/
  | wsBypass
  /-- WS_EXTEST (R397). A WIR update selects the WBR driving the ports and takes them from the core. -/
  | wsExtest
  /-- WS_PRELOAD (R395). A WIR update selects the WBR without driving. -/
  | wsPreload
  /-- WS_CLAMP (R397). A WIR update holds the outputs from the WBR and takes the ports from the core. -/
  | wsClamp
  /-- WS_SAFE (R397). A WIR update drives the outputs to reset values and takes the ports from the core. -/
  | wsSafe
  /-- WS_INTEST_SCAN (R396). A WIR update selects the internal scan chains, or WS_BYPASS in SECURED and RETIRED. -/
  | wsIntestScan
  /-- MX_ID (R395). A WIR update selects a register reading ID.VERSION. -/
  | mxId
  /-- MX_IJTAG (R396). A WIR update selects the IEEE 1687 network, or WS_BYPASS in SECURED and RETIRED. -/
  | mxIjtag
  /-- SCRATCHPAD_SCALAR_ACCESS (R176). A class-M scratchpad scalar access (SLD, SST, ORB LOAD, RNGK KEY, STKBIND's word read) is served by its bank and, for a load, writes its destination register. -/
  | scratchpadScalarAccess (st : Sid)
  /-- BYPASS_FORWARD (R390). While closed, the bypass cell forwards a ring word through its register stage, adding bp_ageadd to a TIME packet's AGE and recomputing its CRC. -/
  | bypassForward (ageAdd : Byte) (words : List W64)
  /-- WRAPPER_SERIAL_SHIFT (R395). A WRCK capture, shift or update of the selected wrapper data register (WBY, WBR, MX_ID or the IEEE 1687 network) moves data in and out and may write an IJTAG instrument. -/
  | wrapperSerialShift (wir : Bool) (bits : List Bool)
  /-- DROOP_TRIP_END (R413). A sector's droop detector stops tripping, its every-cycle stretching ends, and pcp_droop_warn falls at least 8 ac later once no sector trips. -/
  | droopTripEnd (sec : BitVec 2)
deriving DecidableEq, Repr

end Sys2Proof
end

