-- ==== Sys2Proof/Decode.lean ====
section
/-!
DEFINITION. The command that a word of the opcode table spells: the table gives no row any bits, so no word spells one.
-/

namespace Sys2Proof

/-- The command of a table word: none, because no row of spec/opcode_table.json has bits. Log entry 10, DESIGN CHOICE. -/
def decodeTableWord (_nbits _w : Nat) : Option Instr := none

end Sys2Proof
end

