-- ==== Sys2Proof/Machine/Tbl.lean ====
section
/-!
DEFINITION. Sorted tables of (index, value) pairs in one canonical form: indices strictly rising, and no entry equal
to the value that an unlisted index reads as. Also the bit-field helpers that every layout of the spec uses.
-/

namespace Sys2Proof.Machine

/-- A sparse table. -/
abbrev Tbl (α : Type) := List (Nat × α)

/-- What index `k` reads as, `d` where it is unlisted. -/
def tget {α : Type} (d : α) : Tbl α → Nat → α
  | [], _ => d
  | (i, v) :: r, k => if i = k then v else tget d r k

/-- The table without index `k`. -/
def tdel {α : Type} : Tbl α → Nat → Tbl α
  | [], _ => []
  | (i, v) :: r, k => if i = k then tdel r k else (i, v) :: tdel r k

/-- Insert an entry before the first larger index. -/
def tins {α : Type} : Tbl α → Nat → α → Tbl α
  | [], k, v => [(k, v)]
  | (i, w) :: r, k, v => if k < i then (k, v) :: (i, w) :: r else (i, w) :: tins r k v

/-- Write index `k`: the value an unlisted index reads as removes the entry. -/
def tset {α : Type} [DecidableEq α] (d : α) (t : Tbl α) (k : Nat) (v : α) : Tbl α :=
  if v = d then tdel t k else tins (tdel t k) k v

/-- The canonical form. -/
def twf {α : Type} [DecidableEq α] (d : α) : Tbl α → Bool
  | [] => true
  | [(_, v)] => decide (v ≠ d)
  | (i, v) :: (j, w) :: r => decide (i < j) && decide (v ≠ d) && twf d ((j, w) :: r)

/-- Change the entry of index `k`. -/
def tmod {α : Type} [DecidableEq α] (d : α) (t : Tbl α) (k : Nat) (f : α → α) : Tbl α :=
  tset d t k (f (tget d t k))

/-! ### Bit fields -/

/-- Bits [hi:lo] of a word, as a number. -/
def fld {w : Nat} (x : BitVec w) (hi lo : Nat) : Nat := (x.toNat >>> lo) % 2 ^ (hi - lo + 1)

/-- One bit of a word. -/
def bit {w : Nat} (x : BitVec w) (i : Nat) : Bool := x.getLsbD i

/-- `x` with bits [hi:lo] replaced by the low bits of `v`. -/
def putFld (x : W64) (hi lo v : Nat) : W64 :=
  let m : W64 := BitVec.ofNat 64 ((2 ^ (hi - lo + 1) - 1) <<< lo)
  (x &&& ~~~m) ||| (BitVec.ofNat 64 ((v % 2 ^ (hi - lo + 1)) <<< lo))

/-- A field of `n` bits read as a two's-complement number. -/
def sgn (n v : Nat) : Int := if v < 2 ^ (n - 1) then (v : Int) else (v : Int) - 2 ^ n

/-- Bits [hi:lo] read as a two's-complement number. -/
def sfld {w : Nat} (x : BitVec w) (hi lo : Nat) : Int := sgn (hi - lo + 1) (fld x hi lo)

/-- A Boolean as a bit. -/
def b2n (b : Bool) : Nat := if b then 1 else 0

/-- The numbers `0 … n - 1`. -/
def upto (n : Nat) : List Nat := List.range n

/-- `n` little-endian bytes of a number. -/
def leBytes (n v : Nat) : List Byte := (upto n).map fun i => BitVec.ofNat 8 (v >>> (8 * i))

/-- The number that little-endian bytes hold. -/
def leNat : List Byte → Nat
  | [] => 0
  | b :: r => b.toNat + 256 * leNat r

/-- A saturating increment of a counter of `n` bits (17 R435). -/
def satInc (n v : Nat) (by' : Nat := 1) : Nat := min (2 ^ n - 1) (v + by')

/-- Rounding up to a multiple. -/
def ceilDiv (a b : Nat) : Nat := (a + b - 1) / b

/-- Byte `i` of a wide word, counted from the low end. -/
def byteOf {w : Nat} (x : BitVec w) (i : Nat) : Byte := BitVec.ofNat 8 (x.toNat >>> (8 * i))

/-- The low `n` bytes of a wide word, in address order. -/
def bytesOf {w : Nat} (x : BitVec w) (n : Nat) : List Byte := (upto n).map (byteOf x)

/-- Element `i` of a list of bytes, 0 beyond its end. -/
def byteAt (l : List Byte) (i : Nat) : Byte := l.getD i 0

/-- The bytes `[i : i + n - 1]` of a record as a little-endian number. -/
def rdLe (l : List Byte) (i n : Nat) : Nat := leNat ((l.drop i).take n)

end Sys2Proof.Machine
end

