-- ==== Sys2Proof/Machine/Crypto.lean ====
section
/-!
DEFINITION. The checks and ciphers that the spec names by their standards: CRC-16 (15 R374), CRC-32 (14 R361),
SHA-384 (09 R242), AES-256-GCM (13 R344).
-/

namespace Sys2Proof.Machine

/-- One bit of the CRC-16 of R374. -/
def crc16Bit (c : W16) (b : Bool) : W16 :=
  let t := bit c 15 ^^ b
  (c <<< 1) ^^^ (if t then 0x1021 else 0)

/-- CRC-16 over bits, first bit first (15 R374). -/
def crc16 (bits : List Bool) (c : W16 := 0xFFFF) : W16 := bits.foldl crc16Bit c

/-- Bits [hi:lo] of a word from the highest down. -/
def bitsDown {w : Nat} (x : BitVec w) (hi lo : Nat) : List Bool :=
  (upto (hi - lo + 1)).map fun i => bit x (hi - i)

/-- CRC-32 of IEEE 802.3 over bytes (14 R361). -/
def crc32 (l : List Byte) : W32 :=
  let step (c : W32) : W32 := if bit c 0 then (c >>> 1) ^^^ 0xEDB88320 else c >>> 1
  ~~~ (l.foldl (fun c b => (upto 8).foldl (fun c _ => step c) (c ^^^ b.setWidth 32)) 0xFFFFFFFF)

/-! ### SHA-384 (FIPS 180-4) -/

/-- The largest `r` below 2^`bits` with `r ^ k ≤ n`, found bit by bit from the top. -/
def rootFloor (k bits n : Nat) : Nat :=
  (upto bits).foldl (fun r i => if (r + 2 ^ (bits - 1 - i)) ^ k ≤ n then r + 2 ^ (bits - 1 - i) else r) 0

/-- The primes below 410: the standard's eighty. -/
def shaPrimes : List Nat := (upto 410).filter fun n => decide (2 ≤ n) && (upto n).all fun d => decide (d < 2) || decide (n % d ≠ 0)

/-- The first 64 bits of the fraction of the `k`-th root of `p`. -/
def rootBits (k p : Nat) : W64 := BitVec.ofNat 64 (rootFloor k 70 (p * 2 ^ (64 * k)))

/-- The round constants: the cube roots of the eighty primes. -/
def sha512K : List W64 := shaPrimes.map (rootBits 3)

/-- The first hash value of SHA-384: the square roots of the ninth to the sixteenth prime. -/
def sha384Init : List W64 := ((shaPrimes.drop 8).take 8).map (rootBits 2)

def rotr (x : W64) (n : Nat) : W64 := x.rotateRight n

/-- The message schedule, newest word first. -/
def shaSchedule (m : List W64) : List W64 :=
  ((upto 64).foldl (fun w _ =>
    let a := w.getD 1 0
    let b := w.getD 14 0
    let s0 := rotr b 1 ^^^ rotr b 8 ^^^ (b >>> 7)
    let s1 := rotr a 19 ^^^ rotr a 61 ^^^ (a >>> 6)
    (s1 + w.getD 6 0 + s0 + w.getD 15 0) :: w) m.reverse).reverse

/-- One block of SHA-512. -/
def shaBlock (h : List W64) (m : List W64) : List W64 :=
  let r := (sha512K.zip (shaSchedule m)).foldl (fun (v : List W64) (kw : W64 × W64) =>
    let a := v.getD 0 0
    let b := v.getD 1 0
    let c := v.getD 2 0
    let e := v.getD 4 0
    let t1 := v.getD 7 0 + (rotr e 14 ^^^ rotr e 18 ^^^ rotr e 41) + ((e &&& v.getD 5 0) ^^^ (~~~e &&& v.getD 6 0)) + kw.1 + kw.2
    let t2 := (rotr a 28 ^^^ rotr a 34 ^^^ rotr a 39) + ((a &&& b) ^^^ (a &&& c) ^^^ (b &&& c))
    [t1 + t2, a, b, c, v.getD 3 0 + t1, e, v.getD 5 0, v.getD 6 0]) h
  (h.zip r).map fun p => p.1 + p.2

/-- Big-endian number of bytes. -/
def beNat (l : List Byte) : Nat := l.foldl (fun a b => a * 256 + b.toNat) 0
/-- `n` big-endian bytes. -/
def beBytes (n v : Nat) : List Byte := (leBytes n v).reverse

def shaPad (l : List Byte) : List Byte :=
  let n := l.length
  l ++ [0x80] ++ List.replicate ((239 - n % 128) % 128) 0 ++ beBytes 16 (8 * n)

/-- SHA-384 of a byte string: 48 bytes. -/
def sha384 (l : List Byte) : List Byte :=
  let p := shaPad l
  let h := (upto (p.length / 128)).foldl (fun h i =>
    shaBlock h ((upto 16).map fun j => BitVec.ofNat 64 (beNat ((p.drop (128 * i + 8 * j)).take 8)))) sha384Init
  ((h.take 6).flatMap fun w => beBytes 8 w.toNat)

/-! ### AES-256-GCM (NIST SP 800-38D) -/

def xtime (a : Byte) : Byte := (a <<< 1) ^^^ (if bit a 7 then 0x1B else 0)
/-- Product in GF(2^8). -/
def gmul8 (a b : Byte) : Byte :=
  ((upto 8).foldl (fun (st : Byte × Byte) i => (if bit b i then st.1 ^^^ st.2 else st.1, xtime st.2)) (0, a)).1
/-- The AES S-box. -/
def sbox (a : Byte) : Byte :=
  let inv := (upto 253).foldl (fun r _ => gmul8 r a) a
  inv ^^^ inv.rotateLeft 1 ^^^ inv.rotateLeft 2 ^^^ inv.rotateLeft 3 ^^^ inv.rotateLeft 4 ^^^ 0x63

def xorB (a b : List Byte) : List Byte := (a.zip b).map fun p => p.1 ^^^ p.2

/-- The 60 words of the AES-256 key schedule, each of 4 bytes, newest first while built. -/
def aesKeys (key : List Byte) : List (List Byte) :=
  let w0 := ((upto 8).map fun i => (key.drop (4 * i)).take 4).reverse
  (((upto 52).foldl (fun (st : List (List Byte) × Byte) j =>
    let i := j + 8
    let t := st.1.getD 0 []
    let u := if i % 8 = 0 then xorB (((t.drop 1) ++ t.take 1).map sbox) [st.2, 0, 0, 0]
      else if i % 8 = 4 then t.map sbox else t
    (xorB (st.1.getD 7 []) u :: st.1, if i % 8 = 0 then xtime st.2 else st.2)) (w0, 1)).1).reverse

def mixCol (c : List Byte) : List Byte :=
  let g := fun i => c.getD (i % 4) 0
  (upto 4).map fun i => xtime (g i) ^^^ (xtime (g (i + 1)) ^^^ g (i + 1)) ^^^ g (i + 2) ^^^ g (i + 3)

/-- AES-256 of one block of 16 bytes. -/
def aesBlock (ks : List (List Byte)) (blk : List Byte) : List Byte :=
  let rk := fun r => ((ks.drop (4 * r)).take 4).flatten
  let sub := fun (s : List Byte) => (upto 16).map fun i => sbox (s.getD ((i + 4 * (i % 4)) % 16) 0)
  let mid := (upto 13).foldl (fun s r =>
    xorB (((upto 4).flatMap fun c => mixCol (((sub s).drop (4 * c)).take 4))) (rk (r + 1))) (xorB blk (rk 0))
  xorB (sub mid) (rk 14)

/-- Product in GF(2^128) as GCM numbers its bits: the top bit of the word is the first. -/
def gmul128 (x y : BitVec 128) : BitVec 128 :=
  ((upto 128).foldl (fun (st : BitVec 128 × BitVec 128) i =>
    (if bit x (127 - i) then st.1 ^^^ st.2 else st.1,
     (st.2 >>> 1) ^^^ (if bit st.2 0 then (0xE1#128 <<< 120) else 0))) (0, y)).1

def padTo16 (l : List Byte) : List Byte := l ++ List.replicate ((16 - l.length % 16) % 16) 0

def ghash (h : BitVec 128) (l : List Byte) : BitVec 128 :=
  (upto (l.length / 16)).foldl (fun y i => gmul128 (y ^^^ BitVec.ofNat 128 (beNat ((l.drop (16 * i)).take 16))) h) 0

/-- AES in counter mode from block counter 2 on. -/
def gcmCtr (ks : List (List Byte)) (iv data : List Byte) : List Byte :=
  xorB data ((upto ((data.length + 15) / 16)).flatMap fun i => aesBlock ks (iv ++ beBytes 4 (i + 2)))

def gcmTag (ks : List (List Byte)) (iv aad ct : List Byte) : List Byte :=
  let h := BitVec.ofNat 128 (beNat (aesBlock ks (List.replicate 16 0)))
  let s := ghash h (padTo16 aad ++ padTo16 ct ++ beBytes 8 (8 * aad.length) ++ beBytes 8 (8 * ct.length))
  xorB (beBytes 16 s.toNat) (aesBlock ks (iv ++ beBytes 4 1))

/-- Seal: ciphertext followed by the 16-byte tag. -/
def gcmSeal (key iv aad pt : List Byte) : List Byte :=
  let ks := aesKeys key
  let ct := gcmCtr ks iv pt
  ct ++ gcmTag ks iv aad ct

/-- Open: the plaintext where the tag agrees. -/
def gcmOpen (key iv aad sealed : List Byte) : Option (List Byte) :=
  let ks := aesKeys key
  let n := sealed.length - 16
  let ct := sealed.take n
  if gcmTag ks iv aad ct = sealed.drop n then some (gcmCtr ks iv ct) else none

end Sys2Proof.Machine
end

