-- ==== Sys2Proof/Config.lean ====
section
/-!
DEFINITION. The free values of the model: what the spec leaves open. Each is opaque and has no body, so no proof
can see its value, and a statement about one holds whatever it is.
-/

namespace Sys2Proof.Config

/-- FREE VALUE. The FP32 bits that VEXP2 delivers for the FP32 operand bits, where it lies within 2 ulp: R113
fixes only the bound (05 Table 5-4). Log entry 6, DESIGN CHOICE. -/
opaque exp2Bits : W32 → W32

/-- FREE VALUE. As `exp2Bits`, for VLOG2 (05 Table 5-4). Log entry 6, DESIGN CHOICE. -/
opaque log2Bits : W32 → W32

/-- FREE VALUE. As `exp2Bits`, for VRCP: at most 1 ulp from the reciprocal (05 Table 5-4). Log entry 6, DESIGN CHOICE. -/
opaque rcpBits : W32 → W32

/-- FREE VALUE. As `exp2Bits`, for VRSQ: at most 1 ulp from the reciprocal square root (05 Table 5-4). Log entry 6, DESIGN CHOICE. -/
opaque rsqBits : W32 → W32

/-- FREE VALUE. Byte `offset` of an item whose layout the spec does not give, from the item's field values: the header that an
FTQ entry shows. Log entry 7, DESIGN CHOICE. -/
opaque sectionByte : Nat → List Nat → Nat → Byte

/-- FREE VALUE. The size of the next trim step of the meridian increment, in units of 2^-32 mt, before the bound of
1/1024 of the nominal rate is applied (10 Table 10-2). Log entry 8, DESIGN CHOICE. -/
opaque trimStep : Nat → Int

/-- FREE VALUE. The bits of a value that the spec leaves without a number, one for each draw. Log entry 5, DESIGN CHOICE. -/
opaque freeValue : Nat → W64

/-- FREE VALUE. The levels of the cells of the wrapper boundary register at a capture, where the state does not hold the signal (15 R395).
Log entry 97, DEDUCED. -/
opaque portLevels : Nat → Nat

/-- FREE VALUE. What a vector lane delivers where the spec states no result, by the operation's opcode and its operands: equal operands
give equal results (12 R309). Log entry 5, DESIGN CHOICE. -/
opaque laneValue : Nat → List Nat → W64

/-- FREE VALUE. The window offset of the instrument that a shift of these bits through the IEEE 1687 network updates
(15 R396: the ICL is delivered apart). Log entry 9, DESIGN CHOICE. -/
opaque ijtagOffset : List Bool → Nat

/-- FREE VALUE. The value that such a shift writes to the instrument. Log entry 9, DESIGN CHOICE. -/
opaque ijtagData : List Bool → W64

end Sys2Proof.Config
end

