-- ==== Sys2Proof/Machine/Num.lean ====
section
/-!
DEFINITION. Numbers and formats: element encodings (02 R32, R33), rounding (02 R43, R44), scales and blocks
(02 R34 to R42), FP32 arithmetic with one rounding (05 R112, R113).
-/

namespace Sys2Proof.Machine

/-- A value of the core's arithmetic: exact while finite. `neg` is the sign, kept for zeros and non-finites. -/
inductive Num where
  | nan (neg : Bool)
  | inf (neg : Bool)
  | fin (neg : Bool) (mag : Rat)
deriving DecidableEq, Repr

/-- 2^e. -/
def pow2 (e : Int) : Rat :=
  match e with
  | .ofNat n => ((2 ^ n : Nat) : Rat)
  | .negSucc n => mkRat 1 (2 ^ (n + 1))

/-- floor(log2 q) for q > 0. -/
def floorLog2 (q : Rat) : Int :=
  let n := q.num.toNat
  let d := q.den
  let g : Int := (Nat.log2 n : Int) - (Nat.log2 d : Int)
  if pow2 g ≤ q then g else g - 1

/-- The signed value of a finite number; 0 for the others. -/
def Num.val : Num → Rat
  | .fin s m => if s then -m else m
  | _ => 0

/-- The exact value as a number; a zero carries the sign `z`. -/
def Num.ofRat (q : Rat) (z : Bool := false) : Num :=
  if q = 0 then .fin z 0 else .fin (decide (q < 0)) (if q < 0 then -q else q)

def Num.isNan : Num → Bool
  | .nan _ => true
  | _ => false

def Num.isFin : Num → Bool
  | .fin _ _ => true
  | _ => false

def Num.sign : Num → Bool
  | .nan s => s
  | .inf s => s
  | .fin s _ => s

/-- Zero of either sign. -/
def Num.isZero : Num → Bool
  | .fin _ m => decide (m = 0)
  | _ => false

/-- How a command rounds: to nearest with ties to even, or stochastically with 16 generator bits (02 R43, R44). -/
inductive Rnd where
  | rne
  | sr (draw : Nat)
deriving DecidableEq, Repr

/-- Round a magnitude to a whole number of units (02 R44). -/
def rndUnits (r : Rnd) (q : Rat) : Nat :=
  let f := q.floor.toNat
  let fr := q - f
  match r with
  | .rne => if fr < 1 / 2 then f else if fr > 1 / 2 then f + 1 else if f % 2 = 0 then f else f + 1
  | .sr d => if (fr * 65536).floor.toNat + d ≥ 65536 then f + 1 else f

/-! ### Formats (08 Table 8-6, 02 Table 2-1) -/

/-- The floating-point layout of a format code: exponent bits, mantissa bits, bias. -/
def fpLayout (f : Nat) : Option (Nat × Nat × Int) :=
  match f with
  | 0x00 => some (8, 23, 127)
  | 0x01 => some (8, 7, 127)
  | 0x02 => some (5, 10, 15)
  | 0x06 => some (4, 3, 7)
  | 0x07 => some (5, 2, 15)
  | 0x09 => some (2, 1, 1)
  | 0x0A => some (2, 1, 1)
  | 0x0B => some (3, 2, 3)
  | 0x0C => some (2, 3, 1)
  | _ => none

/-- Width of an element in bits. -/
def fmtBits (f : Nat) : Nat :=
  match f with
  | 0x00 => 32 | 0x01 => 16 | 0x02 => 16 | 0x03 => 32 | 0x04 => 16 | 0x05 => 8 | 0x06 => 8 | 0x07 => 8
  | 0x08 => 128 | 0x09 => 4 | 0x0A => 4 | 0x0B => 6 | 0x0C => 6 | 0x0D => 4 | 0x0E => 2 | 0x0F => 2 | _ => 8

/-- Element size of an addressing form in bytes (08 Table 8-6). -/
def fmtBytes (f : Nat) : Nat := fmtBits f / 8

/-- Codes an addressing form accepts (08 R212). -/
def isFormFmt (f : Nat) : Bool := f ≤ 8
/-- Codes a block-scaled descriptor accepts (08 R212). -/
def isBsdFmt (f : Nat) : Bool := f = 1 || f = 2 || f = 5 || f = 6 || f = 7 || (9 ≤ f && f ≤ 15)
/-- Formats with a block scale (02 R36). -/
def isBlockFmt (f : Nat) : Bool := f = 5 || f = 6 || f = 7 || (9 ≤ f && f ≤ 15)
def isIntLane (f : Nat) : Bool := f = 3 || f = 4 || f = 5
def isFloatLane (f : Nat) : Bool := f = 0 || f = 1 || f = 2

/-- Significand width (02 Table 2-1). -/
def sigWidth (f : Nat) : Nat :=
  match f with
  | 0x00 => 24 | 0x01 => 8 | 0x02 => 11 | 0x05 => 7 | 0x06 => 4 | 0x07 => 3 | 0x09 => 2 | 0x0A => 2 | 0x0B => 3
  | 0x0C => 4 | 0x0D => 3 | 0x0E => 1 | 0x0F => 1 | 0x03 => 31 | 0x04 => 15 | _ => 24

/-- Does the top exponent code of a format mean infinity and NaN by the IEEE rules? -/
def ieeeTop (f : Nat) : Bool := f = 0 || f = 1 || f = 2 || f = 7

/-- Decode an element (02 R32, R33). -/
def decodeElem (f code : Nat) : Num :=
  match fpLayout f with
  | some (eb, mb, bias) =>
    let m := code % 2 ^ mb
    let e := (code >>> mb) % 2 ^ eb
    let s := decide ((code >>> (mb + eb)) % 2 = 1)
    if ieeeTop f && e = 2 ^ eb - 1 then (if m = 0 then .inf s else .nan s)
    else if f = 6 && e = 15 && m = 7 then .nan s
    else if e = 0 then .fin s ((m : Rat) * pow2 (1 - bias - mb))
    else .fin s (((2 ^ mb + m : Nat) : Rat) * pow2 ((e : Int) - bias - mb))
  | none =>
    if f = 0x0F then (if code % 4 = 1 then .fin false 1 else if code % 4 = 3 then .fin true 1 else .fin false 0)
    else Num.ofRat ((sgn (fmtBits f) (code % 2 ^ fmtBits f) : Int) : Rat)

/-- The largest finite magnitude of a floating-point format (02 Table 2-1). -/
def maxFin (f : Nat) : Rat :=
  match f with
  | 6 => 448
  | 7 => 57344
  | _ =>
    match fpLayout f with
    | some (eb, mb, bias) =>
      let top : Int := if ieeeTop f then 2 ^ eb - 2 else 2 ^ eb - 1
      ((2 ^ (mb + 1) - 1 : Nat) : Rat) * pow2 (top - bias - mb)
    | none => 0

/-- The code of a finite value that the format holds exactly. -/
def encodeFin (f : Nat) (s : Bool) (mag : Rat) : Nat :=
  match fpLayout f with
  | some (eb, mb, bias) =>
    let sb := b2n s <<< (mb + eb)
    if mag = 0 then sb else
    let e := max (floorLog2 mag) (1 - bias)
    let k := (mag / pow2 (e - mb)).floor.toNat
    if k < 2 ^ mb then sb + k else sb + (((e + bias).toNat) <<< mb) + (k - 2 ^ mb)
  | none => 0

/-- The code of an infinity of an IEEE format. -/
def encodeInf (f : Nat) (s : Bool) : Nat :=
  match fpLayout f with
  | some (eb, mb, _) => (b2n s <<< (mb + eb)) + ((2 ^ eb - 1) <<< mb)
  | none => 0

/-- The quiet NaN of a format: 0x7FC0_0000 and its like (05 R112); S.1111.111 and S.11111.11 (05 R114). -/
def encodeNan (f : Nat) (s : Bool) : Nat :=
  match f with
  | 6 => b2n s * 128 + 0x7F
  | 7 => b2n s * 128 + 0x7F
  | _ =>
    match fpLayout f with
    | some (eb, mb, _) => ((2 ^ eb - 1) <<< mb) + 2 ^ (mb - 1)
    | none => 0

/-- Round a magnitude to a format's grid, without limit at the top. -/
def quantMag (f : Nat) (r : Rnd) (mag : Rat) : Rat :=
  match fpLayout f with
  | some (_, mb, bias) =>
    if mag = 0 then 0 else
    let u := pow2 (max (floorLog2 mag) (1 - bias) - mb)
    (rndUnits r (mag / u) : Rat) * u
  | none => (rndUnits r mag : Rat)

/-- Events counted while values are produced (02 Table 2-6). -/
structure Cnts where
  clip : Nat := 0
  flush : Nat := 0
  escape : Nat := 0
  spread : Nat := 0
  nonfin : Nat := 0
deriving DecidableEq, Repr

def Cnts.add (a b : Cnts) : Cnts :=
  ⟨a.clip + b.clip, a.flush + b.flush, a.escape + b.escape, a.spread + b.spread, a.nonfin + b.nonfin⟩

def Cnts.isZero (a : Cnts) : Bool := a = {}

/-- Round a value to FP32, BF16 or FP16 with the saturate field (02 R54): the code and the counted events. -/
def drainTo (f : Nat) (r : Rnd) (sat : Bool) (v : Num) : Nat × Cnts :=
  match v with
  | .nan _ => (encodeNan f false, { nonfin := 1 })
  | .inf s => (if sat then encodeFin f s (maxFin f) else encodeInf f s, { nonfin := 1 })
  | .fin s m =>
    let q := quantMag f r m
    if q > maxFin f then
      if sat then (encodeFin f s (maxFin f), { clip := 1 }) else (encodeInf f s, { nonfin := 1 })
    else (encodeFin f s q, if q = 0 && m ≠ 0 then { flush := 1 } else {})

/-- The code of a value rounded once to FP32, BF16 or FP16, overflow giving infinity (05 R112). -/
def roundTo (f : Nat) (v : Num) : Nat := (drainTo f .rne false v).1

/-- FP32 rounding as a value. -/
def r32 (v : Num) : Num := decodeElem 0 (roundTo 0 v)

/-- The FP32 value of 32 bits. -/
def fp32 (x : W32) : Num := decodeElem 0 x.toNat

/-- R35: positive, finite and normal. -/
def scaleOk (x : W32) : Bool := !bit x 31 && decide (1 ≤ fld x 30 23) && decide (fld x 30 23 ≤ 254)

/-- Pmax and Nmax (02 Table 2-5). -/
def pMax (f : Nat) : Rat := match f with | 5 => 127 | 0x0D => 7 | 0x0E => 1 | 0x0F => 1 | _ => maxFin f
def nMax (f : Nat) : Rat := match f with | 0x0E => 2 | _ => pMax f
/-- Emax (02 Table 2-5). -/
def eMax (f : Nat) : Int :=
  match f with
  | 9 => 2 | 0x0A => 2 | 0x0B => 4 | 0x0C => 2 | 6 => 8 | 7 => 15 | 5 => 6 | 0x0D => 2 | _ => 0

/-- Code of a produced narrow element (02 R33): the value lies on the format's grid and inside its limits. -/
def encodeNarrow (f : Nat) (s : Bool) (mag : Rat) : Nat :=
  match fpLayout f with
  | some _ => encodeFin f s mag
  | none =>
    let k := mag.floor.toNat
    if s && k ≠ 0 then 2 ^ fmtBits f - k else k

/-- Round a quotient to a narrow element format (02 R43): its code and the counted events. -/
def narrowElem (f : Nat) (r : Rnd) (v : Num) : Nat × Cnts :=
  match v with
  | .nan s => (if f = 6 || f = 7 then encodeNan f s else 0, { nonfin := 1 })
  | .inf s => (encodeNarrow f s (if s then nMax f else pMax f), { nonfin := 1 })
  | .fin s m =>
    let lim := if s then nMax f else pMax f
    let q := quantMag f r m
    if m > lim then (encodeNarrow f s lim, { clip := 1 })
    else if q > lim then (encodeNarrow f s lim, { clip := 1 })
    else if q = 0 then ((if (fpLayout f).isSome then encodeFin f s 0 else 0), if m ≠ 0 then { flush := 1 } else {})
    else (encodeNarrow f s q, {})

/-! ### Block scales (02 R34, R41, R42) -/

/-- The value of an E8M0 code. -/
def e8m0 (c : Nat) : Num := if c = 0xFF then .nan false else .fin false (pow2 ((c : Int) - 127))

/-- Largest finite non-negative value and magnitude of the most negative finite value. -/
def extremes (l : List Num) : Rat × Rat :=
  l.foldl (fun a v =>
    match v with
    | .fin s m => if s then (a.1, max a.2 m) else (max a.1 m, a.2)
    | _ => a) (0, 0)

/-- The smallest e with q ≤ lim · 2^e, for q > 0. -/
def fitExp (q lim : Rat) : Int :=
  let g := floorLog2 (q / lim)
  if q ≤ lim * pow2 g then g else g + 1

/-- The block scale exponent of finite values, before escapes (02 R41). `ocp` selects the OCP rule. -/
def scaleExp (f : Nat) (ocp : Bool) (l : List Num) : Int :=
  let (p, n) := extremes l
  if p = 0 && n = 0 then 0 else
  let e := if ocp then floorLog2 (max p n) - eMax f
    else if p = 0 then fitExp n (nMax f) else if n = 0 then fitExp p (pMax f)
    else max (fitExp p (pMax f)) (fitExp n (nMax f))
  max (-127) (min 127 e)

/-- Position of the largest finite magnitude of a row, the lower index on a tie (02 R42). -/
def largestAt (row : List (Option Num)) : Option (Nat × Rat) :=
  (row.zipIdx).foldl (fun best (v, i) =>
    match v with
    | some (.fin _ m) =>
      match best with
      | some (_, b) => if m > b then some (i, m) else best
      | none => if m > 0 then some (i, m) else none
    | _ => best) none

/-- The values inside the edge. -/
def inEdge (row : List (Option Num)) : List Num := row.filterMap id

/-- The row with one position taken out. -/
def without (row : List (Option Num)) (i : Nat) : List (Option Num) := row.set i none

/-- The escape candidate of one row (02 R42): its position and magnitude, when e2 < e1. -/
def escCandidate (ocp : Bool) (row : List (Option Num)) : Option (Nat × Rat) :=
  match largestAt row with
  | none => none
  | some (i, m) =>
    if scaleExp 0x0A ocp (inEdge (without row i)) < scaleExp 0x0A ocp (inEdge row) then some (i, m) else none

/-- Candidates of the rows of a block, at most one in a column: the larger magnitude stays, the lower row on a tie. -/
def keepEscapes (cands : List (Option (Nat × Rat))) : List (Option Nat) :=
  cands.zipIdx.map fun (c, r) =>
    match c with
    | none => none
    | some (i, m) =>
      if cands.zipIdx.any fun (d, q) =>
        match d with
        | some (j, n) => q ≠ r && j = i && (decide (n > m) || (n = m && decide (q < r)))
        | none => false
      then none else some i

/-- A stored row of 32 elements: the codes, the scale code, and the escape (code and position) if any (02 R37, R39). -/
structure BlkRow where
  codes : List Nat
  scale : Nat
  esc : Option (Nat × Nat)
deriving DecidableEq, Repr

/-- Divide a number by a positive rational. -/
def Num.divPos (v : Num) (q : Rat) : Num :=
  match v with
  | .fin s m => .fin s (m / q)
  | _ => v

/-- Produce the rows of one block (one row for ROW32, 32 for SQ32) from values already divided by the tensor scale;
`none` marks a position outside the edge. `rnd r i` is the rounding of element `i` of row `r` (02 R41 to R43). -/
def quantBlock (f : Nat) (ocp : Bool) (rnd : Nat → Nat → Rnd) (rows : List (List (Option Num))) : List BlkRow × Cnts :=
  let escs : List (Option Nat) :=
    if f = 0x0A then keepEscapes (rows.map (escCandidate ocp)) else rows.map fun _ => none
  let rest := (rows.zip escs).map fun (row, e) => match e with | some i => without row i | none => row
  let e := scaleExp f ocp (rest.flatMap inEdge)
  let sc := pow2 e
  let out := (rows.zip escs).zipIdx.map fun ((row, esc), r) =>
    let cells := row.zipIdx.map fun (v, i) =>
      match v with
      | none => ((0 : Nat), ({} : Cnts))
      | some x => if esc = some i then (0, {}) else narrowElem f (rnd r i) (x.divPos sc)
    let ev := match esc with
      | some i =>
        match row.getD i none with
        | some x => let z := narrowElem 6 (rnd r i) (x.divPos sc); (some (z.1, i), z.2.add { escape := 1 })
        | none => (none, {})
      | none => (none, {})
    (BlkRow.mk (cells.map Prod.fst) (e + 127).toNat ev.1, cells.foldl (fun a c => a.add c.2) ev.2)
  (out.map Prod.fst, out.foldl (fun a c => a.add c.2) {})

/-- The side record of a row (02 R37, R39). -/
def sideRecord (f : Nat) (b : BlkRow) : List Byte :=
  if f = 0x0A then
    match b.esc with
    | some (c, i) => leBytes 3 (b.scale * 65536 + c * 256 + i * 8 + 4)
    | none => leBytes 3 (b.scale * 65536)
  else leBytes 1 b.scale

/-- The element field of a row of codes of width `w` (02 R37). -/
def packCodes (w : Nat) (codes : List Nat) : List Byte :=
  leBytes (codes.length * w / 8) (codes.foldr (fun c a => a * 2 ^ w + c) 0)

/-- Read a row back from its element field and side record (02 R37, R39, R40). `scale` overrides the record's own. -/
def readRow (f : Nat) (elems side : List Byte) (scale : Option Nat) : BlkRow :=
  let w := fmtBits f
  let n := leNat elems
  let codes := (upto 32).map fun i => (n >>> (w * i)) % 2 ^ w
  if f = 0x0A then
    let r := leNat side
    let esc := if (r >>> 2) % 2 = 1 then some ((r >>> 8) % 256, (r >>> 3) % 32) else none
    ⟨codes, scale.getD ((r >>> 16) % 256), esc⟩
  else ⟨codes, scale.getD (leNat side), none⟩

/-- An operand element of the array: its value with the block scale, and its significand width (02 R47). -/
structure OpElem where
  v : Num
  s : Nat
deriving DecidableEq, Repr

/-- Product of two numbers, exact; infinity times zero is NaN (02 R52). -/
def Num.mul (a b : Num) : Num :=
  match a, b with
  | .nan s, _ => .nan s
  | _, .nan s => .nan s
  | .inf s, .inf t => .inf (s ^^ t)
  | .inf s, .fin t m => if m = 0 then .nan false else .inf (s ^^ t)
  | .fin t m, .inf s => if m = 0 then .nan false else .inf (s ^^ t)
  | .fin s m, .fin t n => .fin (s ^^ t) (m * n)

/-- Sum of two numbers, exact; a zero sum of unlike signs is +0. -/
def Num.add (a b : Num) : Num :=
  match a, b with
  | .nan s, _ => .nan s
  | _, .nan s => .nan s
  | .inf s, .inf t => if s = t then .inf s else .nan false
  | .inf s, .fin _ _ => .inf s
  | .fin _ _, .inf s => .inf s
  | .fin s m, .fin t n => Num.ofRat ((if s then -m else m) + (if t then -n else n)) (s && t)

def Num.neg : Num → Num
  | .nan s => .nan (!s)
  | .inf s => .inf (!s)
  | .fin s m => .fin (!s) m

def Num.abs : Num → Num
  | .nan _ => .nan false
  | .inf _ => .inf false
  | .fin _ m => .fin false m

/-- Decoded value of element `i` of a stored row (02 R34, R39): its number and significand width. -/
def rowElem (f : Nat) (b : BlkRow) (i : Nat) : OpElem :=
  let raw : OpElem := match b.esc with
    | some (c, j) => if i = j then ⟨decodeElem 6 c, 4⟩ else ⟨decodeElem f (b.codes.getD i 0), sigWidth f⟩
    | none => ⟨decodeElem f (b.codes.getD i 0), sigWidth f⟩
  if b.scale = 0xFF then ⟨.nan false, raw.s⟩ else ⟨raw.v.mul (e8m0 b.scale), raw.s⟩

/-! ### FP32 arithmetic, one rounding each (05 R112), and the functions of R113 -/

/-- Order of two non-NaN numbers, −0 below +0 when `z`. -/
def Num.lt (z : Bool) (a b : Num) : Bool :=
  match a, b with
  | .nan _, _ => false
  | _, .nan _ => false
  | .inf s, .inf t => s && !t
  | .inf s, .fin _ _ => s
  | .fin _ _, .inf t => !t
  | .fin s m, .fin t n =>
    decide ((Num.fin s m).val < (Num.fin t n).val) || (z && m = 0 && n = 0 && s && !t)

def Num.eq (a b : Num) : Bool :=
  match a, b with
  | .inf s, .inf t => s = t
  | .fin s m, .fin t n => decide ((Num.fin s m).val = (Num.fin t n).val)
  | _, _ => false

def addF (a b : Num) : Num := r32 (a.add b)
def subF (a b : Num) : Num := r32 (a.add b.neg)
def mulF (a b : Num) : Num := r32 (a.mul b)
/-- a × b + c with one rounding (05 R112). -/
def fmaF (a b c : Num) : Num := r32 ((a.mul b).add c)

/-- FP32 bits of a number. -/
def bits32 (v : Num) : W32 := BitVec.ofNat 32 (roundTo 0 v)

/-- Is `y` within `n` ulp of the exact value `q`? -/
def withinUlp (n : Nat) (y q : Rat) : Bool :=
  let u := pow2 (max (floorLog2 (if y = 0 then pow2 (-149) else |y|)) (-126) - 23)
  decide (|y - q| ≤ n * u)

/-- 2^(2^-i) for i = 1 to 64, in units of 2^-96, each the root of the one before. -/
def expRoots : List Nat :=
  ((upto 64).foldl (fun (st : List Nat × Nat) _ =>
    let r := Nat.sqrt (st.2 * 2 ^ 96)
    (st.1 ++ [r], r)) ([], 2 ^ 97)).1

/-- 2^q to within a relative 2^-60: the product of the roots that the fraction's first 64 bits select. -/
def exp2Near (q : Rat) : Rat :=
  let f := ((q - q.floor) * (2 ^ 64 : Nat)).floor.toNat
  let p := expRoots.zipIdx.foldl (fun p (r, i) => if f.testBit (63 - i) then p * r / 2 ^ 96 else p) (2 ^ 96)
  mkRat p (2 ^ 96) * pow2 q.floor

/-- log2 of q > 0 to within 2^-80: each squaring of the significand gives one more bit. -/
def log2Near (q : Rat) : Rat :=
  let g := floorLog2 q
  let r := (upto 84).foldl (fun (st : Nat × Nat) _ =>
    let z := st.2 * st.2 / 2 ^ 128
    if z ≥ 2 ^ 129 then (2 * st.1 + 1, z / 2) else (2 * st.1, z)) (0, (q / pow2 g * (2 ^ 128 : Nat)).floor.toNat)
  (g : Rat) + mkRat r.1 (2 ^ 84)

/-- A free value where it lies within `n` ulp of `q`, else `q` rounded. -/
def nearOr (n : Nat) (cand : W32) (q : Rat) : Num :=
  match fp32 cand with
  | .fin s m => if withinUlp n (Num.fin s m).val q then .fin s m else r32 (Num.ofRat q)
  | _ => r32 (Num.ofRat q)

/-- VEXP2 (05 Table 5-4): within 2 ulp. Log entry 6, DESIGN CHOICE. -/
def exp2F (x : Num) : Num :=
  match x with
  | .nan _ => .nan false
  | .inf s => if s then .fin false 0 else .inf false
  | .fin s m =>
    let q := (Num.fin s m).val
    if q ≥ 128 then .inf false else if q < -150 then .fin false 0
    else (nearOr 2 (Config.exp2Bits (bits32 x)) (exp2Near q)).abs

/-- VLOG2 (05 Table 5-4): within 2 ulp, which keeps the error below 2^-22 for x in [0.5, 2]. -/
def log2F (x : Num) : Num :=
  match x with
  | .nan _ => .nan false
  | .inf s => if s then .nan false else .inf false
  | .fin s m =>
    if m = 0 then .inf true else if s then .nan false else nearOr 2 (Config.log2Bits (bits32 x)) (log2Near m)

/-- VRCP (05 Table 5-4): a free value inside the bound of 1 ulp, and the rounded reciprocal where the free value
lies outside it. -/
def rcpF (x : Num) : Num :=
  match x with
  | .nan _ => .nan false
  | .inf s => .fin s 0
  | .fin s m =>
    if m = 0 then .inf s else
    match (fp32 (Config.rcpBits (bits32 x))).abs with
    | .fin _ y => if withinUlp 1 y (1 / m) then .fin s y else r32 (.fin s (1 / m))
    | _ => r32 (.fin s (1 / m))

/-- A rational within 2^-k of the square root of `q`, from below. -/
def sqrtBelow (k : Nat) (q : Rat) : Rat :=
  mkRat (Nat.sqrt ((q * (4 ^ k : Nat)).floor.toNat) : Nat) (2 ^ k)

/-- VRSQ (05 Table 5-4): a free value inside the bound of 1 ulp, and the rounded root where it lies outside. -/
def rsqF (x : Num) : Num :=
  match x with
  | .nan _ => .nan false
  | .inf s => if s then .nan false else .fin false 0
  | .fin s m =>
    if m = 0 then .inf s else if s then .nan false else
    let root := sqrtBelow 192 (1 / m)
    match (fp32 (Config.rsqBits (bits32 x))).abs with
    | .fin _ y => if withinUlp 1 y root then .fin false y else r32 (.fin false root)
    | _ => r32 (.fin false root)

end Sys2Proof.Machine
end

