-- ==== Sys2Proof/Machine/Ledger.lean ====
section
/-!
DEFINITION. The ledger accumulator (02 R46 to R52), its drain (R53, R54) and the LX128 word (R55, R56).
-/

namespace Sys2Proof.Machine

/-- A ledger (02 Table 2-7). `spec`: 0 finite, 1 +Inf, 2 −Inf, 3 NaN. `l` is none for an empty ledger. -/
structure Ledger where
  w : Int
  x : Int
  l : Option Int
  spec : Nat
  inx : Bool
  res : Nat
  cnt : Nat
deriving DecidableEq, Repr

/-- The empty ledger (02 R46). -/
def Ledger.empty : Ledger := ⟨0, -512, none, 0, false, 0, 0⟩

/-- W modulo 3. -/
def mod3 (w : Int) : Nat := (w % 3).toNat

/-- The canonical non-finite state (02 R52). -/
def Ledger.nonfinite (g : Ledger) (spec : Nat) : Ledger := { g with w := 0, x := -512, l := none, spec := spec, inx := false, res := 0 }

/-- A window shifted right by `k`, with its residue: kept where no nonzero bit is lost, else recomputed (02 R51). -/
def shiftW (w : Int) (res k : Nat) : Int × Nat :=
  let q := w / 2 ^ k
  (q, if q * 2 ^ k ≠ w then mod3 q else if k % 2 = 1 then 2 * res % 3 else res)

/-- Settle a window sum: the overflow shift and its limit (02 R48). The count is of non-finites. -/
def Ledger.settle (g : Ledger) (w : Int) (res : Nat) (x : Int) (l : Option Int) (inx : Bool) : Ledger × Nat :=
  let ovf := decide (w ≥ 2 ^ 103) || decide (w < -(2 ^ 103))
  let (w', res') := if ovf then shiftW w res 1 else (w, res)
  let x' := if ovf then x + 1 else x
  if x' > 511 then (g.nonfinite (if w < 0 then 2 else 1), 1)
  else
    let below := match l with | some v => decide (v < x') | none => false
    ({ g with w := w', x := x', l := l, inx := inx || below, res := res' }, 0)

/-- Meeting of special values (02 R52). -/
def specMeet (a b : Nat) : Nat := if a = 0 then b else if b = 0 then a else if a = b then a else 3

/-- Add one contribution of significand width `s` (02 R47, R48, R52). Zero adds nothing. `counted` is false where
words merge. The second result counts non-finites. Log entry 23, DEDUCED. A zero initial value is no contribution, as a
zero product is none. Log entry 123, DESIGN CHOICE. -/
def Ledger.addNum (g : Ledger) (v : Num) (s : Nat) : Ledger × Nat :=
  match v with
  | .nan _ => (({ g with cnt := satInc 25 g.cnt }).nonfinite 3, 1)
  | .inf n => (({ g with cnt := satInc 25 g.cnt }).nonfinite (specMeet g.spec (if n then 2 else 1)), 1)
  | .fin n m =>
    if m = 0 then (g, 0) else
    let g := { g with cnt := satInc 25 g.cnt }
    if g.spec ≠ 0 then (g, 0) else
    let h := floorLog2 m
    let xn := max (-512) (h - 78)
    let (w, res) := if xn > g.x then shiftW g.w g.res (xn - g.x).toNat else (g.w, g.res)
    let x := max g.x xn
    let lc := h - s + 1
    let l := match g.l with | some v => min v lc | none => lc
    let add := ((if n then -m else m) / pow2 x).floor
    g.settle (w + add) ((res + mod3 add) % 3) x (some l) (g.inx || decide (g.cnt > 2 ^ 24))

/-- Merge another ledger state, as a word carries it (02 R56). The count is of non-finites. -/
def Ledger.merge (g b : Ledger) : Ledger × Nat :=
  if g.spec ≠ 0 || b.spec ≠ 0 then
    (g.nonfinite (specMeet g.spec b.spec), if b.spec ≠ 0 then 1 else 0)
  else
    let x := max g.x b.x
    let l := match g.l, b.l with
      | some u, some v => some (min u v)
      | some u, none => some u
      | none, v => v
    let (w, r) := shiftW g.w g.res (x - g.x).toNat
    let (w', r') := shiftW b.w b.res (x - b.x).toNat
    g.settle (w + w') ((r + r') % 3) x l (g.inx || b.inx)

/-- A ledger residue error: RES differs from W modulo 3 (02 R51). -/
def Ledger.resErr (g : Ledger) : Bool := decide (g.res ≠ mod3 g.w)

/-- The LX128 word of a ledger (02 R55). -/
def Ledger.word (g : Ledger) : BitVec 128 :=
  let low : Nat := if g.spec ≠ 0 then 127 else
    match g.l with
    | none => 127
    | some l => if l < g.x then 0 else (l - g.x).toNat
  BitVec.ofNat 128 ((g.w % 2 ^ 104).toNat * 2 ^ 24 + (g.x % 1024).toNat * 2 ^ 14 + low * 2 ^ 7 + g.spec * 32
    + b2n g.inx * 16 + g.res * 4)

/-- Is a word malformed (02 R55)? -/
def lxMalformed (v : BitVec 128) : Bool := (decide (104 ≤ fld v 13 7) && decide (fld v 13 7 ≤ 126)) || decide (fld v 3 2 = 3)

/-- A word read back as a ledger; a malformed word is NaN (02 R55). -/
def wordLedger (v : BitVec 128) : Ledger :=
  let low := fld v 13 7
  let res := fld v 3 2
  let x := sfld v 23 14
  if lxMalformed v then Ledger.empty.nonfinite 3
  else if fld v 6 5 ≠ 0 then Ledger.empty.nonfinite (fld v 6 5)
  else ⟨sfld v 127 24, x, if low = 127 then none else some (x + low), 0, bit v 4, res, 0⟩

/-- The value of a ledger, scaled by an exact factor (02 R53). -/
def Ledger.value (g : Ledger) (scale : Rat) : Num :=
  match g.spec with
  | 0 => Num.ofRat ((g.w : Rat) * pow2 g.x * scale)
  | 1 => .inf false
  | 2 => .inf true
  | _ => .nan false

end Sys2Proof.Machine
end

