-- ==== Sys2Proof/Machine/RegMap.lean ====
section
/-!
DEFINITION. The register map: every register of the CSR window with its fields, their access codes (00 R12) and their
reset values, from the field maps that 17 Table 17-1 names. Each row names the file and rule of the spec.
-/

namespace Sys2Proof.Machine

/-- Access codes (00 Table 0-7). -/
inductive Acc where
  | ro | rw | w1c | w1s | wo | rws | rwl | wzc
deriving DecidableEq, Repr

/-- A field [hi:lo] of a register word, with its access code and its reset value. -/
structure Field where
  hi : Nat
  lo : Nat
  acc : Acc
  rst : Nat
deriving DecidableEq, Repr

/-- A register, or a repeated one: first offset, stride, count, fields. -/
structure RegRow where
  base : Nat
  stride : Nat
  count : Nat
  fields : List Field
deriving DecidableEq, Repr

def regMap0 : List RegRow := [
  -- ID.PARTVER (17 R2 R422 R424)
  ⟨0x0, 0x8, 1, [⟨63, 56, .ro, 3⟩, ⟨55, 48, .ro, 1⟩, ⟨47, 40, .ro, 0⟩, ⟨31, 16, .ro, 0x4d43⟩, ⟨15, 0, .ro, 0x4f33⟩]⟩,
  -- ID.STATE (16 R420)
  ⟨0x8, 0x8, 1, [⟨15, 13, .ro, 0⟩, ⟨9, 8, .ro, 0⟩, ⟨2, 2, .ro, 0⟩, ⟨1, 1, .ro, 0⟩, ⟨0, 0, .ro, 0⟩]⟩,
  -- ID.RESET (16 R420)
  ⟨0x10, 0x8, 1, [⟨7, 0, .wo, 0⟩]⟩,
  -- ID.PLACE (17 R424)
  ⟨0x18, 0x8, 1, [⟨31, 24, .ro, 0⟩, ⟨23, 8, .ro, 0⟩, ⟨7, 6, .ro, 0⟩, ⟨5, 0, .ro, 0⟩]⟩,
  -- EV.PEND (17 R427)
  ⟨0x100, 0x8, 1, [⟨31, 0, .w1c, 0⟩]⟩,
  -- EV.EN (17 R427)
  ⟨0x108, 0x8, 1, [⟨31, 0, .rw, 0⟩]⟩,
  -- EV.ROUTE (17 R427)
  ⟨0x110, 0x8, 1, [⟨63, 0, .rw, 0⟩]⟩,
  -- EV.CAUSE (17 R427)
  ⟨0x118, 0x8, 1, [⟨5, 0, .w1c, 0⟩]⟩,
  -- EV.TEST (17 R427)
  ⟨0x120, 0x8, 1, [⟨31, 0, .wo, 0⟩]⟩,
  -- DMA.DROPPED (17 R427)
  ⟨0x128, 0x8, 1, [⟨15, 0, .rw, 0⟩]⟩,
  -- VE.STATUS (17 R427)
  ⟨0x130, 0x8, 1, [⟨1, 1, .w1c, 0⟩, ⟨0, 0, .w1c, 0⟩]⟩,
  -- SPM.STATUS (17 R427)
  ⟨0x138, 0x8, 1, [⟨0, 0, .w1c, 0⟩]⟩,
  -- SPM.ECCTHR (17 R427)
  ⟨0x140, 0x8, 1, [⟨15, 0, .rw, 0xffff⟩]⟩,
  -- SPM.UNCADDR (17 R427)
  ⟨0x148, 0x8, 1, [⟨63, 63, .ro, 0⟩, ⟨23, 0, .ro, 0⟩]⟩,
  -- BAR.SEL (17 R429)
  ⟨0x150, 0x8, 1, [⟨6, 0, .rw, 0⟩]⟩,
  -- BAR.STATUS (17 R429)
  ⟨0x168, 0x8, 1, [⟨31, 16, .rw, 0⟩, ⟨0, 0, .w1c, 0⟩]⟩,
  -- SPM.ECCCNTk (17 R427 R428)
  ⟨0x180, 0x8, 16, [⟨47, 32, .wzc, 0⟩, ⟨15, 0, .wzc, 0⟩]⟩,
  -- IMEM.CTRL (09 R260)
  ⟨0x200, 0x8, 1, [⟨0, 0, .wo, 0⟩]⟩,
  -- IMEM.STATUS (09 R260)
  ⟨0x208, 0x8, 1, [⟨8, 8, .ro, 0⟩, ⟨2, 2, .ro, 0⟩, ⟨1, 1, .w1c, 0⟩, ⟨0, 0, .w1c, 0⟩]⟩,
  -- IMEM.ECCTHR (09 R260)
  ⟨0x210, 0x8, 1, [⟨15, 0, .rw, 0xffff⟩]⟩
]

def regMap1 : List RegRow := [
  -- IMEM.HADDR (09 R260)
  ⟨0x220, 0x8, 1, [⟨17, 17, .rw, 0⟩, ⟨16, 4, .rw, 0⟩]⟩,
  -- IMEM.HTAG (09 R260)
  ⟨0x238, 0x8, 1, [⟨31, 0, .rw, 0⟩]⟩,
  -- IMEM.HDATAi (09 R260)
  ⟨0x228, 0x8, 2, [⟨63, 0, .rw, 0⟩]⟩,
  -- IMEM.BANKn.INFO (09 R260)
  ⟨0x280, 0x80, 2, [⟨63, 63, .ro, 0⟩, ⟨62, 62, .ro, 0⟩, ⟨61, 59, .ro, 0⟩, ⟨47, 40, .ro, 0⟩, ⟨39, 32, .ro, 0⟩,
    ⟨31, 16, .ro, 0x2000⟩, ⟨15, 0, .ro, 0⟩]⟩,
  -- IMEM.BANKn.ENTRY (09 R260)
  ⟨0x288, 0x80, 2, [⟨28, 16, .ro, 0⟩, ⟨12, 0, .ro, 0⟩]⟩,
  -- IMEM.BANKn.ECCCNT (09 R260)
  ⟨0x290, 0x80, 2, [⟨15, 0, .wzc, 0⟩]⟩,
  -- IMEM.BANKn.DIGEST (09 R260)
  ⟨0x2a0, 0x8, 6, [⟨63, 0, .ro, 0⟩]⟩,
  -- IMEM.BANKn.DIGEST (09 R260)
  ⟨0x320, 0x8, 6, [⟨63, 0, .ro, 0⟩]⟩,
  -- FP.CTRL (15 R371-R388, Table 15-9)
  ⟨0x380, 0x8, 1, [⟨15, 0, .rw, 0x64⟩]⟩,
  -- FP.STATUS (15 R371-R388, Table 15-9)
  ⟨0x388, 0x8, 1, [⟨7, 4, .ro, 0⟩, ⟨2, 2, .w1c, 0⟩, ⟨1, 1, .ro, 0⟩, ⟨0, 0, .ro, 0⟩]⟩,
  -- FP.CNT0 (15 R371-R388, Table 15-9)
  ⟨0x390, 0x8, 1, [⟨63, 48, .rw, 0⟩, ⟨47, 32, .rw, 0⟩, ⟨31, 16, .rw, 0⟩, ⟨15, 0, .rw, 0⟩]⟩,
  -- FP.CNT1 (15 R371-R388, Table 15-9)
  ⟨0x398, 0x8, 1, [⟨15, 0, .rw, 0⟩]⟩,
  -- FP.OUTST (15 R371-R388, Table 15-9)
  ⟨0x3a0, 0x8, 1, [⟨28, 16, .ro, 0⟩, ⟨12, 0, .ro, 0⟩]⟩,
  -- RP.CTRL (15 R371-R388, Table 15-9)
  ⟨0x3c0, 0x8, 1, [⟨29, 24, .rw, 0⟩, ⟨23, 18, .rw, 0⟩, ⟨17, 17, .rw, 0⟩, ⟨15, 8, .rws, 0x10⟩, ⟨7, 0, .rws, 0x30⟩]⟩,
  -- RP.CNT (15 R371-R388, Table 15-9)
  ⟨0x3c8, 0x8, 1, [⟨31, 16, .rw, 0⟩, ⟨15, 0, .rw, 0⟩]⟩,
  -- STRM.CTRL (07 R204)
  ⟨0x400, 0x100, 2, [⟨8, 8, .rw, 0⟩, ⟨3, 3, .wo, 0⟩, ⟨2, 2, .wo, 0⟩, ⟨1, 1, .wo, 0⟩, ⟨0, 0, .wo, 0⟩]⟩,
  -- STRM.STATUS (07 R199)
  ⟨0x408, 0x100, 2, [⟨23, 21, .ro, 0⟩, ⟨20, 20, .w1c, 0⟩, ⟨19, 19, .ro, 0⟩, ⟨18, 18, .ro, 0⟩, ⟨15, 8, .ro, 0⟩,
    ⟨2, 0, .ro, 0⟩]⟩,
  -- STRM.ENTRY (07 R204)
  ⟨0x410, 0x100, 2, [⟨16, 4, .rw, 0⟩]⟩,
  -- HALT.W0 (09 R257)
  ⟨0x800, 0x40, 2, [⟨63, 56, .ro, 0⟩, ⟨55, 55, .ro, 0⟩, ⟨54, 54, .ro, 0⟩, ⟨53, 53, .ro, 0⟩, ⟨52, 52, .ro, 0⟩,
    ⟨51, 51, .ro, 0⟩, ⟨50, 48, .ro, 0⟩, ⟨47, 32, .ro, 0⟩, ⟨16, 0, .ro, 0⟩]⟩,
  -- HALT.W1 (09 R257)
  ⟨0x808, 0x40, 2, [⟨63, 0, .ro, 0⟩]⟩
]

def regMap2 : List RegRow := [
  -- HALT.W2 (09 R257)
  ⟨0x810, 0x40, 2, [⟨63, 48, .ro, 0⟩, ⟨47, 0, .ro, 0⟩]⟩,
  -- HALT.W3 (09 R257)
  ⟨0x818, 0x40, 2, [⟨63, 0, .ro, 0⟩]⟩,
  -- FLT.W0 (09 R258)
  ⟨0x900, 0x20, 16, [⟨63, 56, .ro, 0⟩, ⟨55, 52, .ro, 0⟩, ⟨51, 51, .ro, 0⟩, ⟨50, 50, .ro, 0⟩, ⟨47, 32, .ro, 0⟩]⟩,
  -- FLT.W1 (09 R258)
  ⟨0x908, 0x20, 16, [⟨63, 0, .ro, 0⟩]⟩,
  -- FLT.W2 (09 R258)
  ⟨0x910, 0x20, 16, [⟨63, 0, .ro, 0⟩]⟩,
  -- FLT.CTRL (09 R258)
  ⟨0xb00, 0x8, 1, [⟨31, 16, .ro, 0⟩, ⟨12, 8, .rw, 0⟩, ⟨4, 0, .ro, 0⟩]⟩,
  -- MER.STATUS (10 R265 R270)
  ⟨0x1000, 0x8, 1, [⟨6, 6, .ro, 0⟩, ⟨5, 5, .w1c, 0⟩, ⟨4, 4, .w1c, 0⟩, ⟨1, 0, .ro, 0⟩]⟩,
  -- MER.OFFSET (10 R262)
  ⟨0x1010, 0x8, 1, [⟨15, 0, .rws, 0⟩]⟩,
  -- MER.LASTERR (10 R266)
  ⟨0x1018, 0x8, 1, [⟨31, 0, .ro, 0⟩]⟩,
  -- MER.CNT (10 R266)
  ⟨0x1020, 0x8, 1, [⟨47, 32, .rw, 0⟩, ⟨31, 16, .rw, 0⟩, ⟨15, 0, .rw, 0⟩]⟩,
  -- MER.SLOTn.TARGET (10 R270)
  ⟨0x1100, 0x20, 16, [⟨63, 0, .rw, 0⟩]⟩,
  -- MER.SLOTn.CTRL (10 R270)
  ⟨0x1108, 0x20, 16, [⟨31, 16, .rw, 0⟩, ⟨12, 12, .rw, 0⟩, ⟨11, 11, .rw, 0⟩, ⟨10, 10, .rw, 0⟩, ⟨9, 7, .rw, 0⟩,
    ⟨3, 3, .ro, 0⟩, ⟨2, 2, .ro, 0⟩, ⟨1, 1, .ro, 0⟩, ⟨0, 0, .rw, 0⟩]⟩,
  -- CSU.SHADOWn (11 R279 R301)
  ⟨0x1400, 0x8, 2, [⟨44, 32, .rw, 0⟩, ⟨23, 12, .rw, 0⟩]⟩,
  -- CSU.CTRL (11 R301)
  ⟨0x1410, 0x8, 1, [⟨47, 32, .rw, 0⟩, ⟨31, 16, .rw, 0⟩, ⟨15, 0, .rw, 0⟩]⟩,
  -- CSU.STATUS (11 R301)
  ⟨0x1418, 0x8, 1, [⟨11, 11, .w1c, 0⟩, ⟨10, 10, .w1c, 0⟩, ⟨9, 9, .ro, 0⟩, ⟨6, 4, .ro, 0⟩, ⟨2, 0, .ro, 0⟩]⟩,
  -- CSU.LASTABORTn (11 R297)
  ⟨0x1420, 0x8, 2, [⟨63, 63, .ro, 0⟩, ⟨47, 32, .ro, 0⟩, ⟨23, 8, .ro, 0⟩, ⟨7, 0, .ro, 0⟩]⟩,
  -- CSU.LOGUSEn (11 R301)
  ⟨0x1430, 0x8, 2, [⟨15, 0, .ro, 0⟩]⟩,
  -- CSU.CONFLICTS (11 R284 R293)
  ⟨0x1440, 0x8, 1, [⟨31, 16, .rw, 0⟩, ⟨15, 0, .rw, 0⟩]⟩,
  -- CSU.NEXTID (11 R278)
  ⟨0x1448, 0x8, 1, [⟨15, 0, .ro, 0⟩]⟩,
  -- CSU.VGn.W0 (11 R290)
  ⟨0x1500, 0x10, 16, [⟨63, 63, .rw, 0⟩, ⟨62, 62, .rw, 0⟩, ⟨61, 61, .rw, 0⟩, ⟨59, 53, .rw, 0⟩, ⟨52, 47, .rw, 0⟩,
    ⟨46, 40, .rw, 0⟩]⟩
]

def regMap3 : List RegRow := [
  -- CSU.VGn.W1 (11 R290)
  ⟨0x1508, 0x10, 16, [⟨35, 20, .rw, 0⟩, ⟨19, 18, .rw, 0⟩, ⟨17, 12, .rw, 0⟩, ⟨3, 0, .rw, 0⟩]⟩,
  -- CSU.VCHILDi (11 R290)
  ⟨0x1600, 0x8, 64, [⟨36, 36, .rw, 0⟩, ⟨35, 20, .rw, 0⟩, ⟨19, 18, .rw, 0⟩, ⟨17, 12, .rw, 0⟩, ⟨3, 0, .rw, 0⟩]⟩,
  -- CKE.CTRL (13 R334-R349, Table 13-3)
  ⟨0x1800, 0x8, 1, [⟨8, 8, .rw, 0⟩, ⟨2, 2, .rw, 0⟩, ⟨1, 1, .wo, 0⟩, ⟨0, 0, .wo, 0⟩]⟩,
  -- CKE.STATUS (13 R334-R349, Table 13-3)
  ⟨0x1808, 0x8, 1, [⟨39, 32, .ro, 0⟩, ⟨31, 24, .ro, 0⟩, ⟨23, 16, .rw, 0⟩, ⟨11, 11, .ro, 0⟩, ⟨10, 10, .ro, 0⟩,
    ⟨9, 9, .w1c, 0⟩, ⟨8, 8, .w1c, 0⟩, ⟨7, 7, .w1c, 0⟩, ⟨6, 5, .ro, 0⟩, ⟨2, 0, .ro, 0⟩]⟩,
  -- CKE.PARTNER (13 R334-R349, Table 13-3)
  ⟨0x1810, 0x8, 1, [⟨63, 63, .rw, 0⟩, ⟨23, 8, .rw, 0⟩, ⟨7, 0, .rw, 0⟩]⟩,
  -- CKE.PSIZE (13 R334-R349, Table 13-3)
  ⟨0x1820, 0x8, 1, [⟨23, 0, .rw, 0⟩]⟩,
  -- CKE.EPOCH (13 R334-R349, Table 13-3)
  ⟨0x1830, 0x8, 1, [⟨31, 0, .ro, 0⟩]⟩,
  -- CKE.STOPLEN (13 R334-R349, Table 13-3)
  ⟨0x1838, 0x8, 1, [⟨15, 0, .rw, 0⟩]⟩,
  -- CKE.RSRC (13 R334-R349, Table 13-3)
  ⟨0x1840, 0x8, 1, [⟨55, 24, .rw, 0⟩, ⟨23, 0, .rw, 0⟩]⟩,
  -- CKE.RSCOPE (13 R334-R349, Table 13-3)
  ⟨0x1850, 0x8, 1, [⟨2, 2, .rw, 0⟩, ⟨1, 1, .rw, 0⟩, ⟨0, 0, .rw, 0⟩]⟩,
  -- CKE.RRATE (13 R334-R349, Table 13-3)
  ⟨0x1858, 0x8, 1, [⟨15, 0, .rw, 0⟩]⟩,
  -- CKE.ADDR(PDEST,LBASE,RBASE) (13 R336 R347)
  ⟨0x1818, 0x10, 2, [⟨47, 7, .rw, 0⟩]⟩,
  -- CKE.ADDR(PDEST,LBASE,RBASE) (13 R336 R347)
  ⟨0x1848, 0x8, 1, [⟨47, 7, .rw, 0⟩]⟩,
  -- CKE.RNGn (13 R350)
  ⟨0x1860, 0x8, 4, [⟨63, 48, .rw, 0⟩, ⟨23, 3, .rw, 0⟩]⟩,
  -- CKE.VALUE(NEED,STOPEST,STALLS) (13 R337 R340 R347)
  ⟨0x1880, 0x8, 3, [⟨47, 0, .ro, 0⟩]⟩,
  -- CKE.REGn.W0 (13 R333)
  ⟨0x1a00, 0x18, 64, [⟨63, 63, .rw, 0⟩, ⟨62, 62, .rw, 0⟩, ⟨61, 61, .rw, 0⟩, ⟨60, 60, .rw, 0⟩, ⟨59, 54, .rw, 0⟩,
    ⟨47, 12, .rw, 0⟩]⟩,
  -- CKE.REGn.W1 (13 R333)
  ⟨0x1a08, 0x18, 64, [⟨63, 28, .rw, 0⟩, ⟨23, 0, .rw, 0⟩]⟩,
  -- CKE.REGn.W2 (13 R343)
  ⟨0x1a10, 0x18, 64, [⟨47, 0, .ro, 0⟩]⟩,
  -- QCTX.SEL (17 R430)
  ⟨0x2000, 0x8, 1, [⟨11, 0, .rw, 0⟩]⟩,
  -- QSY.STATUS (17 R430)
  ⟨0x2040, 0x8, 1, [⟨2, 2, .w1c, 0⟩, ⟨1, 1, .w1c, 0⟩, ⟨0, 0, .w1c, 0⟩]⟩
]

def regMap4 : List RegRow := [
  -- QSY.CAP (17 R430)
  ⟨0x2048, 0x8, 1, [⟨15, 0, .ro, 0x8000⟩]⟩,
  -- QSY.WAITLIM (17 R430)
  ⟨0x2050, 0x8, 1, [⟨31, 0, .rw, 0⟩]⟩,
  -- QSY.FABREJ (17 R430)
  ⟨0x2060, 0x8, 1, [⟨15, 0, .rw, 0⟩]⟩,
  -- QSY.MINSUM (17 R430)
  ⟨0x2068, 0x8, 1, [⟨15, 0, .ro, 0⟩]⟩,
  -- QSY.WAITREC (17 R430)
  ⟨0x2058, 0x8, 1, [⟨31, 16, .ro, 0⟩, ⟨15, 0, .ro, 0⟩]⟩,
  -- POST.SLOTn (07 R192)
  ⟨0x4000, 0x8, 64, [⟨63, 63, .ro, 0⟩, ⟨62, 62, .ro, 0⟩, ⟨47, 32, .ro, 0⟩, ⟨31, 0, .ro, 0⟩]⟩,
  -- POST.ACK (07 R194)
  ⟨0x4200, 0x8, 1, [⟨21, 16, .wo, 0⟩, ⟨15, 0, .wo, 0⟩]⟩,
  -- POST.BADACK (07 R194)
  ⟨0x4208, 0x8, 1, [⟨15, 0, .rw, 0⟩]⟩,
  -- REP.CTRL (14 R357)
  ⟨0x5000, 0x8, 1, [⟨0, 0, .rws, 1⟩]⟩,
  -- REP.THR (14 R357)
  ⟨0x5008, 0x8, 1, [⟨31, 16, .rws, 4⟩, ⟨15, 0, .rws, 4⟩]⟩,
  -- REP.STATUS (14 R362)
  ⟨0x5010, 0x8, 1, [⟨39, 37, .ro, 4⟩, ⟨36, 34, .ro, 4⟩, ⟨33, 30, .ro, 8⟩, ⟨29, 28, .ro, 2⟩, ⟨27, 27, .ro, 1⟩,
    ⟨26, 24, .ro, 4⟩, ⟨23, 18, .ro, 0x20⟩, ⟨17, 13, .ro, 0x10⟩, ⟨12, 8, .ro, 0x10⟩, ⟨3, 3, .w1c, 0⟩,
    ⟨2, 2, .ro, 0⟩, ⟨1, 1, .ro, 0⟩, ⟨0, 0, .ro, 0⟩]⟩,
  -- REP.COLFAILi (14 R359)
  ⟨0x5020, 0x8, 2, [⟨63, 0, .rws, 0⟩]⟩,
  -- REP.COLFAIL2 (14 R359)
  ⟨0x5030, 0x8, 1, [⟨3, 0, .rws, 0⟩]⟩,
  -- REP.ROWFAILi (14 R359)
  ⟨0x5038, 0x8, 2, [⟨63, 0, .rws, 0⟩]⟩,
  -- REP.ROWFAIL2 (14 R359)
  ⟨0x5048, 0x8, 1, [⟨3, 0, .rws, 0⟩]⟩,
  -- REP.LANEFAILi (14 R359)
  ⟨0x5050, 0x8, 4, [⟨63, 0, .rws, 0⟩]⟩,
  -- REP.LANEFAIL4 (14 R359)
  ⟨0x5070, 0x8, 1, [⟨7, 0, .rws, 0⟩]⟩,
  -- REP.BANKFAIL (14 R359)
  ⟨0x5078, 0x8, 1, [⟨33, 0, .rws, 0⟩]⟩,
  -- REP.CHFAIL (14 R359)
  ⟨0x5080, 0x8, 1, [⟨16, 0, .rws, 0⟩]⟩,
  -- REP.TRKFAIL0 (14 R359)
  ⟨0x5088, 0x8, 1, [⟨63, 0, .rws, 0⟩]⟩
]

def regMap5 : List RegRow := [
  -- REP.TRKFAIL1 (14 R359)
  ⟨0x5090, 0x8, 1, [⟨3, 0, .rws, 0⟩]⟩,
  -- REP.CARFAILi (14 R359)
  ⟨0x5100, 0x8, 16, [⟨15, 15, .rws, 0⟩, ⟨10, 0, .rws, 0⟩, ⟨31, 31, .rws, 0⟩, ⟨26, 16, .rws, 0⟩, ⟨47, 47, .rws, 0⟩,
    ⟨42, 32, .rws, 0⟩, ⟨63, 63, .rws, 0⟩, ⟨58, 48, .rws, 0⟩]⟩,
  -- REP.IMEMFAILi (14 R359)
  ⟨0x5180, 0x8, 16, [⟨15, 15, .rws, 0⟩, ⟨13, 0, .rws, 0⟩, ⟨31, 31, .rws, 0⟩, ⟨29, 16, .rws, 0⟩, ⟨47, 47, .rws, 0⟩,
    ⟨45, 32, .rws, 0⟩, ⟨63, 63, .rws, 0⟩, ⟨61, 48, .rws, 0⟩]⟩,
  -- REP.WSEL (14 R357)
  ⟨0x5200, 0x8, 1, [⟨9, 0, .rw, 0⟩]⟩,
  -- BIST.CTRL (14 R366)
  ⟨0x5800, 0x8, 1, [⟨8, 8, .wo, 0⟩, ⟨5, 0, .rw, 0⟩]⟩,
  -- BIST.STATUS (14 R366)
  ⟨0x5808, 0x8, 1, [⟨23, 16, .ro, 0⟩, ⟨15, 8, .ro, 0⟩, ⟨4, 4, .w1c, 0⟩, ⟨3, 3, .ro, 0⟩, ⟨2, 2, .ro, 0⟩,
    ⟨1, 1, .w1c, 0⟩, ⟨0, 0, .ro, 0⟩]⟩,
  -- BIST.RESULT (14 R366)
  ⟨0x5810, 0x8, 1, [⟨47, 32, .ro, 0⟩, ⟨31, 0, .ro, 0⟩]⟩,
  -- CAL.CTRL (14 R364)
  ⟨0x5880, 0x8, 1, [⟨47, 32, .rw, 0x10⟩, ⟨31, 16, .rw, 0x28⟩, ⟨15, 8, .rw, 2⟩, ⟨3, 0, .rw, 0⟩]⟩,
  -- CAL.SECTn (14 R364)
  ⟨0x5890, 0x8, 4, [⟨63, 48, .rw, 0⟩, ⟨47, 32, .rw, 0⟩, ⟨6, 4, .ro, 0⟩, ⟨3, 0, .rws, 0xf⟩]⟩,
  -- PWR.CFG (16 R420)
  ⟨0x6000, 0x8, 1, [⟨23, 20, .rws, 0xe⟩, ⟨19, 14, .rws, 0x1e⟩, ⟨11, 8, .rws, 0xf⟩]⟩,
  -- PWR.STATUS (16 R420)
  ⟨0x6008, 0x8, 1, [⟨47, 32, .rw, 0⟩, ⟨23, 18, .ro, 0x3f⟩, ⟨15, 12, .ro, 0⟩, ⟨11, 8, .ro, 0⟩, ⟨2, 2, .ro, 0⟩,
    ⟨1, 1, .w1c, 0⟩, ⟨0, 0, .ro, 0⟩]⟩,
  -- SECT.n (16 R406 R407 R420)
  ⟨0x6040, 0x8, 4, [⟨63, 52, .ro, 0⟩, ⟨47, 36, .ro, 0⟩, ⟨31, 24, .ro, 0⟩, ⟨15, 0, .rw, 0⟩]⟩,
  -- LC.CTRL (16 R415)
  ⟨0x7000, 0x8, 1, [⟨15, 8, .wo, 0⟩, ⟨2, 0, .wo, 0⟩]⟩,
  -- LC.STATUS (16 R415)
  ⟨0x7008, 0x8, 1, [⟨15, 8, .ro, 0⟩, ⟨4, 4, .w1c, 0⟩, ⟨3, 3, .w1c, 0⟩, ⟨2, 2, .ro, 0⟩, ⟨1, 1, .w1c, 0⟩,
    ⟨0, 0, .w1c, 0⟩]⟩,
  -- LC.UNLOCKHASHi (16 R417)
  ⟨0x7010, 0x8, 6, [⟨63, 0, .rwl, 0⟩]⟩,
  -- DBG.CTRL (09 R255)
  ⟨0x8000, 0x40, 2, [⟨2, 2, .rw, 0⟩, ⟨1, 1, .rw, 0⟩, ⟨0, 0, .rw, 0⟩]⟩,
  -- DBG.BRKCNT (09 R255)
  ⟨0x8008, 0x40, 2, [⟨63, 0, .rw, 0⟩]⟩,
  -- DBG.BRKTAG (09 R255)
  ⟨0x8010, 0x40, 2, [⟨31, 16, .rw, 0⟩, ⟨15, 0, .rw, 0⟩]⟩,
  -- DBG.MODE (09 R256)
  ⟨0x8080, 0x8, 1, [⟨1, 0, .rw, 0⟩]⟩,
  -- DBG.TRDROP (09 R256)
  ⟨0x8088, 0x8, 1, [⟨15, 0, .rw, 0⟩]⟩
]

def regMap6 : List RegRow := [
  -- PERF.CTRL (17 R432)
  ⟨0x9000, 0x8, 1, [⟨1, 1, .rw, 0⟩, ⟨0, 0, .wo, 0⟩]⟩,
  -- PERF.OVF (17 R432)
  ⟨0x9008, 0x8, 1, [⟨15, 0, .w1c, 0⟩]⟩,
  -- PERF.CNTn (17 R432)
  ⟨0x9100, 0x8, 16, [⟨63, 48, .ro, 0⟩, ⟨47, 0, .ro, 0⟩]⟩,
  -- NUMC.i (17 R433)
  ⟨0x9800, 0x8, 6, [⟨63, 63, .w1c, 0⟩, ⟨47, 0, .ro, 0⟩]⟩,
  -- TEST.STATUS (17 R434)
  ⟨0xf000, 0x8, 1, [⟨31, 16, .rw, 0⟩, ⟨5, 0, .ro, 0⟩]⟩,
  -- TEST.SCRATCH (17 R434)
  ⟨0xf008, 0x8, 1, [⟨63, 0, .rw, 0⟩]⟩
]

/-- Every register of the window (17 R423). -/
def regMap : List RegRow := regMap0 ++ regMap1 ++ regMap2 ++ regMap3 ++ regMap4 ++ regMap5 ++ regMap6

/-- The row of a word offset. -/
def regRow (off : Nat) : Option RegRow :=
  regMap.find? fun r => decide (r.base ≤ off) && decide ((off - r.base) % r.stride = 0) && decide ((off - r.base) / r.stride < r.count)

/-- The fields of the register at an offset; none where no register is defined (00 R15). -/
def regFields (off : Nat) : List Field :=
  match regRow off with
  | some r => r.fields
  | none => []

/-- A word made of the reset values of some fields. -/
def resetOf (fs : List Field) : W64 := fs.foldl (fun w f => putFld w f.hi f.lo f.rst) 0

end Sys2Proof.Machine
end

