-- ==== Sys2Proof/Machine/State.lean ====
section
/-!
DEFINITION. The state of the core as plain data, and its value right after reset.
Every register of the CSR window that is not a view of a structured part stands in `csr`, under its offset.
-/

namespace Sys2Proof.Machine

/-- Why the model stops with a fault: never, the spec gives every command an effect. -/
inductive Fault where
deriving DecidableEq, Repr

/-- Why the model refuses a command. -/
inductive Refusal where
  /-- Raised by `exec` on a command whose meaning is not written; safe. -/
  | notModelled (mnemonic : String)
deriving DecidableEq, Repr

/-! ### Streams (07) -/

/-- Stream states (07 Table 7-9). -/
inductive StState where
  | idle | running | stopping | stopped | halted | resetting
deriving DecidableEq, Repr

/-- One active loop level (07 R182): the first long word of the body, END, LC, the steps (A register, stride). -/
structure LoopLvl where
  start : Nat
  fin : Nat
  lc : W32
  steps : List (Nat × Int)
deriving DecidableEq, Repr

/-- A register write: kind 0 N, 1 A, 2 P (08 R217), index, value. -/
structure RegWr where
  kind : Nat
  idx : Nat
  val : Nat
deriving DecidableEq, Repr

/-- What a waiting class-W command waits for (08 Table 8-8); `stores`: the stream's own writes that a push follows (01 R18). -/
inductive WaitKind where
  | pop (ctx : Nat)
  | push (ctx : Nat)
  | post (slot : Nat) (value : W32) (ev : Bool)
  | due (target : W64)
  | barrier (bar gen : Nat)
  | cbegin (wr : Option Nat)
  | outcome (pd rn : Option Nat)
  | merges (slot : Nat) (val : W64)
  | stores
deriving DecidableEq, Repr

/-- A waiting long word: what its class-W command waits for, the command itself, its address and length in bytes,
the control slot still to act, the register writes held back by 07 R170, and the old values of registers that other commands
of its word have still to write, which the control slot reads (R170). -/
structure Wait where
  kind : WaitKind
  cmd : Slot
  addr : Nat
  len : Nat
  ctl : Option Slot
  late : List RegWr
  snap : List RegWr
deriving DecidableEq, Repr

/-- A halt that waits for the end of an open chain, or that a check has raised (09 Table 9-7); `addr` holds the long word's
address in [16:0] and its bank in [17]. Log entry 60, DEDUCED. -/
structure HaltRec where
  reason : Nat
  deferred : Bool
  partner : Bool
  tv : Bool
  slot : Nat
  tag : W16
  addr : Nat
  imm : Nat
  detail : Nat
deriving DecidableEq, Repr

/-- A class-M access in flight (07 R176): the addresses of its bytes, in order, and the bytes of a store. The kind of a
load: 0 N, 1 A, 3 a key register, 4 an orrery schedule, 5 a register that a later slot of its word writes too. `lw`: the
address of its long word, with the bank in [17]. `serial` places it among the VE's commands (05 R110). `add`: strides that
loops add to its register behind it (07 R184). -/
structure ScalAcc where
  isLoad : Bool
  kind : Nat
  idx : Nat
  addrs : List Nat
  bytes : List Byte
  cs : Option Nat
  tag : W16
  slot : Nat
  lw : Nat
  serial : Nat
  add : W48
deriving DecidableEq, Repr

/-- One stream. -/
structure Stream where
  a : Tbl W48
  n : Tbl W32
  p : Tbl Bool
  loops : List LoopLvl
  cc : W64
  mhi : Option W32
  st : StState
  pc : BitVec 17
  fresh : Bool
  haltReq : Bool
  coReq : Bool
  swPend : Bool
  wait : Option Wait
  waited : Nat
  waitTold : Bool
  stall : Option (Nat × Nat)
  chain : Nat
  pendHalt : Option HaltRec
  scal : List ScalAcc
deriving DecidableEq, Repr

/-! ### Vector engine (05) -/

/-- A key register (12 R323). -/
structure Key where
  seed : W64
  stream : W32
  step : W32
  seq : Bool
  ctr : W32
deriving DecidableEq, Repr

/-- Running state of a reduction (05 R129, R130). -/
structure RedAcc where
  nf : Nat
  led : Ledger
  fsum : Num
  best : Option Num
  sawNan : Bool
  bestI : Nat
  count : Nat
  inx : Bool
  out : Nat
deriving DecidableEq, Repr

/-- What a VE command carries from beat to beat: observations, counts, a pending tile, the reduction, and the row and column
vectors that it has read, by source, with the elements that are uncorrectable (05 R126). -/
structure VeAcc where
  amax : W32
  cnts : Cnts
  elems : Nat
  count : Nat
  hdrs : Nat
  tile : List (Option Num)
  red : RedAcc
  vecs : Tbl (List (Nat × Bool))
deriving DecidableEq, Repr

/-- An issued VE, RED, UPDF or RNGK GEN command with what it latched (05 R106, 04 R83, R90, 07 R175). -/
structure VeMem where
  c : Slot
  a : Tbl W48
  n : Tbl W32
  scale : W32
  trk : Option Nat
  lw : Nat
  lwSlot : Nat
  acc : VeAcc
deriving DecidableEq, Repr

/-- A command or chain in the VE's issue queue. `pend` names the registers it will write; `wr` the byte ranges of the
scratchpad that it may write; `serial` its place in order. -/
structure VeWork where
  mems : List VeMem
  vlen : Nat
  beat : Nat
  key : Key
  cs : Option Nat
  pend : List (Nat × Nat)
  wr : List (Int × Int)
  serial : Nat
deriving DecidableEq, Repr

/-- A RED result on its way to its registers (05 R131): the writes, whether a ticket follows, the consist, the tag. -/
structure RedOut where
  wr : List RegWr
  ct : Bool
  cs : Option Nat
  tag : W16
deriving DecidableEq, Repr

/-- VLEN, the masks, the couplers, the issued works, the results on their way. `serial` numbers the works. -/
structure Vec where
  vlen : BitVec 21
  m : Tbl (BitVec 1024)
  k : Tbl (BitVec 8192)
  ve : List VeWork
  redq : List RedOut
  serial : Nat
deriving DecidableEq, Repr

/-! ### Scratchpad (06 R134 to R140) -/

/-- Condition of an ECC word. -/
inductive Ecc where
  | good | single | bad
deriving DecidableEq, Repr

/-- The bytes, the ECC words' conditions, the words whose correction waits for write-back, and the logical banks that the
applied map leaves without a physical bank (06 R140). -/
structure Spm where
  mem : List Host.Cell
  ecc : Tbl Ecc
  wb : List Nat
  gone : List Nat
deriving DecidableEq, Repr

/-! ### Queues (06 R141 to R156) -/

/-- A car of the queue RAM: its data, its POISON bit, the condition of its ECC words (06 R141). -/
structure Car where
  data : BitVec 512
  poison : Bool
  ecc : Ecc
deriving DecidableEq, Repr

/-- An entry: its ticket, its cars, the remote sender to return credit to, the consist it was pushed under. `sent` marks a
FAB_OUT entry that has left, with the serial number of its message. -/
structure Entry where
  tkt : Nat
  cars : List Car
  src : Option (Nat × Nat)
  cs : Option Nat
  sent : Option Nat
deriving DecidableEq, Repr

/-- Where a consumer wants its entry: nowhere (QWAIT), an N register, the bytes of a form, the channel's row. -/
inductive PopDst where
  | drop
  | reg (n : Nat)
  | mem (addrs : List Nat)
  | chan
deriving DecidableEq, Repr

/-- A consumer command at a context (06 R151). Agents 0 and 1 are the streams, 2 + n is DMA channel n. -/
structure Cons where
  agent : Nat
  dst : PopDst
  expect : Option Nat
  lenReg : Option Nat
  cs : Option Nat
  tag : W16
  lw : Nat
  slot : Nat
deriving DecidableEq, Repr

/-- A producer that waits for quota (06 R147, 08 R216). Agents as in `Cons`; 32 is an engine, 40 + n the completion records of
channel n (06 R165). -/
structure Prod where
  agent : Nat
  tkt : Option Nat
  entry : Entry
deriving DecidableEq, Repr

/-- A queue context (06 Table 6-5). -/
structure Ctx where
  w0 : W64
  w1 : W64
  credit : Nat
  nt : Nat
  et : Nat
  ordflt : Bool
  poison : Bool
  reject : Bool
  badTkt : Nat
  entries : List Entry
  cons : List Cons
  prod : List Prod
deriving DecidableEq, Repr

/-- A QMSG entry in assembly (15 R382): the sender, its context, the ticket, the cars by flit, acceptance, target. -/
structure Asm where
  splace : Nat
  sctx : Nat
  tkt : Nat
  rctx : Nat
  ncar : Nat
  ok : Bool
  flits : List (Nat × QMsg)
deriving DecidableEq, Repr

/-! ### Barriers (06 R158 to R162) -/

/-- A local entry: its stream, its generation, the fabric serial it must wait for, whether it has counted. -/
structure BarEnt where
  st : Sid
  gen : Nat
  fence : Nat
  counted : Bool
deriving DecidableEq, Repr

structure BarCtx where
  w0 : W64
  w1 : W64
  o : Nat
  ga : Nat
  gx : Nat
  lastA : Option Nat
  lastX : Option Nat
  ents : List BarEnt
  arrs : List Nat
  sent : Bool
deriving DecidableEq, Repr

structure Bars where
  ctx : Tbl BarCtx
  child : Tbl W64
deriving DecidableEq, Repr

/-! ### DMA (06 R163 to R167) and the fabric port (15 R372 to R380) -/

/-- A descriptor in flight in a DMA channel: its ring ticket, the consist it was pushed under, the next piece to issue,
how many responses it awaits, the bytes moved, its status. `ended`: it issues nothing more; `waiting`: it waits at a queue
context; `held`: it holds writes for the outcome; `loaded`: its IMEM load is complete; `bad`: units with a staging-buffer
parity error; `row`: collected bytes; `rowIn`: a row of a queue source is collected; `park`: data that waits for a Method R
block. -/
structure Chan where
  desc : List Byte
  tkt : Nat
  cs : Option Nat
  unit : Nat
  left : Nat
  moved : Nat
  status : Nat
  ended : Bool
  waiting : Bool
  held : Bool
  loaded : Bool
  bad : List Nat
  row : List (Nat × Byte)
  rowIn : Bool
  rowBad : Bool
  park : List (Nat × Unit128)
deriving DecidableEq, Repr

/-- A fabric request: its tag, its address, the channel and ring ticket of its descriptor, the piece it serves, its serial
number at issue; `dead` once timed out (15 R380); `sent` the data of a write. -/
structure Req where
  tag : Nat
  addr : Nat
  ch : Nat
  tkt : Nat
  unit : Nat
  serial : Nat
  dead : Bool
  sent : Option Unit128
deriving DecidableEq, Repr

/-- The link layer of one channel (15 R373 to R376). Outbound: the next SEQ, the credits, flits to send, flits sent and
not acknowledged (SEQ, flit, how often sent). Inbound: the expected SEQ, its errors in a row, whether flits are discarded
until it arrives, the buffer entries freed since the port came up, the ackseq of the last ack and of the last nak. -/
structure Link where
  seq : Nat
  credits : Nat
  sendq : List Nat
  replay : List (Nat × Nat × Nat)
  errs : Nat
  nakd : Bool
  freed : Nat
  ack : Option Nat
  nak : Option Nat
deriving DecidableEq, Repr

/-- The fabric port: the last serial number of a request, requests that wait to issue, outstanding reads and writes,
entries in assembly, flits that wait in the tw buffer for an assembly (15 R382), and who had the last request slot: channel n, or
16 + n for FAB_OUT context n (06 R165). -/
structure Fab where
  serial : Nat
  todo : List Req
  reads : List Req
  writes : List Req
  links : Tbl Link
  asm : List Asm
  twbuf : List QMsg
  rr : Nat
deriving DecidableEq, Repr

/-! ### IMEM (09) -/

structure Imem where
  rows : Tbl (BitVec 160)
  ecc : Tbl Ecc
  wb : List Nat
deriving DecidableEq, Repr

/-! ### Meridian (10) -/

inductive MerState where
  | unlocked | locked | holdover
deriving DecidableEq, Repr

/-- The local count in units of 2^-32 mt, its disciplined increment per root cycle, the trim still to apply, the slew still to
run (10 R264), and what the lock loop measures the rate from: the estimate at an update, in 1/16 mt, and the root cycles since, the
same of the last update, the least and the greatest increment that the estimates between them allow, and whether it has measured
nothing before (R263, R267). -/
structure Mer where
  st : MerState
  count : BitVec 96
  inc : Nat
  trim : Int
  slewing : Bool
  slew : Nat
  base : Option Nat
  cyc : Nat
  last : Option Nat
  since : Nat
  lo : Nat
  hi : Nat
  young : Bool
deriving DecidableEq, Repr

/-- No increment is ruled out: no bound is as high. -/
def incTop : Nat := 2 ^ 64

/-- The measurement of the rate begins again, from an estimate or from none. -/
def Mer.rebase (m : Mer) (est : Option Nat) : Mer :=
  { m with base := est, cyc := 0, last := est, since := 0, lo := 0, hi := incTop }

/-! ### Consist unit (11) -/

inductive CsState where
  | idle | opened | doomed | deciding | rollback
deriving DecidableEq, Repr

/-- A held external write (11 R275): a fabric write of a channel, or an entry for a FAB_OUT context. -/
inductive Held where
  | wr (r : Req)
  | entry (ctx : Nat) (e : Entry)
deriving DecidableEq, Repr

/-- A write that waits for the outcome (11 R285). -/
structure WaitWr where
  addr : Nat
  bytes : List Byte
  poison : Bool
deriving DecidableEq, Repr

/-- A consist (11 R275 to R297). `gone`: it was rolled back before it voted (Table 11-3); `voted`: a CVOTE ends it;
`ready`: its local vote is entered; `waiting`: the owner's writes that wait for the outcome; `dirBad`: a flipped bit of its
write-set directory, which the next lookup finds (14 Table 14-1); `left`: log words not yet restored (Table 11-8); `beat`: a beat
is under way, and `met`: the lowest reason met in it, with its detail (Table 11-8); `due`: the state that follows a rollback which
waits for the end of a checkpoint stop (13 R352). -/
structure Csu where
  st : CsState
  id : Nat
  code : Nat
  detail : Nat
  log : List Nat
  held : List Held
  voted : Bool
  ready : Bool
  vg : Nat
  tick : W64
  step : W32
  deadline : Option W64
  ct : Bool
  tag : W16
  lw : Nat
  slot : Nat
  gone : Bool
  waiting : List WaitWr
  dirBad : Bool
  left : Nat
  beat : Bool
  met : Option (Nat × Nat)
  due : Option CsState
deriving DecidableEq, Repr

/-- A vote round at this core (11 R293). -/
structure Round where
  vg : Nat
  tick : W64
  arrivals : Nat
  votes : Nat
  ok : Bool
  stepErr : Bool
  reason : Nat
  step : Option W32
  steps : List W32
  sent : Bool
  decided : Option (Bool × Nat)
deriving DecidableEq, Repr

/-! ### Trackers (04) -/

/-- A tracker slot (04 Table 4-1). `bad`: a bit of it has flipped, which the next parity check finds (R99). -/
structure Trk where
  scfg : W64
  cur : W32
  next : W32
  amax : W32
  alm : List W32
  has : Bool
  bound : Bool
  wide : Bool
  tripped : Bool
  perr : Bool
  bad : Bool
  unav : Bool
  cnt : List Nat
  sat : List Bool
  ep : List Nat
  clean : Nat
deriving DecidableEq, Repr

/-! ### Matrix array (03) -/

/-- A tile at the array's edge: its lane block and its K block, 32 lanes of 32 elements. -/
structure Tile where
  lane : Nat
  k : Nat
  elems : List (List OpElem)
deriving DecidableEq, Repr

/-- A turntable feed's descriptor as the TTF latched it (03 R73, 08 R222). `told`: its ticket is pushed. -/
structure Feed where
  c : Slot
  a : Tbl W48
  scale : W32
  trk : Option Nat
  cs : Option Nat
  lw : Nat
  tiles : List Tile
  epar : List Nat
  told : Bool
deriving DecidableEq, Repr

/-- An issued pass (03 R61, R67). The feeds move into it when it begins; `init` holds the initial values that still wait in
the row lanes for a cell's shadow ledger (03 R66), by the cell's number. -/
structure Pass where
  c : Slot
  k : Nat
  initAddr : Nat
  trk : Option Nat
  cs : Option Nat
  key : Key
  lw : Nat
  num : Nat
  west : Option Feed
  north : Option Feed
  init : Tbl Ledger
  done : Nat
  sampled : Bool
  qc : Nat
  qr : Nat
  calSect : Option Nat
deriving DecidableEq, Repr

/-- A finished-tile queue entry (03 Table 3-8). -/
structure FtqEntry where
  region : Nat
  pass : Nat
  sr : Nat
  sc : Nat
  fmt : Nat
  rowv : Nat
  colv : Nat
  inxr : Nat
  nf : Bool
  reserr : Bool
  omm : Bool
  epar : Bool
  last : Bool
  vals : List Nat
deriving DecidableEq, Repr

/-- The array: the feeds, the passes, the FTQ, the counters of R76, and each cell's live ledger, shadow ledger and drain
register (03 R59); cell (i, j) has number 128 i + j. -/
structure Arr where
  west : Tbl (Option Feed)
  north : Tbl (Option Feed)
  waiting : List Pass
  running : List Pass
  ftq : List FtqEntry
  passCnt : Nat
  qc : Nat
  qr : Nat
  live : Tbl Ledger
  shadow : Tbl Ledger
  drain : Tbl Ledger
deriving DecidableEq, Repr

/-! ### Orrery, checkpoint engine, repair, calibration, ring, pins, test port -/

/-- A schedule (12 Table 12-4). -/
structure Sched where
  record : List Byte
  loaded : Bool
  ctr : W32
deriving DecidableEq, Repr

/-- A record: its kind, region, byte offset and length within its section, whether it is the last one, its number, its place
in the half area (13 R344, R347). -/
structure CkRec where
  kind : Nat
  region : Nat
  off : Nat
  len : Nat
  last : Bool
  seq : Nat
  pos : Nat
deriving DecidableEq, Repr

/-- What the checkpoint engine reads from the fabric at present: a staged record, a record of a fabric region (with the Method R
block that it is), the trailer of a restore, the rest of its half area with the trailer's flags. -/
inductive CkeRead where
  | staged (pos len : Nat)
  | region (r : CkRec) (block : Option (Nat × Nat))
  | trailer
  | area (flags : Nat)
deriving DecidableEq, Repr

/-- A read in progress: its number, the 128-byte units it needs and those that have come, by their index. -/
structure CkeJob where
  what : CkeRead
  num : Nat
  want : Nat
  got : List (Nat × Unit128)
deriving DecidableEq, Repr

/-- The checkpoint engine (13). `keyed`: a key came since the last wipe; `latched` and `epoch`: the key and EPOCH of the running
checkpoint, with its tick and its flags; `sealed`: steps 2 and 3 of the stop are done; `recap`: a stream has halted since, and the section is to be sealed again; `late`: records of step 4 still to read;
`staged`: records of the staging area, by their offset in the partner's half and their size; `blocks`: Method R blocks (region,
block) not yet copied; `urgent`: those that a write waits on; `stalls`: the waiting writes counted in CKE.STALLS; `job`, `jobs`:
the read in progress and how many there were; `regions`: step 2 of a restore is done; `todo`: the entries with RV = 1 still to
restore, each with whether its writes are sent; `trailer`: the trailer is sent; `rngCheck`: the test of R350 is due. -/
structure Cke where
  key : Option (BitVec 256)
  keyed : Bool
  latched : BitVec 256
  ct : Bool
  tick : W64
  resumable : Bool
  poisoned : Bool
  epoch : Nat
  sealed : Bool
  recap : Bool
  late : List CkRec
  staged : List (Nat × Nat)
  blocks : List (Nat × Nat)
  urgent : List (Nat × Nat)
  stalls : List (Nat × Nat)
  job : Option CkeJob
  jobs : Nat
  regions : Bool
  todo : List (Nat × Bool)
  trailer : Bool
  dirty : Tbl Nat
  dlast : Tbl Nat
  rngCheck : Bool
deriving DecidableEq, Repr

/-- A wear count (14 R357): LAST where it names a unit, DIFF. -/
structure Wear where
  count : Nat
  last : Option Nat
  diff : Bool
deriving DecidableEq, Repr

/-- Applied maps: the physical units marked failed that each class's map reflects (14 R359). -/
structure Rep where
  applied : Tbl (List Nat)
  wear : Tbl Wear
deriving DecidableEq, Repr

/-- An open calibration window (14 R363): whether its drain and swap are over or skipped, its ticks, the sector on trial
(4: none), the pass count and the VE serial at its start, and whether a self-test isolated the sector during the trial. -/
structure Cal where
  isOpen : Bool
  swapped : Bool
  start : W64
  fin : W64
  sector : Nat
  passMark : Nat
  veMark : Nat
  tested : Bool
deriving DecidableEq, Repr

structure Ring where
  out : List (List W64)
  ev : List Nat
  tr : List (List W64)
deriving DecidableEq, Repr

/-- Levels at the ports, where the reset sequence stands (16 Table 16-2), the multiplier the generator runs with, the blocks
that a self-test found failed without a spare, by their test number (14 R368), the sectors whose droop detector trips, the
multiplier to go back to after self-test 0x01, the stretched cycles of the last 256 root cycles, each with its sector and its
age (16 R406), the ac for which DROOP still reads 1 after a trip (16 R413), and whether a token has matched in this ac (16 R421). -/
structure Pins where
  coldLow : Bool
  warmLow : Bool
  aclkLocked : Bool
  stopReady : Bool
  fpUp : Bool
  kpAck : Bool
  kpErr : Bool
  bypassClosed : Bool
  multUsed : Nat
  dead : List Nat
  tripping : List Nat
  multWas : Nat
  stretched : List (Nat × Nat)
  droopAc : Nat
  unlockAc : Bool
deriving DecidableEq, Repr

/-- Cells of the wrapper boundary register: one for each bit of the signals of 15 Table 15-2 but the clocks, resets, supplies
and the test port (15 R395, Table 15-3). Log entry 97, DEDUCED. -/
def wbrCells : Nat :=
  let fabric := 1 + (80 + 1152 + 1152 + 1152 + 128 + 176 + 176 + 64 + 64) + 9 * (1 + 1 + 1 + 8 + 1)
  let ring := 65 + 65 + 1
  let power := 4 + 4 + 1 + 6
  let straps := 16 + 2 + 6 + 8
  let keys := 1 + 2 + 64 + 1 + 1 + 1
  fabric + ring + power + straps + keys + 4

/-- The wrapper serial port: WBY, the boundary register, what the last shift brought out, whether the functional ports are
taken, and the levels that the wrapper drives at the ports, cell by cell. -/
structure Tp where
  wby : Bool
  wbr : BitVec wbrCells
  shift : List Bool
  testMode : Bool
  out : Option (BitVec wbrCells)
deriving DecidableEq, Repr

/-- The state of the core, with the queue of commands that wait. `freeCount` is the model's own: the argument of the
free values. -/
structure State where
  pending : List Instr
  csr : Tbl W64
  sA : Stream
  sX : Stream
  vec : Vec
  spm : Spm
  qsy : Tbl Ctx
  bars : Bars
  chans : Tbl (List Chan)
  fab : Fab
  imem : Imem
  mer : Mer
  cA : Csu
  cX : Csu
  rounds : List Round
  trk : Tbl Trk
  arr : Arr
  orr : Tbl Sched
  keys : Tbl Key
  cke : Cke
  rep : Rep
  cal : Cal
  bist : Option Nat
  ring : Ring
  pins : Pins
  tp : Tp
  freeCount : Nat
deriving DecidableEq, Repr

/-! ### Reset values -/

def Stream.reset : Stream :=
  { a := [], n := [], p := [], loops := [], cc := 0, mhi := none, st := .idle, pc := 0, fresh := false, haltReq := false,
    coReq := false, swPend := false, wait := none, waited := 0, waitTold := false, stall := none, chain := 0,
    pendHalt := none, scal := [] }

def Key.zero : Key := ⟨0, 0, 0, false, 0⟩
def Vec.reset : Vec := ⟨0, [], [], [], [], 0⟩
def Csu.reset : Csu :=
  { st := .idle, id := 0, code := 0, detail := 0, log := [], held := [], voted := false, ready := false, vg := 0, tick := 0,
    step := 0, deadline := none, ct := false, tag := 0, lw := 0, slot := 0, gone := false, waiting := [], dirBad := false,
    left := 0, beat := false, met := none, due := none }
def Ctx.zero : Ctx := ⟨0, 0, 0, 0, 0, false, false, false, 0, [], [], []⟩
def BarCtx.zero : BarCtx := ⟨0, 0, 0, 0, 0, none, none, [], [], false⟩
def Link.zero : Link := ⟨0, 0, [], [], 0, false, 0, none, none⟩
def Trk.zero : Trk :=
  { scfg := 0, cur := 0, next := 0, amax := 0, alm := [], has := false, bound := false, wide := false, tripped := false,
    perr := false, bad := false, unav := false, cnt := [0, 0, 0, 0, 0], sat := [false, false, false, false, false], ep := [0, 0, 0],
    clean := 0 }
def Arr.reset : Arr := ⟨[], [], [], [], [], 0, 0, 0, [], [], []⟩
def Sched.zero : Sched := ⟨[], false, 0⟩
def Cke.reset : Cke :=
  { key := none, keyed := false, latched := 0, ct := false, tick := 0, resumable := false, poisoned := false, epoch := 0,
    sealed := false, recap := false, late := [], staged := [], blocks := [], urgent := [], stalls := [], job := none, jobs := 0, regions := false, todo := [], trailer := false, dirty := [], dlast := [], rngCheck := false }
def Cal.reset : Cal := ⟨false, false, 0, 0, 4, 0, 0, false⟩
def Mer.reset : Mer := ⟨.unlocked, 0, 0, 0, false, 0, none, 0, none, 0, 0, incTop, true⟩

/-- The registers whose value after the reset sequence is not zero: the reset values of the field maps, ID.STATE with
RESET_DONE, FP.STATUS with UP (16 Table 16-2). Log entry 3, DESIGN CHOICE. -/
def csrReset : Tbl W64 :=
  [(0x0000, 0x030100004D434F33), (0x0008, 1), (0x0140, 0xFFFF), (0x0210, 0xFFFF), (0x0280, 0x20000000),
   (0x0300, 0x20000000), (0x0380, 0x64), (0x0388, 1), (0x03C0, 0x1030), (0x2048, 0x8000), (0x5000, 1),
   (0x5008, 0x40004), (0x5880, 0x1000280200), (0x5890, 0xF), (0x5898, 0xF), (0x58A0, 0xF), (0x58A8, 0xF),
   (0x6000, 0xE78F00), (0x6008, 0xFC0000)]

/-- The core right after reset: the end of the sequence of 16 Table 16-2, no command waiting. Log entry 2, DEDUCED. Log entry 4, DESIGN CHOICE. -/
def State.reset : State :=
  { pending := [], csr := csrReset, sA := Stream.reset, sX := Stream.reset, vec := Vec.reset, spm := ⟨[], [], [], []⟩,
    qsy := [], bars := ⟨[], []⟩, chans := [], fab := ⟨0, [], [], [], [], [], [], 0⟩, imem := ⟨[], [], []⟩, mer := Mer.reset,
    cA := Csu.reset, cX := Csu.reset, rounds := [], trk := [], arr := Arr.reset, orr := [], keys := [],
    cke := Cke.reset, rep := ⟨[], []⟩, cal := Cal.reset, bist := none, ring := ⟨[], [], []⟩,
    pins := ⟨false, false, true, true, true, false, false, false, 14, [], [], 14, [], 0, false⟩,
    tp := ⟨false, 0, [], false, none⟩, freeCount := 0 }

end Sys2Proof.Machine
end

