-- ==== Sys2Proof/Machine/Flags.lean ====
section
/-!
DEFINITION. Access to the registers of the window by field, the event sources (17 R425, R426, 15 R388) and the fault
log (09 R258).
-/

namespace Sys2Proof.Machine

/-! ### Register fields -/

/-- The stored word of a register. -/
def State.rd (s : State) (off : Nat) : W64 := tget 0 s.csr off
/-- Store a register's word. -/
def State.wr (s : State) (off : Nat) (v : W64) : State := { s with csr := tset 0 s.csr off v }
/-- A field of a register. -/
def State.rf (s : State) (off hi lo : Nat) : Nat := fld (s.rd off) hi lo
/-- Set a field of a register. -/
def State.setRf (s : State) (off hi lo v : Nat) : State := s.wr off (putFld (s.rd off) hi lo v)
/-- A one-bit field. -/
def State.rb (s : State) (off i : Nat) : Bool := bit (s.rd off) i
/-- Add to a saturating count field (17 R435). -/
def State.incRf (s : State) (off hi lo : Nat) : State := s.setRf off hi lo (satInc (hi - lo + 1) (s.rf off hi lo))

/-- CSTATE (13 Table 13-3). -/
def State.cstate (s : State) : Nat := s.rf 0x1808 2 0

/-- The local meridian: the integer part of the count (10 R264). -/
def State.now (s : State) : W64 := BitVec.ofNat 64 (s.mer.count.toNat >>> 32)

/-- The core's place (15 R377). -/
def State.place (s : State) : Nat := s.rf 0x18 23 0

/-- Draw the next free value. Log entry 5, DESIGN CHOICE. -/
def State.freeWord (s : State) : State × W64 := ({ s with freeCount := s.freeCount + 1 }, Config.freeValue s.freeCount)

/-! ### Events (17 Table 17-3) -/

def evHalt (st : Sid) : Nat := match st with | .a => 0 | .x => 1
def evPostReady : Nat := 2
def evDmaDone : Nat := 3
def evDmaError : Nat := 4
def evQueueFabricErr : Nat := 5
def evQueueWaitLong : Nat := 6
def evBarrierFault : Nat := 7
def evNumericTrip : Nat := 8
def evTrkSat : Nat := 9
def evStateParity : Nat := 10
def evVeParity : Nat := 11
def evOutrider : Nat := 12
def evArrayFault : Nat := 13
def evEccThreshold : Nat := 14
def evFaultRecord : Nat := 15
def evMerEvent : Nat := 16
def evMeridianSync : Nat := 17
def evMeridianHoldover : Nat := 18
def evConsistAbort : Nat := 19
def evConsistConflict : Nat := 20
def evConsistSplit : Nat := 21
def evConsistVoteLost : Nat := 22
def evCkptDone : Nat := 23
def evCkptFail : Nat := 24
def evStepSat : Nat := 25
def evSectorSkew : Nat := 26
def evSpareLow : Nat := 27
def evRepair : Nat := 28
def evBistDone : Nat := 29
def evFabricDown : Nat := 30
def evPerfOvf : Nat := 31

/-- Raise an event source: its PEND bit sets; with EVMSG, a source that becomes pending queues an EVENT packet. -/
def State.raise (s : State) (src : Nat) : State :=
  let was := s.rb 0x100 src
  let s := s.setRf 0x100 src src 1
  if !was && s.rb 0x3C0 17 then { s with ring := { s.ring with ev := s.ring.ev ++ [src] } } else s

/-- Raise a cause that EV.CAUSE tells apart. -/
def State.raiseCause (s : State) (src cause : Nat) : State := (s.raise src).setRf 0x118 cause cause 1

/-- The event lines (15 R394): line k is 1 while a source that is pending, enabled and routed to it is set. -/
def State.evLine (s : State) (k : Nat) : Bool :=
  !s.tp.testMode && (upto 32).any fun i => s.rb 0x100 i && s.rb 0x108 i && decide (s.rf 0x110 (2 * i + 1) (2 * i) = k)

/-- Count `k` in performance counter n: past 2^48 - 1 it goes on from 0, and WRAPS, OVF and the event follow (17 R432). Log entry 103, DESIGN CHOICE. -/
def State.perf (s : State) (n k : Nat) : State :=
  if s.rb 0x9000 1 then s else
  let off := 0x9100 + 8 * n
  let v := s.rf off 47 0 + k
  let s := s.setRf off 47 0 v
  if v ≥ 2 ^ 48 then ((s.incRf off 63 48).setRf 0x9008 n n 1).raise evPerfOvf else s

/-! ### Fault log (09 R258) -/

/-- Do tags leave the core (09 Table 9-6)? -/
def State.tagsOut (s : State) : Bool := decide (s.rf 0x8080 1 0 ≠ 0)

/-- The first word of a fault record: source unit, kind, and the command's stream and tag if one is involved. -/
def State.faultWord (s : State) (unit kind : Nat) (who : Option (Sid × W16)) : W64 :=
  let tvw := match who with
    | some (st, t) => (match st with | .a => 0 | .x => 2 ^ 50) + (if s.tagsOut then 2 ^ 51 + t.toNat * 2 ^ 32 else 0)
    | none => 0
  BitVec.ofNat 64 (unit * 2 ^ 56 + kind * 2 ^ 52 + tvw)

/-- Write the four words of log entry i: the first word, the location, the meridian count, 0. -/
def State.faultPut (s : State) (i : Nat) (w loc : W64) : State :=
  let base := 0x900 + 0x20 * i
  (((s.wr base w).wr (base + 8) loc).wr (base + 16) s.now).wr (base + 24) 0

/-- Append a record to the log: a full log counts it as lost instead. -/
def State.faultLog (s : State) (w loc : W64) : State :=
  let wp := s.rf 0xB00 4 0
  let rp := s.rf 0xB00 12 8
  if (wp + 32 - rp) % 32 = 16 then s.incRf 0xB00 31 16
  else ((s.faultPut (wp % 16) w loc).setRf 0xB00 4 0 (wp + 1)).raise evFaultRecord

/-- Write one fault record: source unit, kind, the command's stream and tag if one is involved, location. -/
def State.fault (s : State) (unit kind : Nat) (who : Option (Sid × W16)) (loc : Nat) : State :=
  s.faultLog (s.faultWord unit kind who) (BitVec.ofNat 64 loc)

end Sys2Proof.Machine
end

