-- ==== Sys2Proof/Machine/Ops.lean ====
section
/-!
DEFINITION. The fields of a slot (08 R206), and named operations over streams, scalar registers, the scratchpad and its ECC words, and taking a halt
(07 R172, R196 to R198; 06 R134 to R139; 09 R257).
-/

namespace Sys2Proof

open Machine in
/-- Bits of the base word. -/
def Slot.f (c : Slot) (hi lo : Nat) : Nat := fld c.base hi lo
open Machine in
def Slot.opc (c : Slot) : Nat := fld c.base 63 57
open Machine in
def Slot.ct (c : Slot) : Bool := bit c.base 56
open Machine in
def Slot.gn (c : Slot) : Bool := bit c.base 55
open Machine in
def Slot.gp (c : Slot) : Nat := fld c.base 54 52
open Machine in
def Slot.xw (c : Slot) : Nat := fld c.base 51 48
/-- Extension word i. -/
def Slot.x (c : Slot) (i : Nat) : W64 := c.ext.getD i 0
end Sys2Proof

namespace Sys2Proof.Machine

/-! ### Streams and their scalar registers -/

/-- Is a host access answered NOT_READY? -/
def State.notReady (s : State) (off : Nat) : Bool := !s.rb 8 0 && decide (0x100 ≤ off) && !(s.pins.unlockAc && decide (off = 0x7000))

/-- A host access to an offset reaches its register: not while the bypass is closed, and before RESET_DONE only in the ID
block, every other access counting as NOT_READY (15 R386, R389). LC.CTRL is still reached in the ac of an unlock (16 R421). -/
def State.atHost (s : State) (off : Nat) (f : State → State) : State :=
  if !s.pins.stopReady || s.pins.bypassClosed then s
  else if s.notReady off then s.incRf 0x3C8 15 0
  else f s

def sidNat : Sid → Nat | .a => 0 | .x => 1
def natSid (n : Nat) : Sid := if n = 0 then .a else .x
def otherSid : Sid → Sid | .a => .x | .x => .a

def State.str (s : State) : Sid → Stream | .a => s.sA | .x => s.sX
def State.modStr (s : State) (st : Sid) (f : Stream → Stream) : State :=
  match st with
  | .a => { s with sA := f s.sA }
  | .x => { s with sX := f s.sX }

def State.csu (s : State) : Sid → Csu | .a => s.cA | .x => s.cX
def State.modCsu (s : State) (st : Sid) (f : Csu → Csu) : State :=
  match st with
  | .a => { s with cA := f s.cA }
  | .x => { s with cX := f s.cX }

/-- Read an A register. -/
def Stream.rdA (t : Stream) (i : Nat) : W48 := tget 0 t.a i
/-- Read an N register. -/
def Stream.rdN (t : Stream) (i : Nat) : W32 := tget 0 t.n i
/-- Read a predicate; P0 reads 1 (07 Table 7-1). -/
def Stream.rdP (t : Stream) (i : Nat) : Bool := if i = 0 then true else tget false t.p i

/-- Write a register: kind 0 N, 1 A, 2 P; a write of P0 is ignored (07 Table 7-1). -/
def Stream.wrReg (t : Stream) (w : RegWr) : Stream :=
  match w.kind with
  | 0 => { t with n := tset 0 t.n w.idx (BitVec.ofNat 32 w.val) }
  | 1 => { t with a := tset 0 t.a w.idx (BitVec.ofNat 48 w.val) }
  | _ => if w.idx = 0 then t else { t with p := tset false t.p w.idx (decide (w.val % 2 = 1)) }

def State.wrRegs (s : State) (st : Sid) (ws : List RegWr) : State := s.modStr st fun t => ws.foldl Stream.wrReg t

/-- LCn: the live count of active level n, 0 where it is not active (07 R183). -/
def Stream.lcn (t : Stream) (i : Nat) : W32 := match t.loops[i]? with | some l => l.lc | none => 0

/-- Offset of a stream's control registers (07 R199). -/
def strmBase (st : Sid) : Nat := match st with | .a => 0x400 | .x => 0x500
/-- Offset of a stream's halt record (09 R257). -/
def haltBase (st : Sid) : Nat := match st with | .a => 0x800 | .x => 0x840

/-- The running bank (09 R243), and the bank a stream fetches from while an event switch waits for it (R245). -/
def State.runBank (s : State) : Nat := s.rf 0x208 8 8
def State.bankOf (s : State) (st : Sid) : Nat := if (s.str st).swPend then 1 - s.runBank else s.runBank

/-- Where a stream stands: its long word's address in [16:0], the bank in [17] (09 R257). -/
def State.here (s : State) (st : Sid) : Nat := (s.str st).pc.toNat + s.bankOf st * 2 ^ 17

/-- SWITCHING reads 1 until both streams have taken the switch (09 R245). -/
def State.settleSwitch (s : State) : State := s.setRf 0x208 2 2 (b2n (s.sA.swPend || s.sX.swPend))

/-! ### Scratchpad bytes and ECC words -/

def spmSize : Nat := 0x1000000

/-- The byte an address holds; a byte that nothing has written reads 0 (16 R403). -/
def Spm.byte (m : Spm) (a : Nat) : Byte := tget 0 m.mem a
/-- Condition of ECC word `w`; a bank without a physical bank reads as uncorrectable (06 R140). -/
def Spm.eccW (m : Spm) (w : Nat) : Ecc := if m.gone.contains (w / 16 % 32) then .bad else tget .good m.ecc w
def Spm.eccAt (m : Spm) (a : Nat) : Ecc := m.eccW (a / 8)

/-- Is some ECC word of the byte range uncorrectable? The first such byte address (06 R137). -/
def Spm.badIn (m : Spm) (a n : Nat) : Option Nat :=
  ((upto (if n = 0 then 0 else (a + n - 1) / 8 + 1 - a / 8)).map (· + a / 8)).find? (fun w => m.eccW w = .bad)
    |>.map (· * 8)

/-- DIRTY counts of the regions a byte range touches (13 R343). `fab` selects the fabric space. -/
def State.dirty (s : State) (fab : Bool) (a n : Nat) : State :=
  let regs := (upto 64).filter fun r =>
    let w0 := s.rd (0x1A00 + 0x18 * r)
    bit w0 63 && bit w0 62 == fab
  if regs.isEmpty then s else
  { s with cke := { s.cke with dirty := regs.foldl (fun d r =>
      let base := fld (s.rd (0x1A00 + 0x18 * r)) 47 12 * 4096
      let size := fld (s.rd (0x1A08 + 0x18 * r)) 23 0 * 4096
      let lo := max a base
      let hi := min (a + n) (base + size)
      if hi > lo then tmod 0 d r (fun v => satInc 48 v (hi - lo)) else d) s.cke.dirty } }

/-- Put bytes in place. Every ECC word that is wholly written becomes good; poison marks every word covered (06 R138). A
pending correction write-back to a word that is written is dropped (06 Table 6-9). -/
def Spm.poke (m : Spm) (a : Nat) (bs : List Byte) (poison : Bool := false) : Spm :=
  let n := bs.length
  if n = 0 then m else
  let lost := fun (w : Nat) => m.gone.contains (w / 16 % 32)
  let mem := bs.zipIdx.foldl (fun t (b, i) => if lost ((a + i) / 8) then t else tset (0 : Byte) t (a + i) b) m.mem
  let words := ((upto ((a + n - 1) / 8 + 1 - a / 8)).map (· + a / 8)).filter fun w => !lost w
  let ecc := words.foldl (fun t w =>
    if poison then tset .good t w .bad
    else if a ≤ 8 * w && 8 * w + 8 ≤ a + n then tset .good t w .good else t) m.ecc
  { m with mem := mem, ecc := ecc, wb := m.wb.filter fun w => !words.contains w }

/-- Write bytes to the scratchpad in place, counting them as dirty. -/
def State.poke (s : State) (a : Nat) (bs : List Byte) (poison : Bool := false) : State :=
  ({ s with spm := s.spm.poke a bs poison }).dirty false a bs.length

/-- Physical units of a class (14 Table 14-5). -/
def physCount : Nat → Nat | 0 => 132 | 1 => 132 | 2 => 264 | 3 => 34 | 4 => 17 | 5 => 68 | 6 => 1056 | _ => 8208

def State.appliedMarks (s : State) (cls : Nat) : List Nat := tget [] s.rep.applied cls

/-- Physical unit of logical unit n under the applied map; none where it is unmapped (14 R359). -/
def State.physOf (s : State) (cls n : Nat) : Option Nat :=
  ((upto (physCount cls)).filter fun u => !(s.appliedMarks cls).contains u)[n]?

/-- Count one error of an ECC word in its bank's correction record, with the threshold event and the mark of its physical bank
(06 R137, R139, 14 R357). -/
def State.bankCount (s : State) (w : Nat) : State :=
  let bank := (w / 16) % 32
  let off := 0x180 + 8 * (bank / 2)
  let lo := 32 * (bank % 2)
  let old := s.rf off (lo + 15) lo
  let s := s.setRf off (lo + 15) lo (satInc 16 old)
  if old + 1 = s.rf 0x140 15 0 then
    let s := s.raise evEccThreshold
    match s.physOf 3 bank with
    | some u => if !s.rb 0x5000 0 || s.rb 0x5078 u then s else (s.setRf 0x5078 u u 1).raiseCause evRepair 4
    | none => s
  else s

/-- Reads of single-bit words correct them: the bank's counter, its threshold event and the write-back (06 R137, R139). Log entry 44, DEDUCED. -/
def State.touch (s : State) (a n : Nat) : State :=
  ((upto (if n = 0 then 0 else (a + n - 1) / 8 + 1 - a / 8)).map (· + a / 8)).foldl (fun s w =>
    if s.spm.eccW w = .single then
      let s := s.bankCount w
      { s with spm := { s.spm with wb := if s.spm.wb.contains w then s.spm.wb else s.spm.wb ++ [w] } }
    else s) s

/-- The address of the first uncorrectable error since the record was cleared (06 R139, 17 R428). -/
def State.noteAddr (s : State) (a : Nat) : State := if s.rb 0x148 63 then s else s.wr 0x148 (BitVec.ofNat 64 (2 ^ 63 + a))

/-- An uncorrectable read: the address record and the fault record (09 R258). -/
def State.noteUncorr (s : State) (who : Option (Sid × W16)) (a : Nat) : State := (s.noteAddr a).fault 0x01 2 who a

/-! ### Consist ownership as readers see it (11 R283) -/

/-- Base address of a stream's shadow region and its size in 128-byte log words (11 R279). -/
def State.shadowBase (s : State) (st : Sid) : Nat := s.rf (0x1400 + 8 * sidNat st) 23 12 * 4096
def State.shadowWords (s : State) (st : Sid) : Nat := s.rf (0x1400 + 8 * sidNat st) 44 32 * 32

/-- The log copy's address of a 128-byte word, where a consist owns it. -/
def State.logCopy (s : State) (st : Sid) (w : Nat) : Option Nat :=
  match (s.csu st).log.findIdx? (· = w) with
  | some i => some (s.shadowBase st + 128 * i)
  | none => none

/-- The address at which a viewer reads a byte: an owner reads in place, every other viewer the log copy. -/
def State.viewAddr (s : State) (viewer : Option Sid) (a : Nat) : Nat :=
  let via := fun (st : Sid) => if viewer = some st then none else s.logCopy st (a / 128)
  match via .a with
  | some b => b + a % 128
  | none => match via .x with
    | some b => b + a % 128
    | none => a

/-- Bytes as a viewer reads them. -/
def State.peek (s : State) (viewer : Option Sid) (a n : Nat) : List Byte :=
  (upto n).map fun i => s.spm.byte (s.viewAddr viewer (a + i))

/-- The first uncorrectable ECC word that a viewer's read meets. -/
def State.badView (s : State) (viewer : Option Sid) (a n : Nat) : Option Nat :=
  ((upto (if n = 0 then 0 else (a + n - 1) / 8 + 1 - a / 8)).map (· + a / 8)).find?
    (fun w => s.spm.eccAt (s.viewAddr viewer (w * 8)) = .bad) |>.map (· * 8)

/-- A 64-bit word read from the scratchpad. -/
def State.peekLe (s : State) (viewer : Option Sid) (a n : Nat) : Nat := leNat (s.peek viewer a n)

/-- The corrections of a viewer's read of these bytes. -/
def State.touchView (s : State) (viewer : Option Sid) (a n : Nat) : State :=
  ((upto (if n = 0 then 0 else (a + n - 1) / 8 + 1 - a / 8)).map (· + a / 8)).foldl
    (fun s w => s.touch (s.viewAddr viewer (8 * w)) 8) s

/-- The ECC words of byte ranges (address, length), each once. -/
def wordsOf (l : List (Nat × Nat)) : List Nat :=
  (l.flatMap fun p => if p.2 = 0 then [] else (upto ((p.1 + p.2 - 1) / 8 + 1 - p.1 / 8)).map (· + p.1 / 8)).eraseDups

/-- The corrections of a viewer's read of whole words. -/
def State.touchWords (s : State) (viewer : Option Sid) (l : List Nat) : State := l.foldl (fun s w => s.touchView viewer (8 * w) 8) s

/-- Is a write to one of these bytes under way, of the stream's first `nscal` accesses or of a VE work up to serial `nve`?
A read of the stream's own follows it (01 R22, 05 R110). Log entry 55, DEDUCED. -/
def State.memAhead (s : State) (st : Sid) (nscal nve : Nat) (addrs : List Nat) : Bool :=
  (((s.str st).scal.take nscal).any fun x => !x.isLoad && addrs.any fun a => x.addrs.contains a) ||
  (decide (st = .x) && s.vec.ve.any fun w => decide (w.serial ≤ nve) &&
    addrs.any fun a => w.wr.any fun p => decide (p.1 ≤ a) && decide ((a : Int) ≤ p.2))

/-! ### Halts (07 R196 to R198, 09 R257) -/

/-- Withdraw a stream's waiting command: it frees its place at every context, and the results of its word's other commands
stand (07 R197). Its barrier entry, where it has not counted, is left in place and counts later: log entry 116, DESIGN CHOICE. -/
def State.withdraw (s : State) (st : Sid) : State :=
  let s := match (s.str st).wait with | some w => s.wrRegs st w.late | none => s
  let s := s.modStr st fun t => { t with wait := none, waited := 0, waitTold := false, stall := none }
  { s with qsy := s.qsy.map fun (i, c) =>
      (i, { c with cons := c.cons.filter fun k => k.agent ≠ sidNat st
                   prod := c.prod.filter fun k => k.agent ≠ sidNat st }) }

/-- A deferred halt within a stop whose section is sealed already: RESUMABLE becomes 0, and the section is to be sealed again (13 Table
13-6). Log entry 146, DEDUCED. -/
def State.haltInStop (s : State) (deferred : Bool) : State :=
  if deferred && s.cke.sealed && decide (s.cstate = 1) then { s with cke := { s.cke with recap := true, resumable := false } } else s

/-- Write the halt record and enter HALTED. The partner is asked to co-halt where its COHALT is 1 (07 R198). -/
def State.takeHalt (s : State) (st : Sid) (h : HaltRec) : State :=
  let s := (s.withdraw st).haltInStop h.deferred
  let s := s.modStr st fun t => { t with st := .halted, chain := 0, pendHalt := none, haltReq := false, coReq := false, fresh := false }
  let hb := haltBase st
  let s := s.wr hb (BitVec.ofNat 64 (h.reason * 2 ^ 56 + 2 ^ 55 + b2n h.deferred * 2 ^ 54 + b2n h.partner * 2 ^ 53
    + b2n h.tv * 2 ^ 52 + h.addr / 2 ^ 17 % 2 * 2 ^ 51 + (if h.tv then h.slot % 8 else 0) * 2 ^ 48
    + (if h.tv then h.tag.toNat else 0) * 2 ^ 32 + h.addr % 2 ^ 17))
  let s := s.wr (hb + 8) (s.str st).cc
  let s := s.wr (hb + 16) (BitVec.ofNat 64 ((h.imm % 2 ^ 16) * 2 ^ 48 + h.detail % 2 ^ 48))
  let s := s.wr (hb + 24) s.now
  let b := strmBase st + 8
  let s := s.setRf b 15 8 h.reason
  let s := s.setRf b 18 18 (b2n h.deferred)
  let s := s.setRf b 19 19 (b2n h.partner)
  let s := (s.modStr st fun t => { t with swPend := false }).settleSwitch
  let s := s.raise (evHalt st)
  let o := otherSid st
  let ost := (s.str o).st
  if s.rb (strmBase o) 8 && (ost = .running || ost = .stopping || ost = .stopped) && !h.partner then
    s.modStr o fun t => { t with coReq := true }
  else s

/-- Report a deferred halt of the command in the long word at `lw`, its bank in [17]: it waits for the last member of an open chain (07 R196,
R444). A halted, idle or resetting stream takes none. -/
def State.deferHalt (s : State) (st : Sid) (reason detail : Nat) (tag : W16) (slot lw : Nat) : State :=
  let t := s.str st
  let h : HaltRec := ⟨reason, true, false, true, slot, tag, lw, 0, detail⟩
  match t.st with
  | .running | .stopping | .stopped =>
    if t.chain > 0 then
      (if t.pendHalt.isSome then s else s.modStr st fun t => { t with pendHalt := some h })
    else s.takeHalt st h
  | _ => s

/-- A deferred halt met while a long word issues or ends its wait: taken when the word is left (07 R196, R444). PC still names
the word. -/
def State.noteHalt (s : State) (st : Sid) (reason detail : Nat) (tag : W16) (slot : Nat) : State :=
  s.modStr st fun t =>
    if t.pendHalt.isSome then t else { t with pendHalt := some ⟨reason, true, false, true, slot, tag, s.here st, 0, detail⟩ }

end Sys2Proof.Machine
end

