-- ==== Sys2Proof/Machine/Repair.lean ====
section
/-!
DEFINITION. The repair record, the applied maps and the wear counts (14 R357 to R362).
Classes: 0 columns, 1 rows, 2 lanes, 3 banks, 4 channels, 5 tracker slots, 6 car groups, 7 and 8 rows of IMEM banks.
-/

namespace Sys2Proof.Machine

/-- Logical units of a class (14 Table 14-5). -/
def logCount : Nat → Nat | 0 => 128 | 1 => 128 | 2 => 256 | 3 => 32 | 4 => 16 | 5 => 64 | 6 => 1024 | _ => 8192
def spareCount (cls : Nat) : Nat := physCount cls - logCount cls

/-- First record register of a bitmap class (14 Table 14-8). -/
def bitmapBase : Nat → Nat | 0 => 0x5020 | 1 => 0x5038 | 2 => 0x5050 | 3 => 0x5078 | 4 => 0x5080 | _ => 0x5088
/-- First register and entry count of a class of entries. -/
def entryBase : Nat → Nat | 6 => 0x5100 | 7 => 0x5180 | _ => 0x51C0
def entryCount : Nat → Nat | 6 => 64 | _ => 32

/-- Entry j of a class: valid, unit. -/
def State.repEntry (s : State) (cls j : Nat) : Bool × Nat :=
  let off := entryBase cls + 8 * (j / 4)
  let lo := 16 * (j % 4)
  (s.rb off (lo + 15), s.rf off (lo + (if cls = 6 then 10 else 13)) lo)

/-- Physical units that the record marks failed. -/
def State.marks (s : State) (cls : Nat) : List Nat :=
  if cls ≤ 5 then (upto (physCount cls)).filter fun u => s.rb (bitmapBase cls + 8 * (u / 64)) (u % 64)
  else ((upto (entryCount cls)).filterMap fun j => let e := s.repEntry cls j; if e.1 then some e.2 else none).dedup.insertionSort (· ≤ ·)

/-- LIVEPEND and RESETPEND (14 R362), ARRPEND (R358). -/
def State.livePend (s : State) : Bool := [0, 1, 2].any fun c => s.marks c ≠ s.appliedMarks c
def State.resetPend (s : State) : Bool := [3, 4, 5, 6, 7, 8].any fun c => s.marks c ≠ s.appliedMarks c
def State.arrPend (s : State) : Bool := [0, 1].any fun c => (s.marks c).any fun u => !(s.appliedMarks c).contains u

/-- The core marks a unit failed where AUTO is 1: not beyond a class's entries, where OVF sets (14 R357, R360). -/
def State.setMark (s : State) (cls u : Nat) : State :=
  if !s.rb 0x5000 0 || (s.marks cls).contains u then s
  else if cls ≤ 5 then (s.setRf (bitmapBase cls + 8 * (u / 64)) (u % 64) (u % 64) 1).raiseCause evRepair 4
  else match (upto (entryCount cls)).find? fun j => !(s.repEntry cls j).1 with
    | some j =>
      let off := entryBase cls + 8 * (j / 4)
      let lo := 16 * (j % 4)
      ((s.setRf off (lo + 13) lo u).setRf off (lo + 15) (lo + 15) 1).raiseCause evRepair 4
    | none => s.setRf 0x5010 3 3 1

/-- The core marks a unit failed: no further column or row while an array mark is pending (14 R358). -/
def State.markUnit (s : State) (cls u : Nat) : State := if cls ≤ 1 && s.arrPend then s else s.setMark cls u

/-- Index of a unit in REP.WSEL. -/
def wselOf (cls u : Nat) : Nat :=
  u + (match cls with | 0 => 0 | 1 => 0x100 | 2 => 0x200 | 5 => 0x380 | _ => 0x3D0)

def State.wearAt (s : State) (cls u : Nat) : Wear := tget ⟨0, none, false⟩ s.rep.wear (wselOf cls u)
def State.modWear (s : State) (cls u : Nat) (f : Wear → Wear) : State :=
  { s with rep := { s.rep with wear := tmod ⟨0, none, false⟩ s.rep.wear (wselOf cls u) f } }

/-- Count against a lane, a tracker slot or a channel, marked at PTHR (14 Table 14-4). -/
def State.wearParity (s : State) (cls u : Nat) : State :=
  let s := s.modWear cls u fun w => { w with count := satInc 16 w.count }
  if (s.wearAt cls u).count ≥ s.rf 0x5008 31 16 then s.markUnit cls u else s

/-- Count against a live physical column or row, marked at OMTHR where the outrider that last compared it has DIFF = 0. Log entry 89, DEDUCED. -/
def State.wearLive (s : State) (cls u outrider : Nat) : State :=
  let s := s.modWear cls u fun w => { w with count := satInc 16 w.count }
  if (s.wearAt cls u).count ≥ s.rf 0x5008 15 0 && !(s.wearAt cls (128 + outrider)).diff then s.markUnit cls u else s

/-- Count against outrider k, which reports live unit `u`: DIFF where LAST names another, whatever the count (14 Table 14-4). -/
def State.wearOutrider (s : State) (cls k u : Nat) : State :=
  let s := s.modWear cls (128 + k) fun w =>
    { count := satInc 16 w.count, last := some u, diff := w.diff || w.last.any fun v => v ≠ u }
  let w := s.wearAt cls (128 + k)
  if w.count ≥ s.rf 0x5008 15 0 && w.diff then s.markUnit cls (128 + k) else s

/-- Apply the record's map of some classes (14 R359, R360): SPARE_LOW where the spares do not suffice. -/
def State.applyMaps (s : State) (classes : List Nat) : State :=
  classes.foldl (fun s c =>
    let m := s.marks c
    let s := { s with rep := { s.rep with applied := tset [] s.rep.applied c m } }
    let short := decide (m.length > spareCount c)
    let s := if short then s.raise evSpareLow else s
    match c with
    | 6 => s.setRf 0x2048 15 0 (if short then 32 * (1056 - m.length) else 0x8000)
    | 7 => s.setRf 0x280 31 16 (if short then 8208 - m.length else 0x2000)
    | 8 => s.setRf 0x300 31 16 (if short then 8208 - m.length else 0x2000)
    | _ => s) s

/-- Clear every column, row and outrider wear count (14 R358). -/
def State.clearArrayWear (s : State) : State :=
  { s with rep := { s.rep with wear := s.rep.wear.filter fun p => decide (p.1 ≥ 0x200) } }

/-- A DMA channel's parity count (14 Table 14-4), by its logical number. -/
def State.wearChannel (s : State) (ch : Nat) : State :=
  match s.physOf 4 ch with
  | some u => s.wearParity 4 u
  | none => s

end Sys2Proof.Machine
end

