-- ==== Sys2Proof/Machine/Txn.lean ====
section
/-!
DEFINITION. The consist unit's shared operations (11): abort and rollback, the write path of R275 to R285, numeric
trips (04 R95), and the release of held writes' cars.
-/

namespace Sys2Proof.Machine

def isOpen (c : Csu) : Bool := c.st = .opened
/-- Is the consist with this id OPEN or DECIDING, and not rolled back before its vote, so that its commands' writes belong to it (11 R275, R298)? -/
def ownsWrites (c : Csu) (id : Nat) : Bool := c.id = id && (c.st = .opened || (c.st = .deciding && !c.gone))

/-- The consist tag that a command issued now latches: the open or doomed consist of its stream (11 R275, R287). -/
def Csu.tagNow (c : Csu) : Option Nat := if c.st = .opened || c.st = .doomed then some c.id else none

/-- The tag that a descriptor latches: the consist that is open when the A-stream pushes it (11 R275). Log entry 143, DEDUCED. -/
def Csu.tagOpen (c : Csu) : Option Nat := if c.st = .opened then some c.id else none

/-- Record of the last abort (11 R297). -/
def State.lastAbort (s : State) (st : Sid) : State :=
  let c := s.csu st
  s.wr (0x1420 + 8 * sidNat st) (BitVec.ofNat 64 (2 ^ 63 + c.id * 2 ^ 32 + (c.detail % 2 ^ 16) * 256 + c.code % 256))

/-- Copy every log word home and forget the log (11 R299): readers see the old values from now on; `left` counts what the rollback
has still to restore (Table 11-8). An uncorrectable log word poisons its home word, with one record; the corrections of the others
count (06 R137, R139). -/
def State.restoreLog (s : State) (st : Sid) : State :=
  let log := (s.csu st).log
  let base := s.shadowBase st
  let s := log.zipIdx.foldl (fun s (w, i) =>
    let src := base + 128 * i
    match s.spm.badIn src 128 with
    | some a => (s.noteUncorr none a).poke (128 * w) (List.replicate 128 0) true
    | none => (s.touch src 128).poke (128 * w) ((upto 128).map fun j => s.spm.byte (src + j))) s
  s.modCsu st fun c => { c with log := [], left := c.left + log.length }

/-- Change the descriptor of a channel that has this ring ticket. -/
def State.modChan (s : State) (ch tkt : Nat) (f : Chan → Chan) : State :=
  { s with chans := tmod [] s.chans ch fun l => l.map fun c => if c.tkt = tkt then f c else c }

/-- An ending status replaces the one met before it, and ABORTED stands; else the first non-OK status stands (06 R166, 11 R298). -/
def Chan.setStatus (c : Chan) (code : Nat) : Chan :=
  let ending := code = 2 || code = 5 || code = 8 || code = 9
  let c := if ending then { c with ended := true, waiting := false, park := [], row := if rdLe c.desc 1 1 / 16 = 3 then c.row else [], rowIn := false } else c
  if c.status = 0 || (ending && decide (c.status ≠ 9)) then { c with status := code } else c

/-- Channels that wait at a context give up their places: those whose waiting descriptor meets the test. Log entry 54, DEDUCED. -/
def State.dropChanWaits (s : State) (f : Chan → Bool) : State :=
  let hit := fun (agent : Nat) => decide (2 ≤ agent) && decide (agent < 18) && (tget [] s.chans (agent - 2)).any fun c => c.waiting && f c
  { s with qsy := s.qsy.map fun (i, c) =>
      (i, { c with cons := c.cons.filter fun k => !hit k.agent
                   prod := c.prod.filter fun k => !hit k.agent }) }

/-- A descriptor's destination space (06 Table 6-7). -/
def dstSpace (d : List Byte) : Nat := rdLe d 1 1 / 16

/-- Do writes of a descriptor belong to the write set of the consist with this id: to the scratchpad, or held fabric writes (11 R275)? -/
def Chan.inSet (id : Nat) (c : Chan) : Bool := c.cs = some id && dstSpace c.desc ≤ 1

/-- Has a descriptor writes still to make? One whose fabric writes are held has, unless it was bad. -/
def Chan.unfinished (c : Chan) (total : Nat) : Bool :=
  (decide (dstSpace c.desc = 1) && decide (c.status ≠ 1)) || c.waiting || decide (c.left > 0) || !c.park.isEmpty || (!c.ended && decide (c.unit < total))

/-- Pieces that a descriptor moves: whole rows where queue space takes part, else 128 bytes of a row (06 Table 6-7). -/
def pieceCount (d : List Byte) : Nat :=
  let len := rdLe d 24 4
  rdLe d 28 4 * (if rdLe d 1 1 % 16 = 2 || dstSpace d = 2 then 1 else ceilDiv len 128)

/-- The descriptors of an aborted consist whose writes are discarded end with ABORTED, what they had still to request withdrawn; one whose
fabric writes were held completes at the outcome (11 R277, R298). A descriptor that writes queue space, contexts or IMEM stands
outside R275 and goes on (R276). -/
def State.abortChans (s : State) (id : Nat) : State :=
  let hit := fun (c : Chan) => c.inSet id && c.unfinished (pieceCount c.desc)
  let s := s.dropChanWaits hit
  let ask := fun (i : Nat) (c : Chan) => (s.fab.todo.filter fun r => decide (r.ch = i) && decide (r.tkt = c.tkt)).length
  { s with
    chans := s.chans.map fun (i, l) => (i, l.map fun c => if hit c then { c.setStatus 9 with left := c.left - ask i c } else c)
    fab := { s.fab with todo := s.fab.todo.filter fun r => !((tget [] s.chans r.ch).any fun c => c.tkt = r.tkt && hit c) } }

/-- Discard the held writes: the cars of entries already in their FAB_OUT contexts were never there. -/
def State.dropHeld (s : State) (st : Sid) : State :=
  let id := (s.csu st).id
  let s := s.modCsu st fun c => { c with held := [] }
  if st = .a then s.abortChans id else s

/-- A vote round's local vote replaced by NO where the core's own VOTE has not left (11 R292). -/
def State.replaceVote (s : State) (vg : Nat) (tick : W64) (code : Nat) : State :=
  { s with rounds := s.rounds.map fun r =>
      if r.vg = vg && r.tick = tick && !r.sent && r.decided.isNone then
        { r with ok := false, reason := if r.reason = 0 then code else r.reason } else r }

/-! ### Waits on Method R blocks not yet copied (13 R340) -/

/-- The Method R block that a byte range of the scratchpad or of the fabric lies in, where it is not yet copied. -/
def State.blockOf (s : State) (fab : Bool) (a n : Nat) : Option (Nat × Nat) :=
  s.cke.blocks.find? fun (r, b) =>
    let w0 := s.rd (0x1A00 + 0x18 * r)
    let lo := fld w0 47 12 * 4096 + 65536 * b
    bit w0 62 == fab && decide (a < lo + 65536) && decide (lo < a + n)

/-- The 128-byte words that a byte range touches. -/
def wordSpan (a n : Nat) : List Nat := (upto (if n = 0 then 0 else (a + n - 1) / 128 + 1 - a / 128)).map (· + a / 128)

/-- The block not yet copied that a write of `n` bytes would change, by a command of `side` issued in consist `cs` (13 R340): outside a
consist that of the bytes, and that of the log copies which the write changes (11 R284); inside one, that of the log words which it
appends (R280). -/
def State.writeBlock (s : State) (side : Option Sid) (cs : Option Nat) (a n : Nat) : Option (Nat × Nat) :=
  if s.cke.blocks.isEmpty then none else
  match side, cs with
  | some st, some id =>
    let log := (s.csu st).log
    let k := min ((wordSpan a n).filter fun w => !log.contains w).length (s.shadowWords st - log.length)
    if ownsWrites (s.csu st) id && decide (0 < k) then s.blockOf false (s.shadowBase st + 128 * log.length) (128 * k) else none
  | _, _ =>
    (s.blockOf false a n).or ((wordSpan a n).findSome? fun w =>
      ((s.logCopy .a w).toList ++ (s.logCopy .x w).toList).findSome? fun b => s.blockOf false b 128)

/-- Put a block ahead of all others. -/
def State.hurry (s : State) (p : Nat × Nat) : State :=
  if s.cke.urgent.contains p then s else { s with cke := { s.cke with urgent := s.cke.urgent ++ [p] } }

/-- A held write outside a consist counts once in CKE.STALLS: `who` is the stream, 2 + n for DMA channel n, 18 for a VE command,
20 + n for a pop or an STKRD of stream n, 26 + n for a write of stream n that waited for an outcome; `a` tells its writes apart. -/
def State.stallOn (s : State) (who a : Nat) (p : Nat × Nat) : State :=
  let s := s.hurry p
  if s.cke.stalls.contains (who, a) then s
  else { s with cke := { s.cke with stalls := s.cke.stalls ++ [(who, a)] } }.incRf 0x1890 47 0

/-! ### Abort and rollback -/

/-- Does a consist's write set hold a word? -/
def owns (c : Csu) (w : Nat) : Bool := (c.st = .opened || c.st = .deciding) && c.log.contains w

/-- A write inside one 128-byte word that is part of no consist. One to a word of another stream's consist goes to the log copy (R284).
One of the owner's own takes effect at once and is no part of the write set: it reaches the log copy too, so that no abort undoes it
(R276); while the consist is DECIDING it waits (R285). -/
def State.untagged (s : State) (side : Option Sid) (a : Nat) (bs : List Byte) (poison : Bool) : State :=
  let w := a / 128
  let foreign : Option Sid := if side ≠ some .a && owns s.cA w then some .a else if side ≠ some .x && owns s.cX w then some .x else none
  match foreign with
  | some o =>
    match s.logCopy o w with
    | some b => ((s.poke (b + a % 128) bs poison).incRf 0x1440 15 0).raise evConsistConflict
    | none => s
  | none =>
    match side with
    | some st =>
      if !owns (s.csu st) w then s.poke a bs poison
      else if (s.csu st).st = .deciding then s.modCsu st fun c => { c with waiting := c.waiting ++ [⟨a, bs, poison⟩] }
      else match s.logCopy st w with
        | some b => (s.poke (b + a % 128) bs poison).poke a bs poison
        | none => s.poke a bs poison
    | none => s.poke a bs poison

/-- The writes that waited for the outcome take effect, unlogged and in order (11 R285). One to a Method R block not yet copied waits
on, and has it copied first (13 R340). -/
def State.flushWaiting (s : State) (st : Sid) : State :=
  let l := (s.csu st).waiting
  l.foldl (fun s w =>
    match s.writeBlock (some st) none w.addr w.bytes.length with
    | some p => (s.stallOn (26 + sidNat st) w.addr p).modCsu st fun c => { c with waiting := c.waiting ++ [w] }
    | none => s.untagged (some st) w.addr w.bytes w.poison) (s.modCsu st fun c => { c with waiting := [] })

/-- The rollback of a consist with its latched reason, and the state it enters (11 R287, R299). -/
def State.rollBack (s : State) (st : Sid) (next : CsState) : State :=
  ((((s.dropHeld st).restoreLog st).lastAbort st).modCsu st fun c => { c with st := next, due := none }).flushWaiting st

/-- A rollback that falls within a checkpoint stop waits until the stop ends (11 Table 11-8, 13 R352). -/
def State.rollBackDue (s : State) (st : Sid) (next : CsState) : State :=
  if s.cstate = 1 then s.modCsu st fun c => { c with due := some next } else s.rollBack st next

/-- The stop has ended: the rollbacks that waited for it run. -/
def State.dueRollbacks (s : State) : State :=
  [Sid.a, .x].foldl (fun s st => match (s.csu st).due with | some n => s.rollBack st n | none => s) s

/-- Latch an abort reason, and do what follows from it (11 R286, R287): the first latched reason stands. -/
def State.latchAbort (s : State) (st : Sid) (code detail : Nat) : State :=
  let c := s.csu st
  if c.code ≠ 0 then s else
  let latched := (s.modCsu st fun c => { c with code := code, detail := detail }).raise evConsistAbort
  match c.st with
  | .opened => latched.rollBackDue st .doomed
  | .deciding =>
    if c.voted then (if c.ready then latched.replaceVote c.vg c.tick code else latched) else latched.rollBackDue st .rollback
  | _ => s

/-- An abort reason reaches a consist. Of two reasons in one beat the lower code is latched (11 Table 11-8): until the beat ends, it is
only noted. -/
def State.abort (s : State) (st : Sid) (code detail : Nat) : State :=
  let c := s.csu st
  if c.beat then
    (if c.st = .opened || c.st = .deciding then
      s.modCsu st fun c => { c with met := match c.met with | some m => if code < m.1 then some (code, detail) else some m | none => some (code, detail) }
    else s)
  else s.latchAbort st code detail

/-- The lowest reason that a beat met is latched. -/
def State.endBeat (s : State) (st : Sid) : State :=
  let m := (s.csu st).met
  let s := s.modCsu st fun c => { c with beat := false, met := none }
  match m with
  | some (code, detail) => s.latchAbort st code detail
  | none => s

/-- A beat of writes, between whose parts no time passes. -/
def State.asBeat (s : State) (f : State → State) : State :=
  ((f ((s.modCsu .a fun c => { c with beat := true }).modCsu .x fun c => { c with beat := true })).endBeat .a).endBeat .x

/-- Abort with the reason only where the consist is still the one the command was issued in. -/
def State.abortIf (s : State) (st : Sid) (cs : Option Nat) (code detail : Nat) : State :=
  match cs with
  | some id => if ownsWrites (s.csu st) id then s.abort st code detail else s
  | none => s

/-- A deferred SPM_UNCORRECTABLE (07 R196): the fault record, the abort of its consist, the halt. -/
def State.spmHalt (s : State) (st : Sid) (cs : Option Nat) (tag : W16) (slot lw addr : Nat) : State :=
  let s := s.noteUncorr (some (st, tag)) addr
  let s := s.abortIf st cs 3 1
  s.deferHalt st 0x0B addr tag slot lw

/-! ### The write path -/

/-- A parity error of a consist's write-set directory, found when the directory is looked up, aborts its consist (14 Table
14-1, 11 Table 11-5). Which unit the fault record and the reason name is open: a free value, log entry 120, DESIGN CHOICE. -/
def State.dirCheck (s : State) (st : Sid) : State :=
  if !(s.csu st).dirBad then s
  else
    let s := s.modCsu st fun c => { c with dirBad := false }
    let (s, v) := s.freeWord
    (s.fault (fld v 7 0) 3 none (fld v 63 8)).abort st 3 (fld v 7 0)

/-- Append a word to the log before its first write (11 R280, R281), its corrections counted; false where the consist is doomed by it. -/
def State.logWord (s : State) (st : Sid) (w : Nat) : State × Bool :=
  let c := s.csu st
  if c.log.contains w then (s, true) else
  if c.log.length ≥ s.shadowWords st then (s.abort st 2 0, false) else
  match s.spm.badIn (w * 128) 128 with
  | some a => ((s.noteUncorr none a).abort st 3 1, false)
  | none =>
    let dst := s.shadowBase st + 128 * c.log.length
    let old := (upto 128).map fun j => s.spm.byte (w * 128 + j)
    let s := (s.touch (w * 128) 128).poke dst old
    (s.modCsu st fun c => { c with log := c.log ++ [w] }, true)

/-- A write that lies inside one 128-byte word. `side` is the stream of the command or of the A-stream consist a
descriptor belongs to, `cs` the consist the command was issued in (11 R275 to R285, R298). -/
def State.writeWord (s : State) (side : Option Sid) (cs : Option Nat) (a : Nat) (bs : List Byte) (poison : Bool) : State :=
  let w := a / 128
  let part : Option Sid := match side, cs with
    | some st, some id => if ownsWrites (s.csu st) id then some st else none
    | _, _ => none
  let dead : Bool := match side, cs with
    | some st, some id => !ownsWrites (s.csu st) id
    | _, _ => false
  if dead then s else
  match part with
  | some st =>
    if owns (s.csu (otherSid st)) w then s.abort st 0x0A (w % 32)
    else
      let (s, ok) := s.logWord st w
      if ok then s.poke a bs poison else s
  | none => s.untagged side a bs poison

/-- Cut a byte string at 128-byte boundaries. -/
def chunk128 (fuel a : Nat) (bs : List Byte) : List (Nat × List Byte) :=
  match fuel with
  | 0 => []
  | f + 1 =>
    match bs with
    | [] => []
    | _ =>
      let k := 128 - a % 128
      (a, bs.take k) :: chunk128 f (a + k) (bs.drop k)

/-- A write of any length to the scratchpad. -/
def State.write (s : State) (side : Option Sid) (cs : Option Nat) (a : Nat) (bs : List Byte) (poison : Bool := false) : State :=
  (chunk128 (bs.length / 128 + 2) a bs).foldl (fun s (a, b) => s.writeWord side cs a b poison) ((s.dirCheck .a).dirCheck .x)

/-- Gather (address, byte) pairs into runs of consecutive addresses. -/
def runsOf : List (Nat × Byte) → List (Nat × List Byte)
  | [] => []
  | (a, b) :: r =>
    match runsOf r with
    | (a', bs) :: q => if a' = a + 1 then (a, b :: bs) :: q else (a, [b]) :: (a', bs) :: q
    | [] => [(a, [b])]

/-- Write (address, byte) pairs, each run of addresses as one write. -/
def State.writePairs (s : State) (side : Option Sid) (cs : Option Nat) (l : List (Nat × Byte)) (poison : Bool := false) : State :=
  (runsOf l).foldl (fun s (a, bs) => s.write side cs a bs poison) s

/-- The Method R block that holds back a write of (address, byte) pairs. -/
def State.blockOfPairs (s : State) (side : Option Sid) (cs : Option Nat) (l : List (Nat × Byte)) : Option (Nat × Nat) :=
  (runsOf l).findSome? fun (a, bs) => s.writeBlock side cs a bs.length

/-! ### Trackers (04 R83, R86, R92 to R99) -/

def State.trkAt (s : State) (n : Nat) : Trk := tget Trk.zero s.trk n
def State.modTrk (s : State) (n : Nat) (f : Trk → Trk) : State := { s with trk := tmod Trk.zero s.trk n f }

/-- Add to a 48-bit counter with its sticky SAT (04 R92): the count, whether this saturated it. -/
def satAdd48 (v k : Nat) : Nat × Bool := (min (2 ^ 48 - 1) (v + k), decide (v + k > 2 ^ 48 - 1))

/-- Add to a core-wide numeric counter (04 R94). -/
def State.numcAdd (s : State) (i k : Nat) : State :=
  if k = 0 then s else
  let off := 0x9800 + 8 * i
  let (v, sat) := satAdd48 (s.rf off 47 0) k
  let s := s.setRf off 47 0 v
  if sat && !s.rb off 63 then (s.setRf off 63 63 1).raise evTrkSat else s

/-- A command on an unbound slot (04 R83). -/
def State.unboundUse (s : State) : State := s.numcAdd 5 1

/-- The slot that a command's SLOT field observes into: a bound slot, else none; an unbound one counts (04 R83). -/
def State.bindCheck (s : State) (slot : Nat) : State × Option Nat :=
  if slot = 0x7F then (s, none)
  else if (s.trkAt slot).bound && !(s.trkAt slot).unav then (s, some slot) else (s.unboundUse, none)

def Cnts.toList (c : Cnts) : List Nat := [c.clip, c.flush, c.escape, c.spread, c.nonfin]

/-- The larger of two non-negative FP32 values, as bits. -/
def maxBits (a b : W32) : W32 := if a.toNat < b.toNat then b else a

/-- A numeric trip of a slot (04 R95): TRIPPED, the event, and the abort of the consist open at issue. A slot
holds no number of its trips: log entry 126, DESIGN CHOICE. -/
def State.trip (s : State) (slot : Nat) (cs : Option Nat) : State :=
  ((s.modTrk slot fun t => { t with tripped := true }).raise evNumericTrip).abortIf .x cs 5 slot

/-- The parity check of a slot's state where it is used (04 R99, 14 Table 14-4): PERR, the event, the fault record, the wear of
its physical slot, the trip. -/
def State.trkParity (s : State) (n : Nat) (cs : Option Nat) : State :=
  if !(s.trkAt n).bad then s
  else
    let s := ((s.modTrk n fun t => { t with bad := false, perr := true }).fault 0x08 3 none n).raiseCause evStateParity 2
    let s := match s.physOf 5 n with | some u => s.wearParity 5 u | none => s
    s.trip n cs

/-- Merge one unit of observations (04 R86): into the bound slot, or into the core-wide counters. Every merge that adds excursions trips while
the epoch's count exceeds SPLIM: log entry 125, DESIGN CHOICE. -/
def State.merge (s : State) (slot : Option Nat) (cs : Option Nat) (amax : W32) (c : Cnts) (elems : Nat) : State :=
  match slot with
  | some n =>
    let s := s.trkParity n cs
    let t := s.trkAt n
    let z := (t.cnt.zip c.toList).map fun p => satAdd48 p.1 p.2
    let newSat := (z.zip t.sat).any fun p => p.1.2 && !p.2
    let s := s.modTrk n fun t => { t with
      amax := maxBits t.amax amax, has := true, cnt := z.map Prod.fst, sat := (t.sat.zip z).map fun p => p.1 || p.2.2
      ep := [satInc 24 (t.ep.getD 0 0) c.spread, satInc 24 (t.ep.getD 1 0) c.flush, satInc 24 (t.ep.getD 2 0) elems] }
    let s := if newSat then s.raise evTrkSat else s
    let t := s.trkAt n
    let splim := fld t.scfg 49 34
    if (c.spread > 0 && decide (t.ep.getD 0 0 > splim) && splim ≠ 0xFFFF) || (c.nonfin > 0 && bit t.scfg 25) then s.trip n cs else s
  | none =>
    (c.toList.zipIdx).foldl (fun s (k, i) => s.numcAdd i k) s

/-- A numeric trip that is not a tracker's (05 R120, R131, 03 R77). -/
def State.numericTrip (s : State) (cs : Option Nat) (code detail : Nat) : State := s.abortIf .x cs code detail

end Sys2Proof.Machine
end

