-- ==== Sys2Proof/Machine/Links.lean ====
section
/-!
DEFINITION. The fabric port's link layer and flit layouts (15 R372 to R377): building, sending and acknowledging flits.
A flit is held as a number: its control bits from bit 0, and above them, for a data channel, lane 0 then lane 1.
-/

namespace Sys2Proof.Machine

/-- Width of a channel's control bits (15 Table 15-3, Table 15-4). Log entry 13, DEDUCED. -/
def ctlBits (ch : Nat) : Nat :=
  match ch with | 0 => 80 | 5 => 176 | 6 => 176 | 7 => 64 | 8 => 64 | _ => 128
/-- Channels with data lanes. -/
def hasLanes (ch : Nat) : Bool := ch = 1 || ch = 2 || ch = 3
/-- Outbound channels (15 Table 15-3). -/
def isOutbound (ch : Nat) : Bool := ch = 0 || ch = 1 || ch = 4 || ch = 5 || ch = 7

/-- The kinds whose lanes the CRC covers (15 R377): WRITE and QMSG, READ_DATA. -/
def lanesCovered (ch flit : Nat) : Bool :=
  let kind := (flit >>> 118) % 4
  if ch = 2 then kind = 0 else hasLanes ch && (kind = 0 || kind = 1)

/-- CRC-16 of a flit, over its control bits from the highest down to bit 16 and then lane 1 and lane 0 (15 R374). -/
def flitCrc (ch flit : Nat) : Nat :=
  let w := BitVec.ofNat 1152 flit
  let c := crc16 (bitsDown w (ctlBits ch - 1) 16)
  (if lanesCovered ch flit then crc16 (bitsDown w 1151 128) c else c).toNat

/-- Put SEQ and CRC into a flit's body. -/
def sealFlit (ch seq body : Nat) : Nat :=
  let f := body + (seq % 256) * 2 ^ (ctlBits ch - 8)
  f + flitCrc ch f

def State.link (s : State) (ch : Nat) : Link := tget Link.zero s.fab.links ch
def State.modLink (s : State) (ch : Nat) (f : Link → Link) : State :=
  { s with fab := { s.fab with links := tmod Link.zero s.fab.links ch f } }

/-- Send queued flits while the port is up, a credit is held and the replay buffer has room (15 R373, R375). -/
def Link.pump (ch : Nat) : Nat → Link → Link
  | 0, l => l
  | f + 1, l =>
    match l.sendq with
    | b :: r =>
      if l.credits > 0 && decide (l.replay.length < 64) then
        Link.pump ch f { l with sendq := r, credits := l.credits - 1, seq := (l.seq + 1) % 256, replay := l.replay ++ [(l.seq, sealFlit ch l.seq b, 1)] }
      else l
    | [] => l

def State.pumpLink (s : State) (ch : Nat) : State :=
  if s.pins.fpUp then s.modLink ch fun l => Link.pump ch 64 l else s

/-- Depth of an inbound channel's receive buffer (15 Table 15-3). -/
def rxDepth (ch : Nat) : Nat := match ch with | 2 => 64 | 3 => 32 | 6 => 8 | 8 => 8 | _ => 0
/-- Credits that the core has returned on an inbound channel's crd since the port came up: the buffer's depth, and one for each
entry freed (15 R373). -/
def State.returned (s : State) (ch : Nat) : Nat := if s.pins.fpUp then rxDepth ch + (s.link ch).freed else 0
/-- A buffer entry of an inbound channel is free again. -/
def State.freeRx (s : State) (ch : Nat) : State := s.modLink ch fun l => { l with freed := l.freed + 1 }

/-- Queue a flit on an outbound channel. -/
def State.send (s : State) (ch body : Nat) : State :=
  if s.pins.fpUp then (s.modLink ch fun l => { l with sendq := l.sendq ++ [body] }).pumpLink ch else s

/-! ### Bodies of the flits the core sends (15 Table 15-4) -/

def rqBody (tag addr axis : Nat) : Nat := tag * 2 ^ 60 + (addr / 128) * 2 ^ 19 + axis * 2 ^ 17
def wqWrite (tag addr : Nat) (u : Unit128) : Nat :=
  u.data.toNat * 2 ^ 128 + tag * 2 ^ 106 + (addr / 128) * 2 ^ 65 + b2n u.poison * 2 ^ 48
def wqQmsg (m : QMsg) : Nat :=
  m.data.toNat * 2 ^ 128 + 2 ^ 118 + m.sctx.toNat * 2 ^ 106 + m.place.toNat * 2 ^ 82 + m.rctx.toNat * 2 ^ 70
    + m.ncar.toNat * 2 ^ 66 + m.ticket.toNat * 2 ^ 49 + b2n m.poison * 2 ^ 48 + m.axis.toNat * 2 ^ 46
    + m.fidx.toNat * 2 ^ 43 + m.splace.toNat * 2 ^ 19
def trAck (sctx status ticket place : Nat) : Nat :=
  2 * 2 ^ 118 + sctx * 2 ^ 106 + status * 2 ^ 104 + ticket * 2 ^ 87 + place * 2 ^ 58
def trCredit (sctx cars place : Nat) : Nat := 3 * 2 ^ 118 + sctx * 2 ^ 106 + cars * 2 ^ 82 + place * 2 ^ 58
def voVote (m : VoteMsg) : Nat :=
  m.place.toNat * 2 ^ 142 + m.vg.toNat * 2 ^ 138 + m.tick.toNat * 2 ^ 74 + m.step.toNat * 2 ^ 42 + b2n m.ok * 2 ^ 41
    + b2n m.stepErr * 2 ^ 40 + m.reason.toNat * 2 ^ 32 + m.count.toNat * 2 ^ 16
def voDecision (m : DecMsg) : Nat :=
  2 ^ 166 + m.place.toNat * 2 ^ 142 + m.vg.toNat * 2 ^ 138 + m.tick.toNat * 2 ^ 74 + b2n m.commit * 2 ^ 41 + m.reason.toNat * 2 ^ 32
def boMsg (release : Bool) (m : BarMsg) : Nat :=
  b2n release * 2 ^ 54 + m.place.toNat * 2 ^ 30 + m.bar.toNat * 2 ^ 26 + m.gen.toNat * 2 ^ 18

end Sys2Proof.Machine
end

