-- ==== Sys2Proof/Machine/QueueOps.lean ====
section
/-!
DEFINITION. Shared operations of the queue system (06 R143 to R156): quotas, tickets, entries, delivery to a consumer.
-/

namespace Sys2Proof.Machine

def State.ctx (s : State) (n : Nat) : Ctx := tget Ctx.zero s.qsy n
def State.modCtx (s : State) (n : Nat) (f : Ctx → Ctx) : State := { s with qsy := tmod Ctx.zero s.qsy n f }

/-- Contexts marked "Unusable" (06 Table 6-3). -/
def ctxUnusable (n : Nat) : Bool := (48 ≤ n && n ≤ 55) || (58 ≤ n && n ≤ 63)

/-- The fixed class of a reserved context (06 Table 6-3). -/
def ctxFixed (n : Nat) : Option Nat :=
  if n ≤ 7 then some 1 else if n ≤ 15 then some 2 else if n ≤ 31 then some 3 else if n ≤ 47 then some 4
  else if n = 56 || n = 57 then some 7 else none

def State.ctxClass (s : State) (n : Nat) : Nat := (ctxFixed n).getD (fld (s.ctx n).w0 63 61)

/-- Does logical channel n have a physical channel (06 R167)? -/
def State.chanMapped (s : State) (ch : Nat) : Bool := decide (ch + (tget [] s.rep.applied 4).length < 17)

/-- BOUND as commands see it. -/
def State.ctxBound (s : State) (n : Nat) : Bool :=
  bit (s.ctx n).w0 60 && !ctxUnusable n && (!(decide (16 ≤ n) && decide (n ≤ 31)) || s.chanMapped (n - 16))

def entryCars (l : List Entry) : Nat := (l.map fun e => e.cars.length).sum

/-- Cars that a held write occupies (11 R281). -/
def Held.cars : Held → Nat | .wr _ => 3 | .entry _ e => e.cars.length

/-- Cars of entries being assembled for a context (15 R382). -/
def State.asmCars (s : State) (n : Nat) : Nat := ((s.fab.asm.filter fun a => a.rctx = n && a.ok).map (·.ncar)).sum

/-- OCC: the cars a context holds. -/
def State.occ (s : State) (n : Nat) : Nat :=
  entryCars (s.ctx n).entries + s.asmCars n +
  (if n = 56 then (s.cA.held.map Held.cars).sum else if n = 57 then (s.cX.held.map Held.cars).sum else 0)

def State.minq (s : State) (n : Nat) : Nat := fld (s.ctx n).w0 59 44
def State.maxq (s : State) (n : Nat) : Nat := fld (s.ctx n).w0 43 28

/-- Sum of MINQ over the bound contexts (06 R146). -/
def State.minSum (s : State) : Nat := (s.qsy.map fun (n, _) => if s.ctxBound n then s.minq n else 0).sum

/-- Cars of the shared pool that are free (06 R147). -/
def State.poolFree (s : State) : Nat :=
  s.rf 0x2048 15 0 - s.minSum - (s.qsy.map fun (n, _) => if s.ctxBound n then s.occ n - s.minq n else 0).sum

/-- May a push of `k` cars proceed (06 R147)? -/
def State.canAlloc (s : State) (n k : Nat) : Bool :=
  let o := s.occ n
  decide (o + k ≤ s.maxq n) && decide ((o + k - s.minq n) - (o - s.minq n) ≤ s.poolFree)

/-- Take a context out of service on a ticket fault: waiting consumers are withdrawn and halt, a channel that waits
completes with QUEUE_ERROR (06 R150). A later halt names the ticket discarded last: log entry 127, DESIGN CHOICE. -/
def State.ticketFault (s : State) (n t : Nat) : State :=
  let cons := (s.ctx n).cons
  let s := s.modCtx n fun c => { c with ordflt := true, badTkt := t, cons := [] }
  cons.foldl (fun s k =>
    if k.agent < 2 then s.deferHalt (natSid k.agent) 0x08 (t * 4096 + n) k.tag k.slot k.lw
    else s.modChan (k.agent - 2) k.lw fun c => c.setStatus 8) s

/-- Write an entry with its ticket into a context (06 R150). -/
def State.hold (s : State) (n : Nat) (e : Entry) : State :=
  let c := s.ctx n
  let d := (e.tkt + 65536 - c.et) % 65536
  if d ≥ 32768 || c.entries.any fun x => x.tkt = e.tkt then s.ticketFault n e.tkt
  else s.modCtx n fun c => { c with entries := c.entries ++ [e] }

/-- Push an entry: the ticket comes from NT, which advances, or is explicit (06 R149). -/
def State.pushNow (s : State) (n : Nat) (tkt : Option Nat) (e : Entry) : State :=
  let t := tkt.getD (s.ctx n).nt
  let s := if tkt.isNone then s.modCtx n fun c => { c with nt := (c.nt + 1) % 65536 } else s
  s.hold n { e with tkt := t }

/-- A ticket-only entry, and an entry of cars. -/
def mkEntry (cars : List Car) : Entry := ⟨0, cars, none, none, none⟩
def ticketOnly : Entry := mkEntry [⟨0, false, .good⟩]

/-- Cars of a byte string, 64 bytes each. -/
def carsOf (bs : List Byte) : List Car :=
  (upto (ceilDiv bs.length 64)).map fun i => ⟨BitVec.ofNat 512 (leNat ((bs.drop (64 * i)).take 64)), false, .good⟩

def Entry.bytes (e : Entry) : List Byte := e.cars.flatMap fun c => bytesOf c.data 64
def Entry.poisoned (e : Entry) : Bool := e.cars.any (·.poison)

/-- An engine's push (08 R215, R216), with an explicit ticket or the context's: it waits its turn behind earlier pushes, then for quota.
`agent` as in `Prod`. A context that is not bound any more takes nothing: log entry 155, DESIGN CHOICE. -/
def State.enginePushT (s : State) (agent n : Nat) (tkt : Option Nat) (e : Entry) : State :=
  if !s.ctxBound n then s else
  if (s.ctx n).prod.isEmpty && s.canAlloc n e.cars.length then s.pushNow n tkt e
  else s.modCtx n fun c => { c with prod := c.prod ++ [⟨agent, tkt, e⟩] }

def State.enginePush (s : State) (n : Nat) (e : Entry) : State := s.enginePushT 32 n none e

def State.ctTicket (s : State) (n : Nat) : State := s.enginePush n ticketOnly

/-- The first waiting producer proceeds in full (06 R147). The result says which agent proceeded. -/
def State.quotaProceed (s : State) (n : Nat) : State × Option Nat :=
  match (s.ctx n).prod with
  | p :: r =>
    if s.ctxBound n && s.canAlloc n p.entry.cars.length then
      ((s.modCtx n fun c => { c with prod := r }).pushNow n p.tkt p.entry, some p.agent)
    else (s, none)
  | [] => (s, none)

/-- The entry that carries ET, if held. -/
def Ctx.headEntry (c : Ctx) : Option Entry := c.entries.find? fun e => e.tkt = c.et

/-- Take the head entry: ET advances, its cars are free, and a remote sender gets its credit (06 R151, 15 R382). -/
def State.takeHead (s : State) (n : Nat) (e : Entry) : State :=
  let s := s.modCtx n fun c => { c with et := (c.et + 1) % 65536, entries := c.entries.filter fun x => x.tkt ≠ e.tkt }
  match e.src with
  | some (place, sctx) => s.send 4 (trCredit sctx e.cars.length place)
  | none => s

/-- The logical number of a car, which the spec gives no allocation for: a free value (06 R153). Log entry 50, DESIGN CHOICE. -/
def State.carNumber (s : State) : State × Nat :=
  ({ s with freeCount := s.freeCount + 1 }, fld (Config.freeValue s.freeCount) 14 0)

/-- Reading an entry's cars: an uncorrectable car sets its POISON, is recorded, and its group of 32 cars is marked failed (06
R141, 14 Table 14-4). The last is the number of the entry's first poisoned car, where that is one whose check failed (R153). -/
def State.readCars (s : State) (who : Option (Sid × W16)) (e : Entry) : State × Entry × Option Nat :=
  let z := (e.cars.filter fun c => decide (c.ecc = .bad)).foldl (fun (q : State × Option Nat) _ =>
    let (s, car) := q.1.carNumber
    let s := s.fault 0x02 2 who car
    (match s.physOf 6 (car / 32) with | some u => s.markUnit 6 u | none => s, some (q.2.getD car))) (s, none)
  (z.1, { e with cars := e.cars.map fun c => { c with poison := c.poison || decide (c.ecc = .bad), ecc := .good } },
    match e.cars.find? fun c => c.poison || decide (c.ecc = .bad) with
    | some c => if c.ecc = .bad then z.2 else none
    | none => none)

/-- Deliver an entry to a stream's consumer (06 R152, R153, 08 R220): the new state and the registers written. A poisoned
entry bound for a register halts the stream, deferred, and names its first poisoned car. -/
def State.deliver (s : State) (n : Nat) (k : Cons) (e : Entry) : State × List RegWr :=
  let st := natSid k.agent
  let lenW := match k.lenReg with | some r => [RegWr.mk 0 r e.cars.length] | none => []
  let (s, e, bad) := s.readCars (some (st, k.tag)) e
  let s := if e.poisoned then s.modCtx n fun c => { c with poison := true } else s
  let s := s.takeHead n e
  match k.dst with
  | .reg r =>
    if e.poisoned then
      let (s, car) := match bad with
        | some car => (s, car)
        | none => let (s, car) := s.carNumber; (s.fault 0x02 2 (some (st, k.tag)) car, car)
      let s := s.abortIf st k.cs 3 2
      (s.noteHalt st 0x0B (2 ^ 47 + car) k.tag k.slot, [])
    else (s, lenW ++ [⟨0, r, (match e.cars with | c :: _ => fld c.data 31 0 | [] => 0)⟩])
  | .mem addrs => (s.asBeat fun s => s.writePairs (some st) k.cs (addrs.zip e.bytes) e.poisoned, lenW)
  | _ => (s, lenW)

/-- A pop's write to a Method R block not yet copied waits (13 R340): the block that holds it back. -/
def State.popBlock (s : State) (n : Nat) (k : Cons) : Option (Nat × Nat) :=
  match k.dst, (s.ctx n).headEntry with
  | .mem addrs, some e => s.blockOfPairs (some (natSid k.agent)) k.cs (addrs.zip e.bytes)
  | _, _ => none

/-- A pop that waits for a block has it copied first. -/
def State.stallPop (s : State) (n : Nat) (k : Cons) : State :=
  match s.popBlock n k with
  | some p => s.stallOn (20 + k.agent) (n * 65536 + (s.ctx n).et) p
  | none => s

/-- The turn of a stream's consumer at the head (06 R151, R152): none while it must wait. A QWAIT whose expected ticket
is not ET halts, deferred, and takes nothing. -/
def State.consumerTurn (s : State) (n : Nat) (k : Cons) : Option (State × List RegWr) :=
  let c := s.ctx n
  if c.ordflt then none
  else match k.expect with
    | some t => if t = c.et then c.headEntry.map fun e => s.deliver n k e
                else some (s.noteHalt (natSid k.agent) 0x08 (t * 4096 + n) k.tag k.slot, [])
    | none => if (s.popBlock n k).isSome then none else c.headEntry.map fun e => s.deliver n k e

/-! ### Configuration of a context by the host or a CTXLOAD (06 R143 to R148) -/

/-- W0 as it reads (06 Table 6-5). -/
def State.readW0 (s : State) (n : Nat) : W64 :=
  if ctxUnusable n then 0
  else putFld (putFld (s.ctx n).w0 63 61 (s.ctxClass n)) 60 60 (b2n (s.ctxBound n))
def State.readW2 (s : State) (n : Nat) : W64 :=
  let c := s.ctx n
  BitVec.ofNat 64 (c.credit * 2 ^ 48 + c.nt * 2 ^ 32 + c.et * 2 ^ 16 + s.occ n % 2 ^ 16)
def State.readW3 (s : State) (n : Nat) : W64 :=
  let c := s.ctx n
  BitVec.ofNat 64 (b2n c.ordflt * 128 + b2n c.poison * 64 + b2n c.reject * 32 +
    b2n (!c.cons.isEmpty && (c.ordflt || c.headEntry.isNone)) * 16 + b2n (!c.prod.isEmpty) * 8)

def State.qsyDeny (s : State) (b : Nat) : State := s.setRf 0x2040 b b 1

/-- The context a queue command names (08 R219). -/
def qctx (t : Stream) (c : Slot) : Nat := if bit c.base 47 then (t.rdN (c.f 37 35)).toNat else c.f 46 35

/-- The context of a push that waits for its stream's own writes (01 R18), by the registers with which it issued (07 R170). -/
def Stream.heldPush (t : Stream) : Option Nat :=
  match t.wait with
  | some w =>
    if w.kind = .stores then some (if w.cmd.opc = 0x20 then qctx (w.snap.foldl Stream.wrReg t) w.cmd else 16 + w.cmd.f 47 44) else none
  | none => none

/-- Does something wait on a context, or is an entry in assembly (06 R148)? -/
def State.ctxInUse (s : State) (n : Nat) : Bool :=
  let c := s.ctx n
  !c.cons.isEmpty || !c.prod.isEmpty || s.sA.heldPush = some n || s.sX.heldPush = some n || (s.fab.asm.any fun a => decide (a.rctx = n) && a.ok) ||
  (decide (n = 56) && !s.cA.held.isEmpty) || (decide (n = 57) && !s.cX.held.isEmpty)

/-- A write of W0: binding, unbinding, class and quotas. Log entry 47, DEDUCED. -/
def State.writeW0 (s : State) (n : Nat) (v : W64) : State :=
  let v := putFld v 25 0 0
  if ctxUnusable n then s.qsyDeny 0
  else if s.ctxBound n && bit v 60 then s.qsyDeny 1
  else if s.ctxBound n && s.ctxInUse n then s.qsyDeny 1
  else
    let cls := (ctxFixed n).getD (fld v 63 61)
    let v := putFld v 63 61 cls
    if (ctxFixed n).isNone && !(cls = 0 || cls = 4 || cls = 5 || cls = 6) then s.qsyDeny 0
    else
      let minq := fld v 59 44
      let maxq := fld v 43 28
      let others := s.minSum - (if s.ctxBound n then s.minq n else 0)
      if decide (maxq < minq) || ((n = 56 || n = 57) && decide (maxq > 8192)) ||
         (bit v 60 && decide (others + minq > s.rf 0x2048 15 0)) then s.qsyDeny 2
      else if s.ctxBound n then s.modCtx n fun c => { c with w0 := v, entries := [] }
      else if bit v 60 then
        s.modCtx n fun c => { c with w0 := v, nt := 0, et := 0, entries := [], credit := if cls = 5 then maxq else c.credit }
      else s.modCtx n fun c => { c with w0 := v }

/-- A write of W1: ignored while BOUND reads 1 (06 R145, R167). -/
def State.writeW1 (s : State) (n : Nat) (v : W64) : State :=
  if ctxUnusable n then s.qsyDeny 0
  else if s.ctxBound n then s.qsyDeny 1
  else s.modCtx n fun c => { c with w1 := putFld v 63 36 0 }

/-- A write of W3: the W1C bits. -/
def State.writeW3 (s : State) (n : Nat) (v : W64) : State :=
  if ctxUnusable n then s.qsyDeny 0
  else s.modCtx n fun c => { c with ordflt := c.ordflt && !bit v 7, poison := c.poison && !bit v 6, reject := c.reject && !bit v 5 }
end Sys2Proof.Machine
end

