-- ==== Sys2Proof/Machine/Operands.lean ====
section
/-!
DEFINITION. Operand forms and the checks of a slot: selectors (08 R208), addressing forms (07 R178 to R180, 08 R209, R210),
block-scaled descriptors (08 R211), meridian targets (08 R213), and the order of checks (09 R443).
-/

namespace Sys2Proof.Machine

/-- One check: its class in R443, whether it fails, the halt reason, the DETAIL of the halt record, and the command that
the record names where it is not the one checked (05 R119). -/
structure Chk where
  cls : Nat
  bad : Bool
  rsn : Nat
  det : Nat
  who : Option Slot
deriving DecidableEq, Repr

def chk (cls : Nat) (bad : Bool) (rsn : Nat) (det : Nat := 0) : Chk := ⟨cls, bad, rsn, det, none⟩

/-- The first failing check: lowest class first, then the order of the list (09 R443). -/
def firstFail (l : List Chk) : Option Chk :=
  (upto 7).findSome? fun k => l.find? fun c => c.cls = k && c.bad

/-- The guard of a command (08 R206). -/
def guardTrue (t : Stream) (c : Slot) : Bool := t.rdP c.gp ^^ c.gn

/-! ### Addressing forms -/

/-- A form with its registers read. `szBad`: an N-register size above 2^20; `enc`: its encoding is in range. -/
structure Form where
  base : Int
  ty : Nat
  s0 : Nat
  s1 : Nat
  s2 : Nat
  d0 : Int
  d1 : Int
  d2 : Int
  szBad : Bool
  enc : Bool
deriving DecidableEq, Repr

/-- Registers as a command reads them. -/
structure Regs where
  a : Tbl W48
  n : Tbl W32
deriving DecidableEq, Repr

def Regs.A (r : Regs) (i : Nat) : Nat := (tget 0 r.a i).toNat
def Regs.N (r : Regs) (i : Nat) : W32 := tget 0 r.n i
def Stream.regs (t : Stream) : Regs := ⟨t.a, t.n⟩

/-- A compact form (08 Table 8-3). A size from an N register leaves the size field's bits above [2:0] 0, else the slot halts:
log entry 117, DESIGN CHOICE. -/
def compactForm (r : Regs) (w : W64) : Form :=
  let szn := bit w 54
  let imm := fld w 29 9
  let s0 := if szn then (r.N (imm % 8)).toNat else imm
  let ty := fld w 59 55
  ⟨(r.A (fld w 63 60) : Int) + sfld w 53 30, ty, s0, 1, 1, fmtBytes ty, 0, 0,
   szn && decide (s0 > 2 ^ 20), decide (fld w 8 0 = 0) && (if szn then decide (imm < 8) else decide (1 ≤ imm) && decide (imm ≤ 2 ^ 20))⟩

/-- A full form (08 Table 8-4). -/
def fullForm (r : Regs) (w0 w1 w2 : W64) : Form :=
  let size := fun (k hi lo : Nat) => if bit w0 (52 + k) then (r.N (fld w1 hi lo % 8)).toNat else fld w1 hi lo
  let okSz := fun (k hi lo : Nat) =>
    if bit w0 (52 + k) then decide (fld w1 hi lo < 8) else decide (1 ≤ fld w1 hi lo) && decide (fld w1 hi lo ≤ 2 ^ 20)
  let big := fun (k hi lo : Nat) => bit w0 (52 + k) && decide (size k hi lo > 2 ^ 20)
  ⟨(r.A (fld w0 63 60) : Int) + sfld w0 51 28, fld w0 59 55, size 0 63 43, size 1 42 22, size 2 21 1,
   sfld w2 63 40, sfld w2 39 16, sfld w0 27 4, big 0 63 43 || big 1 42 22 || big 2 21 1,
   decide (fld w0 3 0 = 0) && decide (fld w1 0 0 = 0) && decide (fld w2 15 0 = 0) && okSz 0 63 43 && okSz 1 42 22 && okSz 2 21 1⟩

def Form.count (f : Form) : Nat := f.s0 * f.s1 * f.s2
/-- Address of element e, exact (07 R179). -/
def Form.addr (f : Form) (e : Nat) : Int :=
  f.base + (e % f.s0 : Nat) * f.d0 + (e / f.s0 % f.s1 : Nat) * f.d1 + (e / (f.s0 * f.s1) : Nat) * f.d2
def Form.addrN (f : Form) (e : Nat) : Nat := (f.addr e).toNat

def Form.low (f : Form) : Int := f.base + min 0 (((f.s0 : Int) - 1) * f.d0) + min 0 (((f.s1 : Int) - 1) * f.d1) + min 0 (((f.s2 : Int) - 1) * f.d2)
def Form.high (f : Form) : Int := f.base + max 0 (((f.s0 : Int) - 1) * f.d0) + max 0 (((f.s1 : Int) - 1) * f.d1) + max 0 (((f.s2 : Int) - 1) * f.d2)

/-- Does an address range leave the scratchpad (06 R134)? -/
def outside (lo hi : Int) : Bool := decide (lo < 0) || decide (hi > 0xFFFFFF)

/-- Does a destination range overlap a configured shadow region (11 R282)? -/
def State.inShadow (s : State) (lo hi : Int) : Bool :=
  [Sid.a, Sid.x].any fun st =>
    decide (s.shadowWords st ≠ 0) && decide (lo < s.shadowBase st + 128 * s.shadowWords st) && decide ((s.shadowBase st : Int) ≤ hi)

/-- Checks of a form (07 R180): `types` the accepted types, `need` the elements it must yield, `dst` whether it is written. A
form that yields no elements is checked for its encoding, its alignment and the command's length. -/
def formChks (s : State) (f : Form) (types : List Nat) (need : Nat) (dst : Bool) : List Chk :=
  let z := max 1 (fmtBytes f.ty)
  let empty := decide (f.count = 0)
  [chk 1 (!f.enc) 3,
   chk 2 (!empty && (!isFormFmt f.ty || !types.contains f.ty)) 5,
   chk 3 (!empty && f.szBad) 3,
   chk 3 (!empty && outside f.low (f.high + z - 1)) 3,
   chk 3 (dst && !empty && s.inShadow f.low (f.high + z - 1)) 3,
   chk 4 (decide (f.base % z ≠ 0) || decide (f.d0 % z ≠ 0) || decide (f.d1 % z ≠ 0) || decide (f.d2 % z ≠ 0)) 4,
   chk 5 (decide (f.count < need)) 6]

/-- Extension words that follow a selector (08 Table 8-2). -/
def selWords (sel : Nat) : Nat :=
  if sel = 0x10 || sel = 0x11 then 1 else if sel = 0x12 || sel = 0x1C then 3
  else if (0x14 ≤ sel && sel ≤ 0x1A && sel ≠ 0x1B) then 1 else 0

def isN (sel : Nat) : Bool := 8 ≤ sel && sel ≤ 15
def isK (sel : Nat) : Bool := 1 ≤ sel && sel ≤ 4
def isForm (sel : Nat) : Bool := sel = 0x11 || sel = 0x12
def isFtq (sel : Nat) : Bool := 0x14 ≤ sel && sel ≤ 0x17
def isVecSel (sel : Nat) : Bool := sel = 0x18 || sel = 0x19

/-- The form that a selector and its words name. -/
def selForm (r : Regs) (c : Slot) (sel at' : Nat) : Form :=
  if sel = 0x12 then fullForm r (c.x at') (c.x (at' + 1)) (c.x (at' + 2)) else compactForm r (c.x at')

/-- All types an addressing form knows. -/
def anyForm : List Nat := [0, 1, 2, 3, 4, 5, 6, 7, 8]

/-! ### Block-scaled descriptors (08 R211, Table 8-5) -/

structure Bsd where
  eb : Int
  sb : Int
  fmt : Nat
  sq : Bool
  rows : Nat
  cols : Nat
  estr : Int
  ts : Nat
  tsn : Nat
  enc : Bool
deriving DecidableEq, Repr

def readBsd (r : Regs) (w0 w1 w2 : W64) : Bsd :=
  ⟨(r.A (fld w0 63 60) : Int) + sfld w0 59 36, (r.A (fld w0 35 32) : Int) + sfld w0 31 8, fld w0 7 3, bit w0 2 && isBlockFmt (fld w0 7 3),
   fld w1 63 43, fld w1 42 22, sfld w2 63 40, fld w2 15 14, fld w2 13 11,
   decide (fld w0 1 0 = 0) && decide (fld w1 21 0 = 0) && decide (fld w2 39 16 = 0) && decide (fld w2 10 0 = 0) &&
   decide (1 ≤ fld w1 63 43) && decide (fld w1 63 43 ≤ 2 ^ 20) && decide (1 ≤ fld w1 42 22) && decide (fld w1 42 22 ≤ 2 ^ 20) &&
   decide (fld w2 15 14 < 2)⟩

/-- Bytes of a row of a block's element field, and of a side record (02 Table 2-3A, R37). -/
def Bsd.fb (b : Bsd) : Nat := 4 * fmtBits b.fmt
def Bsd.ss (b : Bsd) : Nat := if b.fmt = 0x0A then 3 else if isBlockFmt b.fmt then 1 else 0
/-- Blocks in a row of blocks. -/
def Bsd.nb (b : Bsd) : Nat := ceilDiv b.cols 32

/-- Address of the element field of source row `r`, block column `j`: a ROW32 row at its row stride; an SQ32 block holds
its 32 rows one after another, and the stride leads from one row of blocks to the next (02 R37, 11 worked example). Log entry 14, DEDUCED. -/
def Bsd.elemAddr (b : Bsd) (r j : Nat) : Int :=
  if b.sq then b.eb + (r / 32 : Nat) * b.estr + (j * 32 * b.fb + (r % 32) * b.fb : Nat)
  else b.eb + (r : Nat) * b.estr + (j * b.fb : Nat)

/-- Address of the side record of source row `r`, block column `j`. -/
def Bsd.sideAddr (b : Bsd) (r j : Nat) : Int :=
  if b.sq then b.sb + (((r / 32) * b.nb + j) * 32 + r % 32) * b.ss else b.sb + (r * b.nb + j) * b.ss

/-- Extents of the two planes. -/
def Bsd.elemExt (b : Bsd) : Int × Int :=
  let span : Int := (((if b.sq then ceilDiv b.rows 32 else b.rows) : Int) - 1) * b.estr
  let rowLen : Int := if !isBlockFmt b.fmt then (b.cols * fmtBits b.fmt / 8 : Nat) else if b.sq then (b.nb * 32 * b.fb : Nat) else (b.nb * b.fb : Nat)
  (b.eb + min 0 span, b.eb + max 0 span + rowLen - 1)
def Bsd.sideExt (b : Bsd) : Int × Int :=
  (b.sb, b.sb + (if b.sq then ceilDiv b.rows 32 * b.nb * 32 else b.rows * b.nb : Nat) * b.ss - 1)

/-- Checks of a descriptor (08 R211, R212, 03 Table 3-3). `tsOk`: the TS fields are read (TTF). -/
def bsdChks (s : State) (b : Bsd) (tsOk dst : Bool) : List Chk :=
  [chk 1 (!b.enc || (!tsOk && decide (b.ts ≠ 0)) || (!tsOk && decide (b.tsn ≠ 0))) 3,
   chk 2 (!isBsdFmt b.fmt) 5,
   chk 3 (outside b.elemExt.1 b.elemExt.2) 3,
   chk 3 (decide (b.ss ≠ 0) && outside b.sideExt.1 b.sideExt.2) 3,
   chk 3 (dst && (s.inShadow b.elemExt.1 b.elemExt.2 || (decide (b.ss ≠ 0) && s.inShadow b.sideExt.1 b.sideExt.2))) 3,
   chk 4 (decide (b.eb % 64 ≠ 0) || decide (b.estr % 64 ≠ 0)) 4]

/-! ### Meridian targets (08 R213) -/

/-- Words, value and checks of an MT field against the local meridian. -/
def mtWords (mt : Nat) : Nat := if (mt >>> 4) % 2 = 1 then 1 else 0

def mtTarget (s : State) (t : Stream) (c : Slot) (mt at' : Nat) : W64 :=
  let nr := mt % 8
  if (mt >>> 5) % 2 = 1 then
    (if (mt >>> 4) % 2 = 1 then c.x at' else BitVec.ofNat 64 ((t.rdN nr).toNat + (t.rdN (nr + 1)).toNat * 2 ^ 32))
  else
    let off : Int := if (mt >>> 4) % 2 = 1 then sgn 32 (fld (c.x at') 31 0) else sgn 32 (t.rdN nr).toNat
    BitVec.ofNat 64 ((s.now.toNat : Int) + off).toNat

def mtChks (s : State) (t : Stream) (c : Slot) (mt at' : Nat) : List Chk :=
  let abs := decide ((mt >>> 5) % 2 = 1)
  let imm := decide ((mt >>> 4) % 2 = 1)
  let tg := mtTarget s t c mt at'
  [chk 1 (decide ((mt >>> 3) % 2 = 1)) 3,
   chk 1 (abs && !imm && decide (mt % 2 = 1)) 3,
   chk 3 (abs && decide (s.mer.st ≠ .unlocked) && decide (tg.toNat > s.now.toNat + 2 ^ 31 - 1)) 0x11 (tg.toNat % 2 ^ 32)]

/-- Registers that an MT field reads. -/
def mtRegs (mt : Nat) : List (Nat × Nat) :=
  if (mt >>> 4) % 2 = 1 then [] else if (mt >>> 5) % 2 = 1 then [(0, mt % 8), (0, (mt + 1) % 8)] else [(0, mt % 8)]

/-- A target strictly before the count sets LATE (08 R213). Log entry 64, DEDUCED. -/
def State.lateMark (s : State) (tg : W64) : State := if tg.toNat < s.now.toNat then s.setRf 0x1000 4 4 1 else s

end Sys2Proof.Machine
end

