-- ==== Sys2Proof/Machine/Cmd.lean ====
section
/-!
DEFINITION. What issuing one command can do, and the checks that every slot shares (08 R206, R207, 09 R443).
-/

namespace Sys2Proof.Machine

/-- The long word a command stands in: its address and length, the stream's accesses in flight and the VE's last serial when
it issues. -/
structure LwInfo where
  addr : Nat
  len : Nat
  scal : Nat
  ve : Nat
deriving DecidableEq, Repr

/-- What a command does at issue. `late` are register writes that later slots of the word do not see (07 R170).
`wait`: a class-W command whose condition is not met. `stall`: the word does not issue in this ac, for the named wait.
`jump`: a control command that sets the next address. -/
inductive Res where
  | ok (s : State) (late : List RegWr)
  | wait (s : State) (k : WaitKind) (late : List RegWr)
  | stall (kind num : Nat)
  | jump (s : State) (next : Nat)
deriving DecidableEq, Repr

/-- Does a read of these bytes wait for a write of an earlier long word? Log entry 55, DEDUCED. -/
def State.readWaits (s : State) (st : Sid) (lw : LwInfo) (a n : Nat) : Bool := s.memAhead st lw.scal lw.ve ((upto n).map (a + ·))

/-- A command's meaning at issue: the registers it names (kind 0 N, 1 A, 2 P, 3 key, 4 schedule), those it writes, whether it is of class
W, its checks, and its effect where its guard is true and every check holds. -/
structure CmdSem where
  regs : Slot → List (Nat × Nat)
  dst : Slot → List (Nat × Nat)
  isW : Slot → Bool
  chk : State → Sid → Slot → LwInfo → List Chk
  run : State → Sid → Slot → LwInfo → Res

/-- All of these bit ranges are zero (08 R207). -/
def zeroF (c : Slot) (l : List (Nat × Nat)) : Bool := l.all fun p => decide (c.f p.1 p.2 = 0)
/-- A reserved field is zero, XW agrees. Log entry 61, DEDUCED. -/
def encChks (c : Slot) (xw : Nat) (res : List (Nat × Nat)) : List Chk := [chk 1 (!zeroF c res) 3, chk 1 (decide (c.xw ≠ xw)) 3]

/-- Instructions that may carry CT, and the context of their entry (08 Table 8-9). -/
def ctCtx (c : Slot) : Option Nat :=
  let o := c.opc
  if o = 0x31 then some 8
  else if o = 0x30 then some (if bit c.base 45 then 10 else 9)
  else if (0x40 ≤ o && o ≤ 0x5D) || o = 0x68 || (o = 0x6A && c.f 47 46 = 1) then some 11
  else if 0x60 ≤ o && o ≤ 0x64 then some 12
  else if o = 0x2D then some (if c.f 37 35 = 2 then 13 else 14)
  else if o = 0x29 || o = 0x2A || o = 0x2B then some 15 else none

/-- Opcodes that carry no guard (07 R174). -/
def noGuard (o : Nat) : Bool := o = 0x10 || o = 0x12 || o = 0x14 || o = 0x1F || o = 0x5F

/-- Checks of the header (08 R207, R215). -/
def headChks (s : State) (c : Slot) : List Chk :=
  [chk 1 (noGuard c.opc && (c.gn || decide (c.gp ≠ 0))) 3,
   chk 1 (c.ct && (ctCtx c).isNone) 3,
   chk 6 (c.ct && match ctCtx c with | some n => !s.ctxBound n | none => false) 9 ((ctCtx c).getD 0)]

/-- Bytes of an IMEM bank (07 R169), and the offset of a stream's debug registers (09 R255). -/
def bankTop : Nat := 0x20000
def dbgBase (st : Sid) : Nat := 0x8000 + 0x40 * sidNat st

/-- Relations of SCMP and BRC (08 Table 8-10). -/
def relHolds (u : Bool) (rel : Nat) (a b : W32) : Bool :=
  let lt := if u then decide (a.toNat < b.toNat) else decide (a.toInt < b.toInt)
  match rel with
  | 0 => a = b
  | 1 => !decide (a = b)
  | 2 => lt
  | 3 => lt || decide (a = b)
  | 4 => !lt && !decide (a = b)
  | _ => !lt

end Sys2Proof.Machine
end

