-- ==== Sys2Proof/Machine/Feeds.lean ====
section
/-!
DEFINITION. The fields of TTF and MXP that other units look at, and the tiles that a feed has still to make ready (03 R70, R73,
04 R81, R96, R100).
-/

namespace Sys2Proof.Machine

/-- Fields of a TTF slot (08 Table 8-12). -/
def ttfLcnt (c : Slot) : Nat := fld (c.x 0) 42 35
def ttfKcnt (c : Slot) : Nat := c.f 36 16
def mxpM (c : Slot) : Nat := c.f 43 36
def mxpN (c : Slot) : Nat := c.f 35 28
def Pass.lim (p : Pass) (north : Bool) : Nat := if north then mxpN p.c else mxpM p.c
def feedFmt (f : Feed) : Nat := fld (f.c.x 1) 7 3

/-- Does the governor let the engines issue (16 R412)? Its bound is the lower of what is requested and what is granted; below 2 it
holds array passes, turntable tiles and VE beats. Log entry 138, DESIGN CHOICE. -/
def State.granted (s : State) : Bool := decide (2 ≤ min (s.rf 0x6008 11 8) (s.rf 0x6008 15 12))

/-- Does the governor hold engine work in this ac (17 Table 17-8, counter 14)? Log entry 139, DESIGN CHOICE. -/
def State.govHolds (s : State) : Bool := !s.granted && !(s.vec.ve.isEmpty && s.arr.waiting.isEmpty && s.arr.running.isEmpty)

def State.feeds (s : State) (north : Bool) : Tbl (Option Feed) := if north then s.arr.north else s.arr.west
def State.feedAt (s : State) (north : Bool) (n : Nat) : Option Feed := tget none (s.feeds north) n
/-- Lanes of a feed that a pass, if it is known, fetches (03 R70). -/
def Feed.lanes (f : Feed) (lim : Option Nat) : Nat := match lim with | some m => min m (ttfLcnt f.c) | none => ttfLcnt f.c
/-- Coordinates of a feed's tiles: every lane block of a K block, then the next K block. -/
def Feed.coords (f : Feed) (lim : Option Nat) : List (Nat × Nat) :=
  (upto (ceilDiv (ttfKcnt f.c) 32)).flatMap fun k => (upto (ceilDiv (f.lanes lim) 32)).map fun l => (l, k)
/-- The next tile to make ready. -/
def Feed.nextTile (f : Feed) (lim : Option Nat) : Option (Nat × Nat) :=
  (f.coords lim).find? fun p => !f.tiles.any fun t => t.lane = p.1 && t.k = p.2

/-- Does a feed re-quantize, so that its tiles are observed (04 Table 4-3)? -/
def Feed.requant (f : Feed) : Bool :=
  let fmt := feedFmt f
  let sq := bit (f.c.x 1) 2
  bit f.c.base 44 && isBlockFmt fmt && (!sq || fmt = 0x0A)

/-- The lanes that a waiting descriptor fetches: those inside the edge of the waiting MXP that names it (03 R70). -/
def State.feedLim (s : State) (north : Bool) (n : Nat) : Option Nat :=
  (s.arr.waiting.find? fun p => (if north then p.c.f 25 24 else p.c.f 27 26) = n).map fun p => p.lim north

/-- Has a re-quantizing feed that meets the test a tile still to make ready, and so observations to merge? -/
def State.feedOpen (s : State) (test : Feed → Bool) : Bool :=
  let due := fun (f : Option Feed) (lim : Option Nat) => match f with
    | some f => test f && f.requant && (f.nextTile lim).isSome
    | none => false
  (s.arr.running.any fun p => due p.west (some (mxpM p.c)) || due p.north (some (mxpN p.c))) ||
  (s.arr.west.any fun p => due p.2 (s.feedLim false p.1)) || s.arr.north.any fun p => due p.2 (s.feedLim true p.1)

/-- The SLOT fields of TTF and of MXP. -/
def ttfSlot (c : Slot) : Nat := c.f 43 37
def mxpSlot (c : Slot) : Nat := c.f 16 10
/-- SLOT field of a VE, UPDF or RNGK command. -/
def veSlotField (c : Slot) : Nat := if c.opc = 0x68 then c.f 17 11 else if 0x40 ≤ c.opc && c.opc ≤ 0x5D then c.f 6 0 else 0x7F

end Sys2Proof.Machine
end

