-- ==== Sys2Proof/Machine/Issue.lean ====
section
/-!
DEFINITION. Issuing a long word (07 R170 to R175, R184, R196, R444, 09 R251 to R256): its slots in order, its halt, its wait,
and the step to the next address.
-/

namespace Sys2Proof.Machine

/-! ### When a stream may issue -/

/-- A command waits at issue for the meridian to leave UNLOCKED (10 Table 10-1): a wait that STOP and a switch let end. -/
def lockStall : Nat := 9
/-- Log entry 63, DEDUCED. -/
def Stream.lockWait (t : Stream) : Bool := t.stall.any fun p => p.1 = lockStall

/-- Does a stream issue its next long word now? A boundary inside an open chain is none (07 R444). Log entry 88, DEDUCED. -/
def State.canIssue (s : State) (st : Sid) : Bool :=
  let t := s.str st
  (t.st = .running || (t.st = .stopping && (decide (t.chain > 0) || t.lockWait))) && t.wait.isNone &&
  (decide (t.chain > 0) ||
    (!t.haltReq && !t.coReq && (!t.swPend || t.lockWait) && decide (s.cstate ≠ 1) && t.pendHalt.isNone))

/-- Registers that a scratchpad access or an engine has still to write (07 R175). -/
def State.pendRegs (s : State) (st : Sid) : List (Nat × Nat) :=
  ((s.str st).scal.filter (·.isLoad)).map (fun a => (a.kind, a.idx)) ++
  match st with
  | .a => []
  | .x => s.vec.ve.flatMap (·.pend) ++ s.vec.redq.flatMap fun r => r.wr.map fun w => (w.kind, w.idx)

/-- Those of them that the long word's own commands write, given those of earlier words. -/
def State.ownPend (s : State) (st : Sid) (earlier : List (Nat × Nat)) : List (Nat × Nat) :=
  (s.pendRegs st).filter fun k => decide (k.1 < 3) && !earlier.contains k

/-- A register as a write that would restore it. -/
def Stream.rdReg (t : Stream) (k : Nat × Nat) : RegWr :=
  ⟨k.1, k.2, if k.1 = 0 then (t.rdN k.2).toNat else if k.1 = 1 then (t.rdA k.2).toNat else b2n (t.rdP k.2)⟩

def hazard (pend l : List (Nat × Nat)) : Bool := l.any fun r => pend.contains r

/-- An opcode that a slot kind admits in a stream (09 R249). -/
def kindAdmits (st : Sid) (kind opc : Nat) : Bool :=
  let x := decide (st = .x)
  match kind with
  | 0 => 0x01 ≤ opc && opc ≤ 0x0F
  | 1 => 0x01 ≤ opc && opc ≤ 0x0F
  | 2 => if x then opc = 0x30 || opc = 0x31 else opc = 0x24 || opc = 0x25
  | 3 => x && ((0x40 ≤ opc && opc ≤ 0x64) || opc = 0x68 || opc = 0x6A)
  | 4 => x && ((0x38 ≤ opc && opc ≤ 0x3E) || opc = 0x69)
  | 5 => 0x20 ≤ opc && opc ≤ 0x22
  | 6 => (0x28 ≤ opc && opc ≤ 0x2F) || opc = 0x19 || opc = 0x1F
  | 7 => 0x10 ≤ opc && opc ≤ 0x14
  | _ => false

/-- A VE or RED command in the sense of 05 R118: a member that a chain may hold. -/
def isVeOpc (o : Nat) : Bool := (0x40 ≤ o && o ≤ 0x5D) || (0x60 ≤ o && o ≤ 0x64)

/-! ### Halts at issue -/

/-- The halt of a long word that a check stops: precise, the state otherwise as before the word (07 R171, 09 R257).
IMEM_ECC names no command. -/
def State.haltAtIssue (s : State) (st : Sid) (f : Chk) (c : Option Slot) : State :=
  let pc := s.here st
  match if f.rsn = 0x0A then none else c.map fun c => f.who.getD c with
  | some c =>
    s.takeHalt st ⟨f.rsn, false, false, true, c.kind, c.tag, pc, if c.opc = 0x1F || c.opc = 0x19 then c.f 15 0 else 0, f.det⟩
  | none => s.takeHalt st ⟨f.rsn, false, false, false, 0, 0, pc, 0, f.det⟩

/-- The breaks of 09 R255 over the words' tags: the count break first. Each command comes with its DETAIL: that of a chain's member names
its long word (Table 9-8). -/
def State.breakChk (s : State) (st : Sid) (tagged : List (Slot × Nat)) : Option (Chk × Option Slot) :=
  let b := dbgBase st
  let c := (s.str st).cc.toNat
  let v := (s.rd (b + 8)).toNat
  if s.rb b 0 && decide (c < v) && decide (v ≤ c + tagged.length) then some (chk 6 true 0x16, none)
  else if s.rb b 1 then
    (tagged.find? fun t => ((t.1.tag ^^^ BitVec.ofNat 16 (s.rf (b + 16) 15 0)) &&& BitVec.ofNat 16 (s.rf (b + 16) 31 16)) = 0).map
      fun t => (chk 6 true 0x17 t.2, some t.1)
  else none

/-! ### The slots of a word -/

/-- Progress through the slots of a word. `late`: writes that later slots do not see; `lateW`: those of the class-W
command, which the control slot sees (07 R170). `pend`: the registers that earlier words have still to write; `wdst`: those that
the waiting class-W command writes when its wait ends. -/
structure Walk where
  s : State
  pend : List (Nat × Nat)
  late : List RegWr
  lateW : List RegWr
  jump : Option Nat
  wait : Option (WaitKind × Slot)
  wdst : List (Nat × Nat)
  ctl : Option Slot
deriving DecidableEq, Repr

/-- One slot's outcome. -/
inductive Walked where
  | go (w : Walk)
  | stall (kind num : Nat)
  | halt (f : Chk) (c : Slot)
deriving DecidableEq, Repr

/-- A stall that R157 does not count: for a register or a memory access of the stream's own. -/
def quietStall : Nat := 8

def State.bumpCc (s : State) (st : Sid) : State := s.modStr st fun t => { t with cc := t.cc + 1 }

/-- Does a write name one of these registers? -/
def RegWr.names (keys : List (Nat × Nat)) (w : RegWr) : Bool := keys.contains (w.kind, w.idx)

/-- The writes that other commands of the word have still under way to these registers come to nothing: a later slot, or the
end of the word's wait, writes them after (07 R170, R175). Those of earlier words have all been made. -/
def State.supersede (s : State) (st : Sid) (keys : List (Nat × Nat)) : State :=
  if keys.isEmpty then s else
  let s := s.modStr st fun t => { t with scal := t.scal.map fun a => if a.isLoad && keys.contains (a.kind, a.idx) then { a with kind := 5 } else a }
  match st with
  | .a => s
  | .x => { s with vec := { s.vec with
      ve := s.vec.ve.map fun w => { w with pend := w.pend.filter fun k => !keys.contains k }
      redq := s.vec.redq.map fun r => { r with wr := r.wr.filter fun w => !w.names keys } } }

/-- The control slot beside a waiting class-W command: it acts when the wait ends, and is checked now, but for the checks that read
that command's results (07 R171, R251). No check of a LOOP reads its count (R182). -/
def walkBeside (st : Sid) (lw : LwInfo) (w : Walk) (c : Slot) (m : CmdSem) : Walked :=
  let regs := m.regs c ++ (if c.gp = 0 then [] else [(2, c.gp)])
  if hazard w.pend regs then .stall quietStall 0
  else
    let checks := m.chk w.s st c lw ++ headChks w.s c
    let early := hazard w.wdst regs || !guardTrue (w.s.str st) c
    match firstFail (if early && decide (c.opc ≠ 0x10) then checks.filter (·.cls = 1) else checks) with
    | some f => .halt f c
    | none => .go { w with s := w.s.bumpCc st, ctl := some c }

/-- Issue one slot on the state that its earlier slots left (07 R170, R174). A member of an open chain has been checked and
has latched its operands when its VCHAIN issued (05 R119); here it only counts. -/
def walkSlot (st : Sid) (lw : LwInfo) (w : Walk) (c : Slot) (m : CmdSem) : Walked :=
  if decide ((w.s.str st).chain > 0) && isVeOpc c.opc then
    .go { w with s := (w.s.bumpCc st).modStr st fun t => { t with chain := t.chain - 1 } }
  else if w.wait.isSome && c.kind = 7 then walkBeside st lw w c m
  else
    let s := if c.kind = 7 then w.s.wrRegs st w.lateW else w.s
    let late := if c.kind = 7 then w.late.filter fun r => !w.lateW.any fun q => q.kind = r.kind && q.idx = r.idx else w.late
    let lateW := if c.kind = 7 then [] else w.lateW
    if decide (c.gp ≠ 0) && hazard w.pend [(2, c.gp)] then .stall quietStall 0
    else
      let checks := m.chk s st c lw ++ headChks s c
      if !guardTrue (s.str st) c then
        match firstFail (checks.filter (·.cls = 1)) with
        | some f => .halt f c
        | none => .go { w with s := s.bumpCc st, late := late, lateW := lateW }
      else if hazard w.pend (m.regs c) then .stall quietStall 0
      else match firstFail checks with
        | some f => .halt f c
        | none =>
          match m.run (if m.isW c then s else s.supersede st (m.dst c)) st c lw with
          | .ok s l =>
            let keys := if m.isW c then l.map fun r => (r.kind, r.idx) else m.dst c
            let old := late.filter fun r => !r.names keys
            if m.isW c then .go { w with s := (s.supersede st keys).bumpCc st, late := old, lateW := lateW ++ l }
            else .go { w with s := s.bumpCc st, late := old ++ l, lateW := lateW }
          | .wait s k l =>
            .go { w with s := s.bumpCc st, late := late, lateW := lateW ++ l, wait := some (k, c), wdst := m.dst c }
          | .stall k n => .stall k n
          | .jump s a => .go { w with s := s.bumpCc st, late := late, lateW := lateW, jump := some a }

def walkSlots (st : Sid) (lw : LwInfo) : Walk → List (Slot × CmdSem) → Walked
  | w, [] => .go w
  | w, (c, m) :: r =>
    match walkSlot st lw w c m with
    | .go w => walkSlots st lw w r
    | o => o

/-! ### The end of a word -/

/-- Loops that end at `addr`, innermost first: steps, LC, the jump back (07 R184, R185). -/
def loopEnd (addr next : Nat) : Nat → Stream → Stream × Nat
  | 0, t => (t, next)
  | k + 1, t =>
    match t.loops.getLast? with
    | some l =>
      if l.fin = addr then
        let t := { t with a := l.steps.foldl (fun (a : Tbl W48) (p : Nat × Int) => tmod 0 a p.1 fun v => BitVec.ofInt 48 ((v.toNat : Int) + p.2)) t.a }
        if l.lc = 1 then loopEnd addr next k { t with loops := t.loops.dropLast }
        else ({ t with loops := t.loops.dropLast ++ [{ l with lc := l.lc - 1 }] }, l.start)
      else (t, next)
    | none => (t, next)

/-- Registers that the loops ending at a word step. -/
def stepRegs (t : Stream) (addr : Nat) : List (Nat × Nat) :=
  (t.loops.filter (·.fin = addr)).flatMap fun l => l.steps.map fun p => (1, p.1)

/-- A load under way to an A register that a loop has stepped takes the step behind it (07 R184). -/
def Stream.carrySteps (old t : Stream) : Stream :=
  { t with scal := t.scal.map fun a => if a.isLoad && decide (a.kind = 1) then { a with add := a.add + (t.rdA a.idx - old.rdA a.idx) } else a }

/-- A deferred halt that was noted while a word issued is taken, unless a chain is open: a command that waits is withdrawn (07 R196, R197,
R444). -/
def State.takeNoted (s : State) (st : Sid) : State :=
  match (s.str st).chain, (s.str st).pendHalt with
  | 0, some h => s.takeHalt st h
  | _, _ => s

/-- Leave a word: the held-back register writes, the loops, the next address, and a deferred halt that waited for the
chain's last member (07 R444). A taken branch or a LOOP in END's own word sets the next address and ends no iteration: log
entry 119, DESIGN CHOICE. -/
def State.finishWord (s : State) (st : Sid) (lw : LwInfo) (jump : Option Nat) (late : List RegWr) : State :=
  let s := s.wrRegs st late
  let t := s.str st
  let (t, next) := match jump with
    | some a => (t, a)
    | none => let q := loopEnd lw.addr (lw.addr + lw.len) 4 t; (t.carrySteps q.1, q.2)
  (s.modStr st fun _ => { t with pc := BitVec.ofNat 17 next, wait := none, waited := 0, waitTold := false, stall := none }).takeNoted st

/-- The trace packet of a word, from TYPE and STRM on; DEST, SRC and CRC are put in when it is injected (09 R256, 15
Table 15-7). CC is taken before the word counts. -/
def tracePacket (s : State) (st : Sid) (addr : Nat) (tags : List W16) : List W64 :=
  let n := min 8 tags.length
  let lenW := 2 + ceilDiv n 4
  let tagWord := fun i => BitVec.ofNat 64 (((upto 4).map fun j => ((tags.take 8).getD (4 * i + j) 0).toNat * 2 ^ (16 * j)).sum)
  [BitVec.ofNat 64 (5 * 2 ^ 60 + lenW * 2 ^ 36 + sidNat st * 2 ^ 35 + n * 2 ^ 31), (s.str st).cc,
   BitVec.ofNat 64 (addr * 2 ^ 47 + s.bankOf st * 2 ^ 46)] ++ (upto (ceilDiv n 4)).map tagWord

/-- Issue a word. `pre`: a halt that the fetch or the structure already gives, tested before the breaks. `tagged`: the
commands that the breaks look at. -/
def State.issueWord (s : State) (st : Sid) (lw : LwInfo) (pre : Option (Chk × Option Slot)) (slots : List (Slot × CmdSem))
    (tagged : List (Slot × Nat)) : State :=
  let t := s.str st
  let lw := { lw with scal := t.scal.length, ve := s.vec.serial }
  let mode := s.rf 0x8080 1 0
  if !s.canIssue st then s
  else if (mode = 1 || mode = 2) && decide (s.ring.tr.length ≥ 64) then s
  else if hazard (s.pendRegs st) (stepRegs t lw.addr) then s
  else
    let retired := if t.fresh && decide (s.rf 8 15 13 = 4) then (slots.head?).map fun p => (chk 6 true 0x15, some p.1) else none
    let brk := if t.chain > 0 then none else s.breakChk st tagged
    match (match retired with | some r => some r | none => match pre with | some r => some r | none => brk) with
    | some (f, c) => s.haltAtIssue st f c
    | none =>
      match walkSlots st lw ⟨s.modStr st fun t => { t with fresh := false }, s.pendRegs st, [], [], none, none, [], none⟩ slots with
      | .halt f c => s.haltAtIssue st f (some c)
      | .stall k n => s.modStr st fun t => { t with stall := if k = quietStall then none else some (k, n) }
      | .go w =>
        let pkt := tracePacket s st lw.addr (slots.map fun p => p.1.tag)
        let w' := w.s.perf (1 + sidNat st) 1
        let w' := if mode = 0 then w'
          else if w'.ring.tr.length ≥ 64 then w'.incRf 0x8088 15 0
          else { w' with ring := { w'.ring with tr := w'.ring.tr ++ [pkt] } }
        match w.wait with
        | some (k, c) => (w'.modStr st fun t =>
            { t with wait := some ⟨k, c, lw.addr, lw.len, w.ctl, w.late, (w'.ownPend st w.pend).map t.rdReg⟩, waited := 0, waitTold := false, stall := none }).takeNoted st
        | none => w'.finishWord st lw w.jump (w.late ++ w.lateW)

/-! ### One command as a word of its own -/

/-- The slot of a row: its opcode put in, its extension words cut to what XW says. -/
def asOpc (opc : Nat) (c : Slot) : Slot :=
  let b := putFld c.base 63 57 opc
  { c with base := b, ext := (upto (fld b 51 48)).map fun i => c.ext.getD i 0 }
/-- As `asOpc`, with a sub-operation field put in. -/
def asSub (opc hi lo sub : Nat) (c : Slot) : Slot := asOpc opc { c with base := putFld c.base hi lo sub }

/-- Address and length of the word that a lone command makes (09 R248): the header, the slot, a pad. -/
def loneWord (s : State) (st : Sid) (c : Slot) : LwInfo := ⟨(s.str st).pc.toNat, 16 * ceilDiv (2 + c.xw) 2, 0, 0⟩

/-- The structure of such a word: the kind admits the opcode (09 R251), and a word of an open chain holds a VE or RED
command (05 R119). -/
def lonePre (s : State) (st : Sid) (c : Slot) : Option (Chk × Option Slot) :=
  if !kindAdmits st c.kind c.opc then some (chk 1 true 1, some c)
  else if (s.str st).chain > 0 && !isVeOpc c.opc then some (chk 1 true 2, some c)
  else none

/-- A row that names one command: its word issues now. Log entry 12, DEDUCED. -/
def issueRow (m : CmdSem) (st : Sid) (c : Slot) (s : State) : Host.Outcome State Fault Refusal :=
  .next (s.issueWord st (loneWord s st c) (lonePre s st c) [(c, m)] [(c, 0)])

end Sys2Proof.Machine
end

