-- ==== Sys2Proof/Machine/Scalar.lean ====
section
/-!
DEFINITION. The scalar, loop, branch and control commands (07 R176 to R190, 08 R217, R218).
-/

namespace Sys2Proof.Machine

/-- Write one register at once. -/
def State.setReg (s : State) (st : Sid) (kind idx val : Nat) : State := s.wrRegs st [⟨kind, idx, val⟩]

/-- The second operand of SADD and its like: an immediate or a register of the same kind. -/
def opT (t : Stream) (c : Slot) (kind : Nat) : Nat :=
  if bit c.base 35 then (if kind = 1 then fld (c.x 0) 47 0 else fld (c.x 0) 31 0)
  else if kind = 1 then (t.rdA (c.f 32 29)).toNat else (t.rdN (c.f 32 29)).toNat

/-- Checks shared by SADD and its like: register kinds, index ranges, the immediate's reserved bits. -/
def aluChks (c : Slot) (aOk : Bool) : List Chk :=
  let dk := c.f 47 46
  let im := bit c.base 35
  encChks c (b2n im) [(41, 40), (34, 33), (28, 0)] ++
  [chk 1 (!(decide (dk = 0) || (aOk && decide (dk = 1)))) 3,
   chk 1 (decide (dk = 0) && (decide (c.f 45 42 > 7) || decide (c.f 39 36 > 7) || (!im && decide (c.f 32 29 > 7)))) 3,
   chk 1 (im && (if dk = 1 then decide (fld (c.x 0) 63 48 ≠ 0) else decide (fld (c.x 0) 63 32 ≠ 0))) 3]

/-! ### SLI, SMOV -/

def chkSli (c : Slot) : List Chk :=
  let dk := c.f 47 46
  encChks c 1 [(41, 0)] ++
  [chk 1 (decide (dk > 1)) 3, chk 1 (decide (dk = 0) && decide (c.f 45 42 > 7)) 3,
   chk 1 (if dk = 1 then decide (fld (c.x 0) 63 48 ≠ 0) else decide (fld (c.x 0) 63 32 ≠ 0)) 3]

def runSli (s : State) (st : Sid) (c : Slot) : Res :=
  .ok (s.setReg st (c.f 47 46) (c.f 45 42) (fld (c.x 0) (if c.f 47 46 = 1 then 47 else 31) 0)) []

def chkSmov (c : Slot) : List Chk :=
  let dk := c.f 47 46
  let sk := c.f 41 40
  encChks c 0 [(35, 0)] ++
  [chk 1 (decide (dk = 3)) 3, chk 1 (decide (dk ≠ 1) && decide (c.f 45 42 > 7)) 3, chk 1 (decide (sk ≠ 1) && decide (c.f 39 36 > 7)) 3]

/-- The value an SMOV reads, and the new latch of the meridian's high half (07 R173, R177). Log entry 58, DEDUCED. -/
def smovSource (s : State) (t : Stream) (sk i : Nat) : Nat × Option W32 :=
  match sk with
  | 0 => ((t.rdN i).toNat, t.mhi)
  | 1 => ((t.rdA i).toNat, t.mhi)
  | 2 => (b2n (t.rdP i), t.mhi)
  | _ =>
    if i < 4 then ((t.lcn i).toNat, t.mhi)
    else if i = 4 then (fld t.cc 31 0, t.mhi)
    else if i = 5 then (fld t.cc 63 32, t.mhi)
    else if i = 6 then (fld s.now 31 0, some (BitVec.ofNat 32 (fld s.now 63 32)))
    else match t.mhi with
      | some h => (h.toNat, none)
      | none => (fld s.now 63 32, none)

/-- The value as the destination takes it: N to A sign-extends, A to N takes the low 32 bits (07 R176, 08 R218). -/
def smovConvert (dk sk v : Nat) : Nat :=
  match dk with
  | 0 => v % 2 ^ 32
  | 1 => if sk = 1 || sk = 2 then v else (sgn 32 (v % 2 ^ 32) % 2 ^ 48).toNat
  | _ => b2n (decide (v ≠ 0))

def runSmov (s : State) (st : Sid) (c : Slot) : Res :=
  let (v, h) := smovSource s (s.str st) (c.f 41 40) (c.f 39 36)
  let s := s.modStr st fun t => { t with mhi := h }
  .ok (s.setReg st (c.f 47 46) (c.f 45 42) (smovConvert (c.f 47 46) (c.f 41 40) v)) []

/-! ### Arithmetic, logic, shifts -/

/-- First operand, a register of the destination's kind. -/
def opS (t : Stream) (c : Slot) : Nat := if c.f 47 46 = 1 then (t.rdA (c.f 39 36)).toNat else (t.rdN (c.f 39 36)).toNat

/-- Write the destination of SADD and its like, wrapped to its width. -/
def aluPut (s : State) (st : Sid) (c : Slot) (v : Nat) : Res :=
  .ok (s.setReg st (c.f 47 46) (c.f 45 42) (v % 2 ^ (if c.f 47 46 = 1 then 48 else 32))) []

def runSadd (s : State) (st : Sid) (c : Slot) : Res := aluPut s st c (opS (s.str st) c + opT (s.str st) c (c.f 47 46))
def runSsub (s : State) (st : Sid) (c : Slot) : Res :=
  aluPut s st c (opS (s.str st) c + 2 ^ 48 - opT (s.str st) c (c.f 47 46))

/-- An N × N operation on 32-bit words. -/
def aluN (s : State) (st : Sid) (c : Slot) (f : W32 → W32 → W32) : Res :=
  let t := s.str st
  .ok (s.setReg st 0 (c.f 45 42) (f (t.rdN (c.f 39 36)) (BitVec.ofNat 32 (opT t c 0))).toNat) []

/-- SMUL writes 2 ac after issue, so later slots of its word read the old value (07 R170). -/
def runSmul (s : State) (st : Sid) (c : Slot) : Res :=
  let t := s.str st
  .ok s [⟨0, c.f 45 42, ((t.rdN (c.f 39 36)) * (BitVec.ofNat 32 (opT t c 0))).toNat⟩]
def runSand (s : State) (st : Sid) (c : Slot) : Res := aluN s st c fun a b => a &&& b
def runSor (s : State) (st : Sid) (c : Slot) : Res := aluN s st c fun a b => a ||| b
def runSxor (s : State) (st : Sid) (c : Slot) : Res := aluN s st c fun a b => a ^^^ b
/-- Amounts of 32 or more give 0, or the sign fill (07 Table 7-2). -/
def runSshl (s : State) (st : Sid) (c : Slot) : Res := aluN s st c fun a b => if b.toNat ≥ 32 then 0 else a <<< b.toNat
def runSshr (s : State) (st : Sid) (c : Slot) : Res := aluN s st c fun a b => if b.toNat ≥ 32 then 0 else a >>> b.toNat
def runSshra (s : State) (st : Sid) (c : Slot) : Res := aluN s st c fun a b => a.sshiftRight (min 31 b.toNat)

def chkScmp (c : Slot) : List Chk :=
  let im := bit c.base 35
  encChks c (b2n im) [(47, 46), (41, 40), (34, 33), (24, 0)] ++
  [chk 1 (decide (c.f 45 42 > 7) || decide (c.f 39 36 > 7) || (!im && decide (c.f 32 29 > 7))) 3,
   chk 1 (im && decide (fld (c.x 0) 63 32 ≠ 0)) 3, chk 1 (decide (c.f 27 25 > 5)) 3]
def runScmp (s : State) (st : Sid) (c : Slot) : Res :=
  let t := s.str st
  .ok (s.setReg st 2 (c.f 45 42) (b2n (relHolds (bit c.base 28) (c.f 27 25) (t.rdN (c.f 39 36)) (BitVec.ofNat 32 (opT t c 0))))) []

def chkSpl (c : Slot) : List Chk :=
  encChks c 0 [(47, 46), (41, 40), (35, 33), (28, 28), (24, 0)] ++
  [chk 1 (decide (c.f 45 42 > 7) || decide (c.f 39 36 > 7) || decide (c.f 32 29 > 7)) 3, chk 1 (decide (c.f 27 25 > 4)) 3]
def runSpl (s : State) (st : Sid) (c : Slot) : Res :=
  let t := s.str st
  let a := t.rdP (c.f 39 36)
  let b := t.rdP (c.f 32 29)
  let v := match c.f 27 25 with | 0 => a && b | 1 => a || b | 2 => a ^^ b | 3 => a && !b | _ => !a
  .ok (s.setReg st 2 (c.f 45 42) (b2n v)) []

/-! ### SLD, SST (07 R176) -/

/-- Log entry 59, DEDUCED. The form may carry any TYPE: log entry 133, DESIGN CHOICE. -/
def chkSmem (s : State) (st : Sid) (c : Slot) (dst : Bool) : List Chk :=
  let dk := c.f 47 46
  let sel := c.f 41 36
  let f := selForm (s.str st).regs c sel 0
  encChks c (selWords sel) [(35, 0)] ++
  [chk 1 (decide (dk > 1)) 3, chk 1 (decide (dk = 0) && decide (c.f 45 42 > 7)) 3, chk 1 (!isForm sel) 3] ++
  formChks s f anyForm 1 dst ++
  [chk 3 (decide (f.count ≠ 0) && outside f.base (f.base + (if dk = 1 then 7 else 3))) 3,
   chk 5 (decide (f.count > 1)) 6]

/-- Put a class-M access on its way. -/
def State.pushAcc (s : State) (st : Sid) (c : Slot) (isLoad : Bool) (kind idx : Nat) (addrs : List Nat) (bytes : List Byte) : State :=
  s.modStr st fun t => { t with scal := t.scal ++
    [⟨isLoad, kind, idx, addrs, bytes, (s.csu st).tagNow, c.tag, c.kind, s.here st, s.vec.serial, 0⟩] }

/-- SLD: the access is a scratchpad access of its own; the register waits for it. -/
def runSld (s : State) (st : Sid) (c : Slot) : Res :=
  let f := selForm (s.str st).regs c (c.f 41 36) 0
  .ok (s.pushAcc st c true (c.f 47 46) (c.f 45 42) ((upto (if c.f 47 46 = 1 then 8 else 4)).map (f.addrN 0 + ·)) []) []
/-- SST: the register is read at issue. -/
def runSst (s : State) (st : Sid) (c : Slot) : Res :=
  let t := s.str st
  let f := selForm t.regs c (c.f 41 36) 0
  let bs := if c.f 47 46 = 1 then leBytes 8 (t.rdA (c.f 45 42)).toNat else leBytes 4 (t.rdN (c.f 45 42)).toNat
  .ok (s.pushAcc st c false (c.f 47 46) (c.f 45 42) ((upto bs.length).map (f.addrN 0 + ·)) bs) []

/-! ### Loops and branches -/

/-- The step list of a LOOP (08 Table 8-10). -/
def loopSteps (c : Slot) : List (Nat × Int) :=
  (upto (min 4 (c.f 27 25))).map fun i =>
    let w := c.x (i / 2)
    if i % 2 = 0 then (fld w 63 60, sfld w 59 36) else (fld w 31 28, sfld w 27 4)

/-- END's offset counts 16-byte units from the LOOP's own long word: log entry 118, DESIGN CHOICE. The bits of a
step word that no step holds must be 0: log entry 132, DESIGN CHOICE. -/
def chkLoop (s : State) (st : Sid) (c : Slot) (lw : LwInfo) : List Chk :=
  let ns := c.f 27 25
  encChks c (ceilDiv ns 2) [(8, 0)] ++
  [chk 1 (decide (ns > 4)) 3, chk 1 (decide (c.f 24 9 = 0)) 3,
   chk 1 ((upto (min 2 (ceilDiv ns 2))).any fun i => decide (fld (c.x i) 35 32 ≠ 0) || decide (fld (c.x i) 3 0 ≠ 0)) 3,
   chk 1 (decide (ns % 2 = 1) && decide (fld (c.x (ns / 2)) 31 0 ≠ 0)) 3,
   chk 3 (decide (lw.addr + 16 * c.f 24 9 ≥ bankTop)) 3,
   chk 6 (decide ((s.str st).loops.length ≥ 4)) 7]

/-- Address of the long word after the one at `a`, from its header's LEN (09 R248). -/
def State.lwAfter (s : State) (st : Sid) (a : Nat) : Nat :=
  a + 16 * (fld (tget 0 s.imem.rows (s.bankOf st * 8192 + a / 16)) 63 60 + 1)

/-- LOOP: with a count of 0 the body is skipped, else a level is pushed (07 R182). -/
def runLoop (s : State) (st : Sid) (c : Slot) (lw : LwInfo) : Res :=
  let t := s.str st
  let cnt : W32 := if bit c.base 47 then t.rdN (c.f 46 44) else BitVec.ofNat 32 (c.f 43 28)
  let fin := lw.addr + 16 * c.f 24 9
  if cnt = 0 then .jump s (s.lwAfter st fin)
  else .jump (s.modStr st fun t => { t with loops := t.loops ++ [⟨lw.addr + lw.len, fin, cnt, loopSteps c⟩] }) (lw.addr + lw.len)

def chkLexit (s : State) (st : Sid) (c : Slot) : List Chk :=
  encChks c 0 [(45, 0)] ++ [chk 6 (guardTrue (s.str st) c && decide (c.f 47 46 + 1 > (s.str st).loops.length)) 3]
/-- LEXIT leaves the innermost levels without their steps (07 R186). -/
def runLexit (s : State) (st : Sid) (c : Slot) : Res :=
  let t := s.str st
  let k := t.loops.length - (c.f 47 46 + 1)
  match t.loops[k]? with
  | some l => .jump (s.modStr st fun t => { t with loops := t.loops.take k }) (s.lwAfter st l.fin)
  | none => .ok s []

/-- A branch target and its checks, made where the branch is taken, but for the range of its offset (07 R188, R189). Log entry 56, DEDUCED. -/
def brTarget (c : Slot) (lw : LwInfo) : Int := (lw.addr : Int) + sfld c.base 47 24
def brChks (s : State) (st : Sid) (c : Slot) (lw : LwInfo) (taken : Bool) : List Chk :=
  let g := brTarget c lw
  let out := decide (g < 0) || decide (g ≥ bankTop) || decide (g % 16 ≠ 0)
  let body := match (s.str st).loops.getLast? with
    | some l => decide (g < l.start) || decide (g > l.fin)
    | none => false
  [chk 1 (decide ((sfld c.base 47 24).natAbs > 2 ^ 16)) 3, chk 3 (taken && (out || body)) 3]

def chkBr (s : State) (st : Sid) (c : Slot) (lw : LwInfo) : List Chk := encChks c 0 [(23, 0)] ++ brChks s st c lw true
def runBr (s : State) (_st : Sid) (c : Slot) (lw : LwInfo) : Res := .jump s (brTarget c lw).toNat
def chkBrp (s : State) (st : Sid) (c : Slot) (lw : LwInfo) : List Chk := encChks c 0 [(23, 0)] ++ brChks s st c lw (guardTrue (s.str st) c)
def runBrp (s : State) (_st : Sid) (c : Slot) (lw : LwInfo) : Res := .jump s (brTarget c lw).toNat
/-- Does a BRC branch? -/
def brcTaken (t : Stream) (c : Slot) : Bool :=
  relHolds (bit c.base 16) (c.f 15 13) (t.rdN (c.f 23 21)) (if bit c.base 20 then BitVec.ofNat 32 (fld (c.x 0) 31 0) else t.rdN (c.f 19 17))
def chkBrc (s : State) (st : Sid) (c : Slot) (lw : LwInfo) : List Chk :=
  let im := bit c.base 20
  encChks c (b2n im) [(12, 0)] ++
  [chk 1 (im && decide (fld (c.x 0) 63 32 ≠ 0)) 3, chk 1 (decide (c.f 15 13 > 5)) 3] ++
  brChks s st c lw (brcTaken (s.str st) c)
def runBrc (s : State) (st : Sid) (c : Slot) (lw : LwInfo) : Res :=
  if brcTaken (s.str st) c then .jump s (brTarget c lw).toNat else .ok s []

/-- BRK and HALT: the halts are checks of the last class, with IMM (08 R218, 09 R259). -/
def chkBrk (s : State) (st : Sid) (c : Slot) : List Chk := encChks c 0 [(47, 16)] ++ [chk 6 (s.rb (dbgBase st) 2) 0x17]
def runBrk (s : State) (_st : Sid) (_c : Slot) : Res := .ok s []
def chkHalt (c : Slot) : List Chk := encChks c 0 [(47, 16)] ++ [chk 6 true 0]
def runHalt (s : State) (_st : Sid) (_c : Slot) : Res := .ok s []

/-! ### The commands -/

/-- No registers; the destination of an ALU command. -/
def noRegs (_ : Slot) : List (Nat × Nat) := []
def aluDst (c : Slot) : List (Nat × Nat) := [(if c.f 47 46 = 1 then 1 else 0, c.f 45 42)]

/-- Registers of an ALU command: destination, sources. -/
def aluRegs (c : Slot) : List (Nat × Nat) :=
  let k := if c.f 47 46 = 1 then 1 else 0
  [(k, c.f 45 42), (k, c.f 39 36)] ++ (if bit c.base 35 then [] else [(k, c.f 32 29)])
/-- Registers that a form reads. -/
def formRegs (c : Slot) (sel at' : Nat) : List (Nat × Nat) :=
  if sel = 0x12 then
    let w := c.x at'
    [(1, fld w 63 60)] ++ (if bit w 52 then [(0, fld (c.x (at' + 1)) 63 43 % 8)] else []) ++
      (if bit w 53 then [(0, fld (c.x (at' + 1)) 42 22 % 8)] else []) ++ (if bit w 54 then [(0, fld (c.x (at' + 1)) 21 1 % 8)] else [])
  else if selWords sel = 1 && sel ≠ 0x10 then
    let w := c.x at'
    if isFtq sel then (if bit w 62 then [(1, fld w 61 58)] else [])
    else [(1, fld w 63 60)] ++ (if bit w 54 then [(0, fld w 29 9 % 8)] else [])
  else if sel = 0x1C then
    let w := c.x at'
    [(1, fld w 63 60), (1, fld w 35 32)] ++ (if fld (c.x (at' + 2)) 15 14 = 1 then [(0, fld (c.x (at' + 2)) 13 11)] else [])
  else if isN sel then [(0, sel - 8)] else []

def notW (_ : Slot) : Bool := false

def sliSem : CmdSem := ⟨aluDst, aluDst, notW, fun _ _ c _ => chkSli c, fun s st c _ => runSli s st c⟩
def smovSem : CmdSem := ⟨fun c => [(c.f 47 46, c.f 45 42), (c.f 41 40, c.f 39 36)].filter (·.1 < 3), fun c => [(c.f 47 46, c.f 45 42)], notW, fun _ _ c _ => chkSmov c, fun s st c _ => runSmov s st c⟩
def saddSem : CmdSem := ⟨aluRegs, aluDst, notW, fun _ _ c _ => aluChks c true, fun s st c _ => runSadd s st c⟩
def ssubSem : CmdSem := ⟨aluRegs, aluDst, notW, fun _ _ c _ => aluChks c true, fun s st c _ => runSsub s st c⟩
def smulSem : CmdSem := ⟨aluRegs, aluDst, notW, fun _ _ c _ => aluChks c false, fun s st c _ => runSmul s st c⟩
def sandSem : CmdSem := ⟨aluRegs, aluDst, notW, fun _ _ c _ => aluChks c false, fun s st c _ => runSand s st c⟩
def sorSem : CmdSem := ⟨aluRegs, aluDst, notW, fun _ _ c _ => aluChks c false, fun s st c _ => runSor s st c⟩
def sxorSem : CmdSem := ⟨aluRegs, aluDst, notW, fun _ _ c _ => aluChks c false, fun s st c _ => runSxor s st c⟩
def sshlSem : CmdSem := ⟨aluRegs, aluDst, notW, fun _ _ c _ => aluChks c false, fun s st c _ => runSshl s st c⟩
def sshrSem : CmdSem := ⟨aluRegs, aluDst, notW, fun _ _ c _ => aluChks c false, fun s st c _ => runSshr s st c⟩
def sshraSem : CmdSem := ⟨aluRegs, aluDst, notW, fun _ _ c _ => aluChks c false, fun s st c _ => runSshra s st c⟩
def scmpSem : CmdSem := ⟨fun c => [(2, c.f 45 42), (0, c.f 39 36)] ++ (if bit c.base 35 then [] else [(0, c.f 32 29)]),
  fun c => [(2, c.f 45 42)], notW,
  fun _ _ c _ => chkScmp c, fun s st c _ => runScmp s st c⟩
def splSem : CmdSem := ⟨fun c => [(2, c.f 45 42), (2, c.f 39 36), (2, c.f 32 29)], fun c => [(2, c.f 45 42)], notW, fun _ _ c _ => chkSpl c, fun s st c _ => runSpl s st c⟩
def sldSem : CmdSem := ⟨fun c => aluDst c ++ formRegs c (c.f 41 36) 0, aluDst, notW,
  fun s st c _ => chkSmem s st c false, fun s st c _ => runSld s st c⟩
def sstSem : CmdSem := ⟨fun c => aluDst c ++ formRegs c (c.f 41 36) 0, noRegs, notW,
  fun s st c _ => chkSmem s st c true, fun s st c _ => runSst s st c⟩
def loopSem : CmdSem := ⟨fun c => if bit c.base 47 then [(0, c.f 46 44)] else [], noRegs, notW, chkLoop, runLoop⟩
def lexitSem : CmdSem := ⟨noRegs, noRegs, notW, fun s st c _ => chkLexit s st c, fun s st c _ => runLexit s st c⟩
def brSem : CmdSem := ⟨noRegs, noRegs, notW, chkBr, runBr⟩
def brpSem : CmdSem := ⟨noRegs, noRegs, notW, chkBrp, runBrp⟩
def brcSem : CmdSem := ⟨fun c => (0, c.f 23 21) :: (if bit c.base 20 then [] else [(0, c.f 19 17)]), noRegs, notW, chkBrc, runBrc⟩
def brkSem : CmdSem := ⟨noRegs, noRegs, notW, fun s st c _ => chkBrk s st c, fun s st c _ => runBrk s st c⟩
def haltSem : CmdSem := ⟨noRegs, noRegs, notW, fun _ _ c _ => chkHalt c, fun s st c _ => runHalt s st c⟩

/-- SLI as a command of its own (08 R217). -/
def execSli (st : Sid) (c : Slot) (s : State) : Host.Outcome State Fault Refusal := issueRow sliSem st (asOpc 0x01 c) s
/-- SMOV as a command of its own (08 R217). -/
def execSmov (st : Sid) (c : Slot) (s : State) : Host.Outcome State Fault Refusal := issueRow smovSem st (asOpc 0x02 c) s
/-- SADD as a command of its own (08 R217). -/
def execSadd (st : Sid) (c : Slot) (s : State) : Host.Outcome State Fault Refusal := issueRow saddSem st (asOpc 0x03 c) s
/-- SSUB as a command of its own (08 R217). -/
def execSsub (st : Sid) (c : Slot) (s : State) : Host.Outcome State Fault Refusal := issueRow ssubSem st (asOpc 0x04 c) s
/-- SMUL as a command of its own (08 R217). -/
def execSmul (st : Sid) (c : Slot) (s : State) : Host.Outcome State Fault Refusal := issueRow smulSem st (asOpc 0x05 c) s
/-- SAND as a command of its own (08 R217). -/
def execSand (st : Sid) (c : Slot) (s : State) : Host.Outcome State Fault Refusal := issueRow sandSem st (asOpc 0x06 c) s
/-- SOR as a command of its own (08 R217). -/
def execSor (st : Sid) (c : Slot) (s : State) : Host.Outcome State Fault Refusal := issueRow sorSem st (asOpc 0x07 c) s
/-- SXOR as a command of its own (08 R217). -/
def execSxor (st : Sid) (c : Slot) (s : State) : Host.Outcome State Fault Refusal := issueRow sxorSem st (asOpc 0x08 c) s
/-- SSHL as a command of its own (08 R217). -/
def execSshl (st : Sid) (c : Slot) (s : State) : Host.Outcome State Fault Refusal := issueRow sshlSem st (asOpc 0x09 c) s
/-- SSHR as a command of its own (08 R217). -/
def execSshr (st : Sid) (c : Slot) (s : State) : Host.Outcome State Fault Refusal := issueRow sshrSem st (asOpc 0x0A c) s
/-- SSHRA as a command of its own (08 R217). -/
def execSshra (st : Sid) (c : Slot) (s : State) : Host.Outcome State Fault Refusal := issueRow sshraSem st (asOpc 0x0B c) s
/-- SCMP as a command of its own (08 R217). -/
def execScmp (st : Sid) (c : Slot) (s : State) : Host.Outcome State Fault Refusal := issueRow scmpSem st (asOpc 0x0C c) s
/-- SPL as a command of its own (08 R217). -/
def execSpl (st : Sid) (c : Slot) (s : State) : Host.Outcome State Fault Refusal := issueRow splSem st (asOpc 0x0D c) s
/-- SLD as a command of its own (08 R217). -/
def execSld (st : Sid) (c : Slot) (s : State) : Host.Outcome State Fault Refusal := issueRow sldSem st (asOpc 0x0E c) s
/-- SST as a command of its own (08 R217). -/
def execSst (st : Sid) (c : Slot) (s : State) : Host.Outcome State Fault Refusal := issueRow sstSem st (asOpc 0x0F c) s
/-- LOOP as a command of its own (08 R217). -/
def execLoop (st : Sid) (c : Slot) (s : State) : Host.Outcome State Fault Refusal := issueRow loopSem st (asOpc 0x10 c) s
/-- LEXIT as a command of its own (08 R217). -/
def execLexit (st : Sid) (c : Slot) (s : State) : Host.Outcome State Fault Refusal := issueRow lexitSem st (asOpc 0x11 c) s
/-- BR as a command of its own (08 R217). -/
def execBr (st : Sid) (c : Slot) (s : State) : Host.Outcome State Fault Refusal := issueRow brSem st (asOpc 0x12 c) s
/-- BRP as a command of its own (08 R217). -/
def execBrp (st : Sid) (c : Slot) (s : State) : Host.Outcome State Fault Refusal := issueRow brpSem st (asOpc 0x13 c) s
/-- BRC as a command of its own (08 R217). -/
def execBrc (st : Sid) (c : Slot) (s : State) : Host.Outcome State Fault Refusal := issueRow brcSem st (asOpc 0x14 c) s
/-- BRK as a command of its own (08 R217). -/
def execBrk (st : Sid) (c : Slot) (s : State) : Host.Outcome State Fault Refusal := issueRow brkSem st (asOpc 0x19 c) s
/-- HALT as a command of its own (08 R217). -/
def execHalt (st : Sid) (c : Slot) (s : State) : Host.Outcome State Fault Refusal := issueRow haltSem st (asOpc 0x1F c) s

end Sys2Proof.Machine
end

