-- ==== Sys2Proof/Machine/Waits.lean ====
section
/-!
DEFINITION. The end of a class-W command's wait (07 R170, R201, 08 R214): its register writes, the control slot of its long
word, the next address.
-/

namespace Sys2Proof.Machine

/-- The control commands (08 Table 8-10). Log entry 57, DEDUCED. -/
def ctlSem (o : Nat) : CmdSem :=
  if o = 0x10 then loopSem else if o = 0x11 then lexitSem else if o = 0x12 then brSem else if o = 0x13 then brpSem else brcSem

/-- Let the control slot behind an ended wait act. It reads what other commands of its word have written since, or have still
to write, as before the word; CC has counted it. -/
def State.runCtl (s : State) (st : Sid) (w : Wait) (c : Slot) : State :=
  let t := s.str st
  let lw : LwInfo := ⟨w.addr, w.len, 0, 0⟩
  match walkSlot st lw ⟨s.wrRegs st w.snap, [], [], [], none, none, [], none⟩ c (ctlSem c.opc) with
  | .go k => (k.s.modStr st fun u => { u with cc := t.cc, a := t.a, n := t.n, p := t.p }).finishWord st lw k.jump w.late
  | .stall _ _ => s
  | .halt f c => s.haltAtIssue st f (some c)

/-- A stream's wait ends with these register writes. -/
def State.finishWait (s : State) (st : Sid) (ws : List RegWr) : State :=
  match (s.str st).wait with
  | none => s
  | some w =>
    let keys := ws.map fun q => (q.kind, q.idx)
    let w := { w with late := w.late.filter fun r => !r.names keys, snap := w.snap.filter fun r => !r.names keys }
    let s := ((s.modStr st fun t => { t with wait := none }).supersede st keys).wrRegs st ws
    match w.ctl with
    | none => s.finishWord st ⟨w.addr, w.len, 0, 0⟩ none w.late
    | some c => s.runCtl st w c

def State.bar (s : State) (n : Nat) : BarCtx := tget BarCtx.zero s.bars.ctx n

/-- A generation ahead of another, modulo 256. -/
def genAhead (g o : Nat) : Nat := (g + 256 - o) % 256

/-- Waits for a barrier generation that has been released end (06 R161); one that a checkpoint stop found waiting does so after it (13
R336). Log entry 88, DEDUCED. -/
def State.barrierEnds (s : State) : State :=
  if s.cstate = 1 then s else
  [Sid.a, Sid.x].foldl (fun s st =>
    match (s.str st).wait with
    | some w => match w.kind with
      | .barrier n g => if genAhead g (s.bar n).o ≥ 128 then s.finishWait st [] else s
      | _ => s
    | none => s) s

/-- Kind and number of what a stream waits on, where 06 R157 counts the wait (17 Table 17-6). -/
def Stream.waitsOn (t : Stream) : Option (Nat × Nat) :=
  match t.wait with
  | some w =>
    match w.kind with
    | .pop n => some (0, n)
    | .push n => some (0, n)
    | .post slot _ _ => some (2, slot)
    | .barrier b _ => some (1, b)
    | .cbegin _ => some (3, 0)
    | .outcome _ _ => some (3, 0)
    | .merges n _ => some (4, n)
    | .due _ => none
    | .stores => none
  | none => if t.lockWait then none else t.stall

/-- QUEUE_WAIT_LONG (06 R157): the count of a wait reaches QSY.WAITLIM, once for the command. -/
def execQueueWaitLong (st : Sid) (s : State) : Host.Outcome State Fault Refusal :=
  .next <| match (s.str st).waitsOn with
  | some (kind, num) =>
    if (s.str st).waitTold || s.rf 0x2050 31 0 = 0 || decide ((s.str st).waited < s.rf 0x2050 31 0) then s
    else
      let lo := 16 * sidNat st
      ((s.setRf 0x2058 (lo + 15) lo (2 ^ 15 + kind * 2 ^ 12 + num)).modStr st fun t => { t with waitTold := true }).raise evQueueWaitLong
  | none => s

end Sys2Proof.Machine
end

