-- ==== Sys2Proof/Machine/Queue.lean ====
section
/-!
DEFINITION. The queue commands and the queue events (06 R144 to R157, 08 R219 to R221, 15 R381).
-/

namespace Sys2Proof.Machine

/-! ### Contexts as commands name them -/

def qregs (c : Slot) : List (Nat × Nat) := if bit c.base 47 then [(0, c.f 37 35)] else []

/-- Does a context's class admit a stream as producer, as consumer (06 Table 6-4)? -/
def State.admits (s : State) (n : Nat) (st : Sid) (push : Bool) : Bool :=
  match s.ctxClass n with
  | 0 => true
  | 1 => if push then decide (st = .a) == decide (n < 4) else decide (st = .x) == decide (n < 4)
  | 2 => !push
  | 4 => !push
  | 5 => push
  | 6 => !push
  | _ => false

/-- Checks of the named context: its number, its binding, its class (06 R143, R144). -/
def qctxChks (s : State) (st : Sid) (c : Slot) (push : Bool) : List Chk :=
  let n := qctx (s.str st) c
  [chk 3 (decide (n > 4095)) 3, chk 6 (!s.ctxBound n) 9 (n % 4096), chk 6 (!s.admits n st push) 3]

/-! ### QPUSH -/

/-- A source or destination of QPUSH and QPOP: an N register or a form; QPUSH also takes none. -/
def qSel (sel : Nat) : Bool := isN sel || isForm sel

/-- Bytes of a form in element order, and the byte address of each. -/
def Form.byteAddrs (f : Form) : List Nat :=
  (upto f.count).flatMap fun e => (upto (fmtBytes f.ty)).map fun b => f.addrN e + b

def chkQpush (s : State) (st : Sid) (c : Slot) : List Chk :=
  let sel := c.f 30 25
  let f := selForm (s.str st).regs c sel 0
  encChks c (selWords sel) [(24, 0)] ++ [chk 1 (!(decide (sel = 0) || qSel sel)) 3] ++ qctxChks s st c true ++
  (if isForm sel then
    formChks s f anyForm 0 false ++
    [chk 4 (decide (f.base % 64 ≠ 0)) 4,
     chk 5 (let n := f.count * fmtBytes f.ty; decide (n < 64) || decide (n > 1024) || decide (n % 64 ≠ 0)) 6]
   else [])

/-- Does a push wait for the stream's own writes: its stores (01 R18), and VE writes to the bytes that it reads? Log entry 55,
DEDUCED. -/
def State.pushHeld (s : State) (st : Sid) (addrs : List Nat) : Bool :=
  ((s.str st).scal.any fun a => !a.isLoad) || s.memAhead st 0 s.vec.serial addrs

/-- The entry that a QPUSH writes: no data, a register, or the bytes of a form with the poison of their words. Every ECC word that it
reads is corrected and counted once (06 R137). -/
def qpushEntry (s : State) (st : Sid) (c : Slot) : State × Entry :=
  let t := s.str st
  let sel := c.f 30 25
  if sel = 0 then (s, ticketOnly)
  else if isN sel then (s, mkEntry [⟨BitVec.ofNat 512 (t.rdN (sel - 8)).toNat, false, .good⟩])
  else
    let addrs := (selForm t.regs c sel 0).byteAddrs
    let bad := fun i => ((addrs.drop (64 * i)).take 64).any fun a => s.spm.eccAt (s.viewAddr (some st) a) = .bad
    let cars := (upto (addrs.length / 64)).map fun i =>
      Car.mk (BitVec.ofNat 512 (leNat (((addrs.drop (64 * i)).take 64).map fun a => s.spm.byte (s.viewAddr (some st) a)))) (bad i) .good
    let s := s.touchWords (some st) (wordsOf (addrs.map fun a => (a, 1)))
    let s := match (addrs.filter fun a => s.spm.eccAt (s.viewAddr (some st) a) = .bad).min? with
      | some a => (s.noteUncorr (some (st, c.tag)) (a / 8 * 8)).abortIf st (s.csu st).tagNow 3 1
      | none => s
    (s, mkEntry cars)

/-- A push by a stream: a held entry of an open consist, or an entry of its context, or a wait for quota (06 R147, 11 R275,
R281, R287). -/
def pushStep (s : State) (st : Sid) (n : Nat) (tkt : Option Nat) (e : Entry) : Res :=
  let c := s.csu st
  let t := tkt.getD (s.ctx n).nt
  let adv := fun (s : State) => if tkt.isNone then s.modCtx n fun c => { c with nt := (c.nt + 1) % 65536 } else s
  if s.ctxClass n = 5 && c.st = .doomed then .ok (adv s) []
  else if s.ctxClass n = 5 && c.st = .opened then
    if s.canAlloc (56 + sidNat st) e.cars.length then
      .ok ((adv s).modCsu st fun c => { c with held := c.held ++ [.entry n { e with tkt := t, cs := some c.id }] }) []
    else .ok ((adv s).abort st 2 1) []
  else if (s.ctx n).prod.isEmpty && s.canAlloc n e.cars.length then .ok (s.pushNow n tkt e) []
  else .wait (s.modCtx n fun c => { c with prod := c.prod ++ [⟨sidNat st, tkt, e⟩] }) (.push n) []

def runQpush (s : State) (st : Sid) (c : Slot) : Res :=
  let t := s.str st
  if s.pushHeld st (if isForm (c.f 30 25) then (selForm t.regs c (c.f 30 25) 0).byteAddrs else []) then .wait s .stores [] else
  let (s, e) := qpushEntry s st c
  pushStep s st (qctx t c) (if bit c.base 34 then some (fld (t.rdN (c.f 33 31)) 15 0) else none) e

/-! ### QPOP, QWAIT -/

/-- While ORDFLT is 1, a consumer halts at its issue (06 R150). -/
def ordfltChk (s : State) (st : Sid) (c : Slot) : Chk :=
  let n := qctx (s.str st) c
  chk 6 (s.ctx n).ordflt 8 ((s.ctx n).badTkt * 4096 + n % 4096)

def chkQpop (s : State) (st : Sid) (c : Slot) : List Chk :=
  let sel := c.f 30 25
  encChks c (selWords sel) [(34, 31), (20, 0)] ++ [chk 1 (!qSel sel) 3] ++ qctxChks s st c false ++
  (if isForm sel then formChks s (selForm (s.str st).regs c sel 0) anyForm 0 true else []) ++ [ordfltChk s st c]

def chkQwait (s : State) (st : Sid) (c : Slot) : List Chk :=
  encChks c 0 [(30, 0)] ++ qctxChks s st c false ++ [ordfltChk s st c]

/-- Take the head entry at once, or wait in issue order (06 R151). -/
def popStep (s : State) (n : Nat) (k : Cons) : Res :=
  match (if (s.ctx n).cons.isEmpty then s.consumerTurn n k else none) with
  | some (s, ws) => .ok s ws
  | none =>
    let s := if (s.ctx n).cons.isEmpty then s.stallPop n k else s
    .wait (s.modCtx n fun c => { c with cons := c.cons ++ [k] }) (.pop n) []

def runQpop (s : State) (st : Sid) (c : Slot) : Res :=
  let t := s.str st
  let sel := c.f 30 25
  popStep s (qctx t c)
    { agent := sidNat st, dst := if isN sel then .reg (sel - 8) else .mem (selForm t.regs c sel 0).byteAddrs, expect := none,
      lenReg := if bit c.base 24 then some (c.f 23 21) else none, cs := (s.csu st).tagNow, tag := c.tag, lw := s.here st, slot := c.kind }

def runQwait (s : State) (st : Sid) (c : Slot) : Res :=
  let t := s.str st
  popStep s (qctx t c)
    { agent := sidNat st, dst := .drop, expect := if bit c.base 34 then some (fld (t.rdN (c.f 33 31)) 15 0) else none,
      lenReg := none, cs := (s.csu st).tagNow, tag := c.tag, lw := s.here st, slot := c.kind }

/-! ### DMAP, DMARD -/

def dmapAddr (t : Stream) (c : Slot) : Int := ((t.rdA (c.f 43 40)).toNat : Int) + sfld c.base 39 16

def chkDmap (s : State) (st : Sid) (c : Slot) : List Chk :=
  let a := dmapAddr (s.str st) c
  let n := 16 + c.f 47 44
  encChks c 0 [(1, 0)] ++
  [chk 3 (outside a (a + 63)) 3, chk 4 (decide (a % 64 ≠ 0)) 4, chk 6 (!s.ctxBound n) 9 n]

/-- DMAP reads its template behind the stream's own writes to it, patches it and pushes it to the ring (08 R221). -/
def runDmap (s : State) (st : Sid) (c : Slot) : Res :=
  let t := s.str st
  let a := (dmapAddr t c).toNat
  if s.pushHeld st ((upto 64).map (a + ·)) then .wait s .stores []
  else match s.badView (some st) a 64 with
  | some w =>
    let s := (s.noteUncorr (some (st, c.tag)) w).abortIf st (s.csu st).tagNow 3 1
    .ok (s.noteHalt st 0x0B w c.tag c.kind) []
  | none =>
    let b := s.peek (some st) a 64
    let s := s.touchView (some st) a 64
    let b := if bit c.base 15 then b.take 8 ++ leBytes 6 (t.rdA (c.f 14 11)).toNat ++ b.drop 14 else b
    let b := if bit c.base 10 then b.take 16 ++ leBytes 6 (t.rdA (c.f 9 6)).toNat ++ b.drop 22 else b
    let b := if bit c.base 5 then b.take 6 ++ leBytes 2 (fld (t.rdN (c.f 4 2)) 15 0) ++ b.drop 8 else b
    pushStep s st (16 + c.f 47 44) none { mkEntry (carsOf b) with cs := (s.csu st).tagOpen }

/-- A push that waited for the stream's own writes tries again, on the registers as it issued (07 R170). -/
def State.retryStores (s : State) (st : Sid) : State :=
  match (s.str st).wait with
  | some w =>
    if !(decide (w.kind = .stores) && decide (s.cstate ≠ 1)) then s
    else
      let t := s.str st
      let back := fun (s : State) => s.modStr st fun u => { u with a := t.a, n := t.n, p := t.p }
      let s' := s.wrRegs st w.snap
      match (if w.cmd.opc = 0x20 then runQpush s' st w.cmd else runDmap s' st w.cmd) with
      | .ok s' l => (back s').finishWait st l
      | .wait s' k _ => (back s').modStr st fun u => { u with wait := some { w with kind := k } }
      | _ => s
  | none => s

def chkDmard (c : Slot) : List Chk := encChks c 0 [(39, 0)]
/-- DMARD writes 2 ac after issue: later slots of the word read the old value. -/
def runDmard (s : State) (c : Slot) : Res :=
  let ch := c.f 47 44
  let v := if bit c.base 40 then b2n (!(tget [] s.chans ch).isEmpty) else (s.ctx (16 + ch)).entries.length
  .ok s [⟨0, c.f 43 41, v⟩]

/-! ### The commands -/

def isWc (_ : Slot) : Bool := true
def qpushSem : CmdSem := ⟨fun c => qregs c ++ (if bit c.base 34 then [(0, c.f 33 31)] else []) ++ formRegs c (c.f 30 25) 0, noRegs, isWc,
  fun s st c _ => chkQpush s st c, fun s st c _ => runQpush s st c⟩
/-- The registers that a QPOP writes. -/
def qpopDst (c : Slot) : List (Nat × Nat) :=
  (if bit c.base 24 then [(0, c.f 23 21)] else []) ++ (if isN (c.f 30 25) then [(0, c.f 30 25 - 8)] else [])
def qpopSem : CmdSem := ⟨fun c => qregs c ++ (if bit c.base 24 then [(0, c.f 23 21)] else []) ++ formRegs c (c.f 30 25) 0, qpopDst, isWc,
  fun s st c _ => chkQpop s st c, fun s st c _ => runQpop s st c⟩
def qwaitSem : CmdSem := ⟨fun c => qregs c ++ (if bit c.base 34 then [(0, c.f 33 31)] else []), noRegs, isWc,
  fun s st c _ => chkQwait s st c, fun s st c _ => runQwait s st c⟩
def dmapSem : CmdSem := ⟨fun c => (1, c.f 43 40) :: ((if bit c.base 15 then [(1, c.f 14 11)] else []) ++
    (if bit c.base 10 then [(1, c.f 9 6)] else []) ++ (if bit c.base 5 then [(0, c.f 4 2)] else [])), noRegs, isWc,
  fun s st c _ => chkDmap s st c, fun s st c _ => runDmap s st c⟩
def dmardSem : CmdSem := ⟨fun c => [(0, c.f 43 41)], fun c => [(0, c.f 43 41)], notW, fun _ _ c _ => chkDmard c, fun s _ c _ => runDmard s c⟩

/-- QPUSH as a command of its own (08 R219). -/
def execQpush (st : Sid) (c : Slot) (s : State) : Host.Outcome State Fault Refusal := issueRow qpushSem st (asOpc 0x20 c) s
/-- QPOP as a command of its own (08 R220). -/
def execQpop (st : Sid) (c : Slot) (s : State) : Host.Outcome State Fault Refusal := issueRow qpopSem st (asOpc 0x21 c) s
/-- QWAIT as a command of its own (08 R219). -/
def execQwait (st : Sid) (c : Slot) (s : State) : Host.Outcome State Fault Refusal := issueRow qwaitSem st (asOpc 0x22 c) s
/-- DMAP as a command of its own (08 R221). -/
def execDmap (st : Sid) (c : Slot) (s : State) : Host.Outcome State Fault Refusal := issueRow dmapSem st (asOpc 0x24 c) s
/-- DMARD as a command of its own (08 R219). -/
def execDmard (st : Sid) (c : Slot) (s : State) : Host.Outcome State Fault Refusal := issueRow dmardSem st (asOpc 0x25 c) s

/-! ### The fabric queues -/

/-- Flits of an entry that leaves (15 R381). -/
def qmsgFlits (s : State) (n : Nat) (e : Entry) : List QMsg :=
  let c := s.ctx n
  (upto (ceilDiv e.cars.length 2)).map fun i =>
    let lo := e.cars.getD (2 * i) ⟨0, false, .good⟩
    let hi := e.cars.getD (2 * i + 1) ⟨0, false, .good⟩
    { sctx := BitVec.ofNat 12 n, place := BitVec.ofNat 24 (fld c.w1 35 12), rctx := BitVec.ofNat 12 (fld c.w1 11 0)
      ncar := BitVec.ofNat 4 (e.cars.length - 1), ticket := BitVec.ofNat 16 e.tkt, poison := lo.poison || hi.poison
      axis := BitVec.ofNat 2 (fld c.w0 27 26), fidx := BitVec.ofNat 3 i, splace := BitVec.ofNat 24 s.place
      data := BitVec.ofNat 1024 (lo.data.toNat + hi.data.toNat * 2 ^ 512) }

/-- The entry that a FAB_OUT context can send: the one that carries ET, where CREDIT covers it; no later ticket passes it (06 R155, 01
R22). A checkpoint stop holds it (13 R336). That it waits for credit at the head is log entry 114, DESIGN CHOICE. -/
def State.sendable (s : State) (n : Nat) : Option Entry :=
  if s.ctxBound n && s.ctxClass n = 5 && s.pins.fpUp && !(s.ctx n).ordflt && decide (s.cstate ≠ 1) then
    (s.ctx n).headEntry.filter fun e => e.sent.isNone && decide (e.cars.length ≤ (s.ctx n).credit)
  else none

/-- A FAB_OUT context sends: the whole entry leaves in one turn of the context. Log entry 135, DESIGN CHOICE. -/
def State.sendEntry (s : State) (n : Nat) : State :=
  match s.sendable n with
  | some e =>
    let (s, e', _) := s.readCars none e
    let serial := s.fab.serial + 1
    let msgs := qmsgFlits s n e'
    let s := { s with fab := { s.fab with serial := serial, rr := 16 + n } }
    let s := s.modCtx n fun c => { c with credit := c.credit - e.cars.length, et := (c.et + 1) % 65536
                                          entries := c.entries.map fun x => if x = e then { e' with sent := some serial } else x }
    msgs.foldl (fun s m => s.send 1 (wqQmsg m)) s
  | none => s

end Sys2Proof.Machine
end

