-- ==== Sys2Proof/Machine/Dma.lean ====
section
/-!
DEFINITION. The DMA channels (06 R163 to R167, 09 R240 to R242) and the requests they make at the fabric port (15 R378).
-/

namespace Sys2Proof.Machine

/-! ### Requests at the port (15 R378) -/

def freeTag (l : List Req) : Option Nat := (upto 4096).find? fun t => !l.any fun r => r.tag = t

/-- Requests of the checkpoint engine carry this channel number. -/
def ckeCh : Nat := 64

/-- The Method R block not yet copied that a channel's write would change (13 R340). -/
def State.reqBlock (s : State) (r : Req) : Option (Nat × Nat) :=
  if r.ch = ckeCh || r.sent.isNone then none else s.blockOf true r.addr 128

/-- May a request issue: no earlier request to its address without a response, no stop in progress unless it is the checkpoint
engine's, and no write to a block not yet copied. -/
def State.reqOk (s : State) (r : Req) : Bool :=
  s.pins.fpUp && (decide (s.cstate ≠ 1) || decide (r.ch = ckeCh)) && (s.reqBlock r).isNone && !((s.fab.reads ++ s.fab.writes).any fun q => q.addr = r.addr && !q.dead)

/-- A request leaves with a free tag. A channel's write counts in DIRTY (13 R343). -/
def State.issueReq (s : State) (r : Req) : State :=
  let serial := s.fab.serial + 1
  match r.sent with
  | none =>
    match freeTag s.fab.reads with
    | some t =>
      ({ s with fab := { s.fab with serial := serial, reads := s.fab.reads ++ [{ r with tag := t, serial := serial }] } }).send 0 (rqBody t r.addr 0)
    | none => { s with fab := { s.fab with todo := s.fab.todo ++ [r] } }
  | some u =>
    match freeTag s.fab.writes with
    | some t =>
      let s := (({ s with fab := { s.fab with serial := serial, writes := s.fab.writes ++ [{ r with tag := t, serial := serial }] } }).send 1
        (wqWrite t r.addr u)).perf 10 128
      if r.ch = ckeCh then s else s.dirty true r.addr 128
    | none => { s with fab := { s.fab with todo := s.fab.todo ++ [r] } }

/-- The waiting requests that may issue: none behind an earlier one to its address. The checkpoint engine's waits for no channel's that
has not issued (13 R336, R340). -/
def State.readyReqs (s : State) : List Req :=
  (s.fab.todo.zipIdx.filter fun p => s.reqOk p.1 &&
    !((s.fab.todo.take p.2).any fun q => q.addr = p.1.addr && (decide (p.1.ch ≠ ckeCh) || decide (q.ch = ckeCh))) &&
    (freeTag (if p.1.sent.isNone then s.fab.reads else s.fab.writes)).isSome).map (·.1)

/-- Blocks that waiting writes lie in are copied ahead of all others (13 R340). -/
def State.hurryTodo (s : State) : State :=
  s.fab.todo.foldl (fun s r => match s.reqBlock r with | some p => s.stallOn (2 + r.ch) (r.tkt * 2 ^ 48 + r.addr) p | none => s) s

/-- Who asks for the next request slot of the port: channels by number, and FAB_OUT context n as 16 + n (06 R165). -/
def State.slotAsks (s : State) : List Nat :=
  ((s.readyReqs.map (·.ch)).filter (· < 16)) ++ ((s.qsy.filter fun p => (s.sendable p.1).isSome).map fun p => 16 + p.1)

/-- The one in turn: round robin behind the one that had the last slot. -/
def State.slotTurn (s : State) : Option Nat := ((s.slotAsks.filter (· > s.fab.rr)).min?).or s.slotAsks.min?

/-- Issue a request that waits. -/
def State.issueTodo (s : State) (r : Req) (rr : Nat) : State :=
  ({ s with fab := { s.fab with todo := s.fab.todo.erase r, rr := rr } }).issueReq r

/-- One request slot of the port: the one in turn issues its oldest request or sends its entry; a slot that none asks for goes to the
checkpoint engine (13 R342). Log entry 53, DEDUCED. -/
def State.reqSlot (s : State) : State :=
  let s := s.hurryTodo
  match s.slotTurn with
  | some k => if k ≥ 16 then s.sendEntry (k - 16) else match s.readyReqs.find? fun r => r.ch = k with | some r => s.issueTodo r k | none => s
  | none => match s.readyReqs.find? fun r => r.ch = ckeCh with | some r => s.issueTodo r s.fab.rr | none => s

/-- FAB_OUT_SEND (06 R155, R165): a FAB_OUT context whose turn it is sends its entry. -/
def execFabOutSend (ctx : BitVec 12) (s : State) : Host.Outcome State Fault Refusal :=
  .next (if s.slotTurn = some (16 + ctx.toNat) then s.sendEntry ctx.toNat else s)

/-- A request joins those that wait for a slot. -/
def State.addReq (s : State) (r : Req) : State := { s with fab := { s.fab with todo := s.fab.todo ++ [r] } }

/-! ### Descriptors (06 Table 6-7) -/

abbrev Dsc := List Byte
def Dsc.op (d : Dsc) : Nat := rdLe d 0 1
def Dsc.srcSp (d : Dsc) : Nat := rdLe d 1 1 % 16
def Dsc.dstSp (d : Dsc) : Nat := rdLe d 1 1 / 16
def Dsc.flags (d : Dsc) : Nat := rdLe d 2 1
def Dsc.cctx (d : Dsc) : Nat := rdLe d 4 2 % 4096
def Dsc.ctkt (d : Dsc) : Nat := rdLe d 6 2
def Dsc.src (d : Dsc) : Nat := rdLe d 8 8
def Dsc.dst (d : Dsc) : Nat := rdLe d 16 8
def Dsc.rowLen (d : Dsc) : Nat := rdLe d 24 4
def Dsc.rows (d : Dsc) : Nat := rdLe d 28 4
def Dsc.sstr (d : Dsc) : Int := sgn 32 (rdLe d 32 4)
def Dsc.dstr (d : Dsc) : Int := sgn 32 (rdLe d 36 4)
def Dsc.pattern (d : Dsc) (i : Nat) : Byte := byteAt d (40 + i % 8)
def Dsc.fill (d : Dsc) : Bool := d.op = 4

/-- Lowest and highest byte of a side, exact. -/
def dscExt (base : Nat) (str : Int) (rows len : Nat) : Int × Int :=
  let span := ((rows : Int) - 1) * str
  ((base : Int) + min 0 span, (base : Int) + max 0 span + len - 1)

/-- Is a side bad: space, base, stride, rows of the given length (06 R164)? -/
def sideBad (sp base : Nat) (str : Int) (rows len : Nat) : Bool :=
  let (lo, hi) := dscExt base str rows len
  match sp with
  | 0 => decide (base % 64 ≠ 0) || decide (str % 64 ≠ 0) || outside lo hi
  | 1 => decide (base % 128 ≠ 0) || decide (str % 128 ≠ 0) || decide (len % 128 ≠ 0) || decide (lo < 0) || decide (hi > 2 ^ 48 - 1)
  | 2 => decide (len % 64 ≠ 0) || decide (len > 1024) || decide (str ≠ 0) || decide (base > 4095)
  | _ => false

/-- A descriptor that completes with BAD_DESCRIPTOR (06 R164, 09 R241, 11 R282). So does a CTXLOAD whose records run past context
4,095: log entry 113, DESIGN CHOICE. SRC and SSTR of a FILL are not checked but for SRC's range: log entry 129, DESIGN CHOICE. -/
def State.dscBad (s : State) (d : Dsc) : Bool :=
  let imem := decide (d.dstSp = 3)
  !(1 ≤ d.op && d.op ≤ 4) || decide (rdLe d 3 1 ≠ 0) || decide (d.flags > 3) || decide (rdLe d 4 2 > 4095) || decide (d.src ≥ 2 ^ 48)
  || decide (d.dst ≥ 2 ^ 48) || decide (rdLe d 48 16 ≠ 0) || decide (d.rowLen = 0) || decide (d.rowLen > 2 ^ 24)
  || decide (d.rows = 0) || decide (d.rows > 2 ^ 20) || decide (d.srcSp > 2) || decide (d.dstSp > 3)
  || (imem != decide (d.op = 2)) || (d.fill && decide (d.srcSp ≠ 0))
  || (decide (d.op = 3) && (decide (d.srcSp ≠ 0) || decide (d.dstSp ≠ 2) || decide (d.dst + d.rows * d.rowLen / 16 > 4096)))
  || (imem && (decide (d.srcSp > 1) || decide (d.dst > 1) || decide (d.rows ≠ 1) || decide (d.sstr ≠ 0) || decide (d.dstr ≠ 0) || decide (d.rowLen % 128 ≠ 0)))
  || (!d.fill && sideBad d.srcSp d.src d.sstr d.rows d.rowLen) || sideBad d.dstSp d.dst d.dstr d.rows d.rowLen
  || (decide (d.dstSp = 0) && let e := dscExt d.dst d.dstr d.rows d.rowLen; s.inShadow e.1 e.2)

/-- Pieces: a whole row where queue space takes part, else 128 bytes. -/
def Dsc.pieceLen (d : Dsc) : Nat := if d.srcSp = 2 || d.dstSp = 2 then d.rowLen else 128
def Dsc.perRow (d : Dsc) : Nat := ceilDiv d.rowLen d.pieceLen
def Dsc.total (d : Dsc) : Nat := d.rows * d.perRow
def Dsc.pRow (d : Dsc) (u : Nat) : Nat := u / d.perRow
def Dsc.pOff (d : Dsc) (u : Nat) : Nat := (u % d.perRow) * d.pieceLen
def Dsc.pLen (d : Dsc) (u : Nat) : Nat := min d.pieceLen (d.rowLen - d.pOff u)
def Dsc.srcAt (d : Dsc) (u : Nat) : Nat := ((d.src : Int) + d.pRow u * d.sstr + d.pOff u).toNat
def Dsc.dstAt (d : Dsc) (u : Nat) : Nat := ((d.dst : Int) + d.pRow u * d.dstr + d.pOff u).toNat

/-! ### Channels -/

def State.flight (s : State) (ch : Nat) : List Chan := tget [] s.chans ch
/-- The descriptor a response belongs to. -/
def State.chanOf (s : State) (ch tkt : Nat) : Option Chan := (s.flight ch).find? fun c => c.tkt = tkt
/-- Is everything of a descriptor issued? -/
def Chan.allIssued (c : Chan) : Bool := c.ended || (decide (c.unit ≥ Dsc.total c.desc) && !c.waiting)
/-- The stream side of a descriptor's scratchpad writes (11 R275). -/
def Chan.side (c : Chan) : Option Sid := c.cs.map fun _ => .a

/-- A parity error of the staging buffer at a unit: the fault record, the channel's count, the status (06 R166, 14 R353). -/
def State.dbufParity (s : State) (ch : Nat) (c : Chan) : State :=
  ((s.fault 0x0A 3 none ch).wearChannel ch).modChan ch c.tkt fun c => c.setStatus 5

/-- Write a piece's bytes to a scratchpad destination; false where it waits for a Method R block (13 R340). -/
def State.putSpm (s : State) (ch : Nat) (c : Chan) (a : Nat) (bs : List Byte) (poison : Bool) : State × Bool :=
  match s.writeBlock c.side c.cs a bs.length with
  | some p => (s.stallOn (2 + ch) (c.tkt * 2 ^ 48 + a) p, false)
  | none => ((s.write c.side c.cs a bs poison).modChan ch c.tkt fun c => { c with moved := c.moved + bs.length }, true)

/-- Stage or issue the 128-byte fabric writes of a piece (11 R275, R281). -/
def State.putFabric (s : State) (ch : Nat) (c : Chan) (a : Nat) (u : Nat) (units : List Unit128) : State :=
  units.zipIdx.foldl (fun s (x, i) =>
    let r : Req := ⟨0, a + 128 * i, ch, c.tkt, u, 0, false, some x⟩
    if c.cs.isSome then
      if !(match c.cs with | some id => ownsWrites s.cA id | none => false) then s
      else if s.canAlloc 56 3 then
        { s with cA := { s.cA with held := s.cA.held ++ [Held.wr r] } }
      else s.abort .a 2 1
    else (s.addReq r).modChan ch c.tkt fun c => { c with left := c.left + 1 }) s

/-- 128-byte units of a byte string. -/
def unitsOf (bs : List Byte) (poison : Bool) : List Unit128 :=
  (upto (ceilDiv bs.length 128)).map fun i => ⟨BitVec.ofNat 1024 (leNat ((bs.drop (128 * i)).take 128)), poison⟩

/-- Put a piece at its destination; false where it must wait. A poisoned row for queue space poisons each of its cars: log entry 131,
DESIGN CHOICE. -/
def State.putPiece (s : State) (ch : Nat) (c : Chan) (u : Nat) (bs : List Byte) (poison : Bool) : State × Bool :=
  let d : Dsc := c.desc
  if c.bad.contains u then (s.dbufParity ch c, true)
  else match d.dstSp with
    | 0 => s.putSpm ch c (d.dstAt u) bs poison
    | 1 =>
      match (if c.cs.isNone then s.blockOf true (d.dstAt u) bs.length else none) with
      | some p => (s.stallOn (2 + ch) (c.tkt * 2 ^ 48 + d.dstAt u) p, false)
      | none => (s.putFabric ch c (d.dstAt u) u (unitsOf bs poison), true)
    | 2 =>
      let n := d.dst
      if !(s.ctxBound n && (s.ctxClass n = 0 || s.ctxClass n = 5)) then (s.modChan ch c.tkt fun c => c.setStatus 8, true)
      else
        let e := mkEntry ((carsOf bs).map fun k => { k with poison := poison })
        if (s.ctx n).prod.isEmpty && s.canAlloc n e.cars.length then
          ((s.modChan ch c.tkt fun c => { c with moved := c.moved + bs.length }).pushNow n none e, true)
        else ((s.modCtx n fun q => { q with prod := q.prod ++ [⟨2 + ch, none, e⟩] }).modChan ch c.tkt fun c => { c with waiting := true }, true)
    | _ => (s.modChan ch c.tkt fun c => { c with row := c.row ++ (bs.zipIdx.map fun p => (d.pOff u + p.2, p.1)), moved := c.moved + bs.length }, true)

/-- The bytes of a local source piece, with poison where a word is uncorrectable (06 Table 6-2). A FILL's pattern begins anew in each row:
log entry 128, DESIGN CHOICE. -/
def State.getLocal (s : State) (ch : Nat) (c : Chan) (u : Nat) : State × List Byte × Bool :=
  let d : Dsc := c.desc
  if d.fill then (s, (upto (d.pLen u)).map fun i => d.pattern (d.pOff u + i), false)
  else
    let a := d.srcAt u
    let n := d.pLen u
    let bs := s.peek none a n
    let bad := s.badView none a n
    let s := s.touchView none a n
    match bad with
    | some w => (((s.noteUncorr none w).abortIf .a c.cs 3 1).modChan ch c.tkt fun c => c.setStatus 4, bs, true)
    | none => (s, bs, false)

/-- The row that a queue source gave, cut or padded to ROWLEN (06 R164). -/
def Chan.rowBytes (c : Chan) : List Byte := (upto (Dsc.rowLen c.desc)).map fun i => ((c.row.find? fun p => p.1 = i).map (·.2)).getD 0

/-- Issue the next piece of a channel's last descriptor; the flag says whether to go on. -/
def State.chanStep (s : State) (ch : Nat) : State × Bool :=
  match (s.flight ch).getLast? with
  | none => (s, false)
  | some c =>
    let d : Dsc := c.desc
    let m := fun (s : State) (f : Chan → Chan) => s.modChan ch c.tkt f
    if c.allIssued || c.waiting || s.cstate = 1 then (s, false)
    else if d.srcSp = 1 && !d.fill then
      if d.dstSp = 2 then
        if !c.rowIn then
          let a := d.srcAt c.unit
          let k := d.rowLen / 128
          let s := m s fun c => { c with rowIn := true, left := c.left + k, row := [] }
          ((upto k).foldl (fun s i => s.addReq ⟨0, a + 128 * i, ch, c.tkt, i, 0, false, none⟩) s, false)
        else if c.left > 0 then (s, false)
        else
          let (s, ok) := s.putPiece ch c c.unit c.rowBytes c.rowBad
          if ok then (m s fun c => { c with unit := c.unit + 1, rowIn := false, rowBad := false, row := [] }, true) else (s, false)
      else
        let s := m s fun c => { c with unit := c.unit + 1, left := c.left + 1 }
        (s.addReq ⟨0, d.srcAt c.unit, ch, c.tkt, c.unit, 0, false, none⟩, true)
    else if d.srcSp = 2 && !d.fill then
      let n := d.src
      if !c.rowIn then
        if !(s.ctxBound n && (s.ctxClass n = 0 || s.ctxClass n = 6)) || (s.ctx n).ordflt then (m s fun c => c.setStatus 8, false)
        else match (if (s.ctx n).cons.isEmpty then (s.ctx n).headEntry else none) with
          | some e =>
            let (s, e, _) := s.readCars none e
            let s := s.takeHead n e
            let s := if e.poisoned then s.modCtx n fun q => { q with poison := true } else s
            (m s fun c => { c with rowIn := true, row := e.bytes.zipIdx.map (fun p => (p.2, p.1)), rowBad := e.poisoned }, true)
          | none =>
            let k : Cons := ⟨2 + ch, .chan, none, none, c.cs, 0, c.tkt, 0⟩
            (m (s.modCtx n fun q => { q with cons := q.cons ++ [k] }) fun c => { c with waiting := true }, false)
      else
        let s := if c.rowBad then m s fun c => c.setStatus 3 else s
        let (s, ok) := s.putPiece ch c c.unit c.rowBytes c.rowBad
        if ok then (m s fun c => { c with unit := c.unit + 1, rowIn := false, rowBad := false, row := if d.dstSp = 3 then c.row else [] }, true)
        else (s, false)
    else
      let (s, bs, poison) := s.getLocal ch c c.unit
      let (s, ok) := s.putPiece ch c c.unit bs poison
      if ok then (m s fun c => { c with unit := c.unit + 1 }, true) else (s, false)

def chanLoop (ch : Nat) : Nat → State → State
  | 0, s => s
  | k + 1, s =>
    let (s, go) := s.chanStep ch
    if go then chanLoop ch k s else s

/-- Run a channel until it must wait. -/
def State.chanRun (s : State) (ch : Nat) : State :=
  match (s.flight ch).getLast? with
  | some c => chanLoop ch (2 * Dsc.total c.desc + 2) s
  | none => s

/-- Data that waited for a Method R block, written now. -/
def State.chanFlush (s : State) (ch : Nat) : State :=
  (s.flight ch).foldl (fun s c =>
    let s := s.modChan ch c.tkt fun c => { c with park := [] }
    c.park.foldl (fun s (u, x) =>
      let (s, ok) := s.putPiece ch c u (bytesOf x.data (Dsc.pLen c.desc u)) x.poison
      if ok then s else s.modChan ch c.tkt fun c => { c with park := c.park ++ [(u, x)] }) s) s

def State.allChans (s : State) (f : State → Nat → State) : State := (upto 16).foldl f s

/-! ### Starting and completing a descriptor -/

/-- Copy the W0 and W1 records of a CTXLOAD into consecutive contexts (06 R164). Log entry 48, DEDUCED. An uncorrectable record leaves its
context as it was, and the copy goes on: log entry 130, DESIGN CHOICE. -/
def State.ctxLoad (s : State) (ch : Nat) (c : Chan) : State :=
  let d : Dsc := c.desc
  let perRow := d.rowLen / 16
  let r := (upto (d.rows * perRow)).foldl (fun (p : State × Bool) i =>
    let (s, go) := p
    if !go then p
    else
      let n := d.dst + i
      let a := ((d.src : Int) + (i / perRow : Nat) * d.sstr + (i % perRow : Nat) * 16).toNat
      if s.ctxBound n then (s.modChan ch c.tkt fun c => c.setStatus 7, false)
      else match s.badView none a 16 with
        | some w => (((s.noteUncorr none w).abortIf .a c.cs 3 1).modChan ch c.tkt fun c => c.setStatus 4, true)
        | none =>
          let s := ((s.touchView none a 16).writeW1 n (BitVec.ofNat 64 (s.peekLe none (a + 8) 8))).writeW0 n (BitVec.ofNat 64 (s.peekLe none a 8))
          (s.modChan ch c.tkt fun c => { c with moved := c.moved + 16 }, true)) (s, true)
  r.1.modChan ch c.tkt fun c => { c with ended := true }

/-- The first register of an IMEM bank: there are two (17 Table 17-4). -/
def bankInfo (bank : Nat) : Nat := 0x280 + 0x80 * (bank % 2)
/-- Clear a bank's VALID, MODIFIED, header fields and digest (09 R242, step 1). -/
def State.clearBank (s : State) (bank : Nat) : State :=
  let b := bankInfo bank
  let s := (((s.setRf b 63 62 0).setRf b 47 32 0).setRf b 15 0 0).wr (b + 8) 0
  (upto 6).foldl (fun s i => s.wr (b + 0x20 + 8 * i) 0) s

/-- Is a bank running: both are, while an event switch is in progress (09 R243). -/
def State.bankRunning (s : State) (bank : Nat) : Bool := decide (bank = s.runBank) || s.rb 0x208 2
/-- Is a load of a bank in progress: begun, its rows and header not yet written, or zeroed (09 R240, R241)? -/
def State.loading (s : State) (bank : Nat) : Bool :=
  (upto 16).any fun ch => (s.flight ch).any fun c => decide (Dsc.op c.desc = 2) && decide (Dsc.dst c.desc = bank) && !c.loaded

/-- Has a channel's last descriptor issued its last request (06 R165)? One that copies fabric to fabric makes its writes as its reads are
answered. -/
def State.chanFree (s : State) (ch : Nat) : Bool :=
  match (s.flight ch).getLast? with
  | some c =>
    let d : Dsc := c.desc
    let mine := fun (q : Req) => decide (q.ch = ch) && decide (q.tkt = c.tkt)
    c.allIssued && !s.fab.todo.any mine &&
      (c.ended || decide (d.srcSp ≠ 1) || decide (d.dstSp ≠ 1) || d.fill || (c.park.isEmpty && !s.fab.reads.any fun q => mine q && !q.dead))
  | none => true

/-- DMA_DESCRIPTOR_START (06 R165): a channel takes the next descriptor from its ring, checks it and moves data. A fabric-write descriptor
of a consist completes at the outcome (11 R277). A ring under ORDFLT serves nothing (R150). `badUnits` are the pieces at which a staging-buffer parity error occurs. Log entry
53, DEDUCED. A descriptor that its ring delivers poisoned is a bad one: log entry 134, DESIGN CHOICE. -/
def execDmaDescriptorStart (ch : BitVec 4) (badUnits : List Nat) (s : State) : Host.Outcome State Fault Refusal :=
  let n := ch.toNat
  let ring := 16 + n
  .next <| match (if s.ctxBound ring && s.chanFree n && decide (s.cstate ≠ 1) && !(s.ctx ring).ordflt then (s.ctx ring).headEntry else none) with
  | none => s
  | some e =>
    let d : Dsc := e.bytes
    let torn := e.cars.any fun k => k.poison || decide (k.ecc = .bad)
    if !torn && d.op = 2 && !s.dscBad d && !s.bankRunning d.dst && s.loading d.dst then s
    else
      let s := (s.readCars none e).1.takeHead ring e
      let holds := d.dstSp = 1 && e.cs = some s.cA.id && s.cA.st ≠ .idle
      let c : Chan := ⟨d, e.tkt, e.cs, 0, 0, 0, 0, false, false, holds, false, badUnits, [], false, false, []⟩
      let put := fun (s : State) (c : Chan) => { s with chans := tmod [] s.chans n fun l => l ++ [c] }
      let endWith := fun (s : State) (status : Nat) => put s { c with status := status, ended := true, loaded := true, held := false }
      let dead := decide (d.dstSp ≤ 1) && (match e.cs with | some id => !ownsWrites s.cA id | none => false)
      if torn then endWith (s.modCtx ring fun c => { c with poison := true }) 1
      else if dead then put s { c.setStatus 9 with loaded := true }
      else if s.dscBad d then endWith s 1
      else if d.op = 2 && s.bankRunning d.dst then endWith s 6
      else if d.op = 3 then (put s c).ctxLoad n c
      else
        let s := if d.op = 2 then s.clearBank d.dst else s
        (put s c).chanRun n

/-- DMA_DESCRIPTOR_COMPLETE (06 R166): the first descriptor in flight, all of it done, pushes its record, behind the channel's earlier ones
(R165). -/
def execDmaDescriptorComplete (ch : BitVec 4) (s : State) : Host.Outcome State Fault Refusal :=
  let n := ch.toNat
  .next <| match s.flight n with
  | c :: r =>
    let d : Dsc := c.desc
    let queued := s.fab.todo.any fun q => q.ch = n && q.tkt = c.tkt
    let behind := s.qsy.any fun p => p.2.prod.any fun p => p.agent = 40 + n
    if !behind && c.allIssued && c.left = 0 && c.park.isEmpty && !c.held && !queued && (decide (d.op ≠ 2) || c.loaded) then
      let s := { s with chans := tset [] s.chans n r }
      let rec' := BitVec.ofNat 512 (c.status + c.tkt * 2 ^ 8 + min c.moved 0xFFFFFFFF * 2 ^ 24)
      let cc := if d.flags / 2 % 2 = 1 then 32 + n else d.cctx
      let s := if s.ctxBound cc && s.ctxClass cc = 4 then s.enginePushT (40 + n) cc (some d.ctkt) (mkEntry [⟨rec', false, .good⟩])
        else (s.incRf 0x128 15 0).raise evDmaError
      let s := if c.status ≠ 0 then s.raise evDmaError else s
      let s := if d.flags % 2 = 1 then s.raise evDmaDone else s
      s.perf 11 1
    else s
  | [] => s

/-! ### IMEM loads (09 R239 to R242) -/

/-- The first failing check of an image header; 0 where it is sound. -/
def hdrErr (b : List Byte) (cap rowLen status : Nat) : Nat :=
  let units := rdLe b 8 2
  if rdLe b 0 4 ≠ 0x3343544F then 1
  else if rdLe b 4 1 ≠ 1 then 2
  else if units = 0 || units > cap then 3
  else if rdLe b 10 2 ≥ units || rdLe b 12 2 ≥ units then 4
  else if rdLe b 7 1 ≠ 0 || rdLe b 14 2 ≠ 0 || leNat ((b.drop 64).take 64) ≠ 0 then 5
  else if rowLen < 128 + 20 * units then 6
  else if status ≠ 0 then 7 else 0

/-- Write every row of a bank. -/
def State.setBank (s : State) (bank : Nat) (row : Nat → BitVec 160) : State :=
  { s with imem := { s.imem with
      rows := (upto 8192).foldl (fun t r => tset 0 t (bank * 8192 + r) (row r)) s.imem.rows
      ecc := (upto 8192).foldl (fun t r => tset .good t (bank * 8192 + r) .good) s.imem.ecc
      wb := s.imem.wb.filter fun r => r / 8192 ≠ bank } }

/-- IMEM_LOAD_COMPLETE (09 R242): the digest and VALID, or a zeroed bank with HDRERR. A load that ended before its header
arrived fails check 7. Log entry 69, DEDUCED. -/
def execImemLoadComplete (ch : BitVec 4) (s : State) : Host.Outcome State Fault Refusal :=
  let n := ch.toNat
  .next <| match (s.flight n).find? fun c => decide (Dsc.op c.desc = 2) && !c.loaded && c.allIssued && c.left = 0 with
  | none => s
  | some c =>
    let d : Dsc := c.desc
    let bank := d.dst
    let b := c.rowBytes
    let info := bankInfo bank
    let e := if c.status ≠ 0 && !c.row.any (·.1 = 0) then 7 else hdrErr b (s.rf info 31 16) d.rowLen c.status
    let units := rdLe b 8 2
    let s := s.modChan n c.tkt fun c => { c with loaded := true }
    if e ≠ 0 then (s.setBank bank fun _ => 0).setRf info 61 59 e
    else
      let s := s.setBank bank fun r => if r < units then BitVec.ofNat 160 (rdLe b (128 + 16 * r) 16 + rdLe b (128 + 16 * units + 4 * r) 4 * 2 ^ 128) else 0
      let dig := sha384 (b.take (128 + 20 * units))
      let s := (upto 6).foldl (fun s i => s.wr (info + 0x20 + 8 * i) (BitVec.ofNat 64 (rdLe dig (8 * i) 8))) s
      let s := (((s.setRf info 61 59 0).setRf info 47 40 (rdLe b 5 1)).setRf info 39 32 (rdLe b 6 1)).setRf info 15 0 units
      let s := (s.setRf (info + 8) 28 16 (rdLe b 12 2)).setRf (info + 8) 12 0 (rdLe b 10 2)
      s.setRf info 63 63 1

/-! ### Responses -/

/-- A read's data reaches its descriptor. -/
def State.dataIn (s : State) (r : Req) (u : Unit128) : State :=
  let s := s.modChan r.ch r.tkt fun c => { c with left := c.left - 1 }
  match s.chanOf r.ch r.tkt with
  | none => s
  | some c =>
    let d : Dsc := c.desc
    if c.ended then s
    else
      let s := if u.poison then s.modChan r.ch r.tkt fun c => c.setStatus 3 else s
      if d.dstSp = 2 then
        (s.modChan r.ch r.tkt fun c => { c with row := c.row ++ ((bytesOf u.data 128).zipIdx.map fun p => (128 * r.unit + p.2, p.1)), rowBad := c.rowBad || u.poison }).chanRun r.ch
      else
        let (s, ok) := s.putPiece r.ch c r.unit (bytesOf u.data (d.pLen r.unit)) u.poison
        if ok then s else s.modChan r.ch r.tkt fun c => { c with park := c.park ++ [(r.unit, u)] }

/-- An error response, or a timeout: FABRIC_ERROR ends the descriptor (06 R166, 15 R379). -/
def State.errorIn (s : State) (r : Req) : State :=
  let s := s.modChan r.ch r.tkt fun c => ({ c with left := c.left - 1 }).setStatus 2
  let gone := s.fab.todo.filter fun q => q.ch = r.ch && q.tkt = r.tkt
  let s := { s with fab := { s.fab with todo := s.fab.todo.filter fun q => !(q.ch = r.ch && q.tkt = r.tkt) } }
  s.modChan r.ch r.tkt fun c => { c with left := c.left - gone.length }

/-- A completed write. -/
def State.ackIn (s : State) (r : Req) : State := s.modChan r.ch r.tkt fun c => { c with left := c.left - 1, moved := c.moved + 128 }

end Sys2Proof.Machine
end

