-- ==== Sys2Proof/Machine/QueueEvents.lean ====
section
/-!
DEFINITION. The events of the queue contexts: pushes that waited for quota, and waiting consumers (06 R147, R151, 08 R216).
-/

namespace Sys2Proof.Machine

/-- The first waiting producer of a context proceeds, and what waited for it goes on (06 R147). Log entry 49, DEDUCED. -/
def State.quotaStep (s : State) (n : Nat) : State :=
  match s.quotaProceed n with
  | (s, some agent) =>
    if agent < 2 then s.finishWait (natSid agent) []
    else if agent < 32 then
      let ch := agent - 2
      match (s.flight ch).getLast? with
      | some c => (s.modChan ch c.tkt fun c => { c with waiting := false, moved := c.moved + Dsc.rowLen c.desc }).chanRun ch
      | none => s
    else s
  | (s, none) => s

/-- PUSH_QUOTA_PROCEED (06 R147): a waiting stream or channel pushes in full. -/
def execPushQuotaProceed (ctx : BitVec 12) (s : State) : Host.Outcome State Fault Refusal :=
  .next <| if s.cstate = 1 then s else match (s.ctx ctx.toNat).prod with
  | p :: _ => if p.agent ≥ 32 then s else s.quotaStep ctx.toNat
  | [] => s

/-- CT_PUSH_QUOTA (08 R216): an engine's completion push proceeds. -/
def execCtPushQuota (ctx : BitVec 12) (s : State) : Host.Outcome State Fault Refusal :=
  .next <| if s.cstate = 1 then s else match (s.ctx ctx.toNat).prod with
  | p :: _ => if p.agent ≥ 32 then s.quotaStep ctx.toNat else s
  | [] => s

/-- A channel takes the head entry that it waited for (06 R151, R165). -/
def State.channelTurn (s : State) (n : Nat) (k : Cons) : State :=
  match (if (s.ctx n).ordflt then none else (s.ctx n).headEntry) with
  | some e =>
    let ch := k.agent - 2
    let (s, e, _) := s.readCars none e
    let s := (s.modCtx n fun c => { c with cons := c.cons.drop 1 }).takeHead n e
    let s := if e.poisoned then s.modCtx n fun c => { c with poison := true } else s
    (s.modChan ch k.lw fun c => { c with
      waiting := false, rowIn := true, row := e.bytes.zipIdx.map fun p => (p.2, p.1), rowBad := e.poisoned }).chanRun ch
  | none => s

/-- QUEUE_HEAD_SERVE (06 R151): the first waiting consumer takes the head entry. -/
def execQueueHeadServe (ctx : BitVec 12) (s : State) : Host.Outcome State Fault Refusal :=
  let n := ctx.toNat
  .next <| if s.cstate = 1 then s else match (s.ctx n).cons with
  | k :: _ =>
    if k.agent ≥ 2 then s.channelTurn n k
    else match s.consumerTurn n k with
      | some (s, ws) => (s.modCtx n fun c => { c with cons := c.cons.drop 1 }).finishWait (natSid k.agent) ws
      | none => s.stallPop n k
  | [] => s

end Sys2Proof.Machine
end

