-- ==== Sys2Proof/Machine/Seal.lean ====
section
/-!
DEFINITION. What a checkpoint holds and how it is sealed: region entries, the layout of a half area, records, the trailer
(13 R333 to R347), and the engine's requests.
-/

namespace Sys2Proof.Machine

/-! ### Regions (13 R333) -/

/-- A region entry: its index, space, method R, base and size in bytes. -/
structure Region where
  n : Nat
  fab : Bool
  late : Bool
  base : Nat
  size : Nat
deriving DecidableEq, Repr

def State.region (s : State) (n : Nat) : Region :=
  let w0 := s.rd (0x1A00 + 0x18 * n)
  ⟨n, bit w0 62, bit w0 61, fld w0 47 12 * 4096, fld (s.rd (0x1A08 + 0x18 * n)) 23 0 * 4096⟩

def State.liveRegions (s : State) : List Region := ((upto 64).filter fun n => s.rb (0x1A00 + 0x18 * n) 63).map s.region

/-- The scratchpad image holds the live scratchpad regions with method S, in index order. -/
def Region.inImage (r : Region) : Bool := !r.fab && !r.late
def State.imageRegions (s : State) : List Region := s.liveRegions.filter Region.inImage
/-- The addresses of the image's 128-byte units. -/
def State.imageUnits (s : State) : List Nat := s.imageRegions.flatMap fun r => (upto (r.size / 128)).map fun i => r.base + 128 * i

/-- Does a region lie inside its space, with the alignment of method R (13 R334)? -/
def Region.ok (r : Region) : Bool :=
  decide (r.base + r.size ≤ (if r.fab then 2 ^ 48 else spmSize)) && (!r.late || (decide (r.base % 65536 = 0) && decide (r.size % 65536 = 0)))

/-! ### The layout of a half area (13 R344, R347) -/

def sectionSize : Nat := 2240 * 1024
def blockSize : Nat := 65536

/-- A record's size: header, data, bitmap and tag, padded to a multiple of 128 bytes. -/
def recSize (len : Nat) : Nat := ceilDiv (144 + len) 128 * 128

/-- The records of one section, from a number and a place on; with the number and place after it. -/
def sectionRecs (kind region total seq pos : Nat) : List CkRec × Nat × Nat :=
  (upto (ceilDiv total blockSize)).foldl (fun (l, q, p) i =>
    let len := min blockSize (total - blockSize * i)
    (l ++ [⟨kind, region, blockSize * i, len, decide (blockSize * (i + 1) ≥ total), q, p⟩], q + 1, p + recSize len)) ([], seq, pos)

/-- Every record but the trailer, and the bytes of the half area used. Log entry 82, DEDUCED. -/
def State.ckLayout (s : State) : List CkRec × Nat :=
  let img := (s.imageRegions.map (·.size)).sum
  let parts := (1, 0, sectionSize) :: (2, 0, img) :: ((s.liveRegions.filter fun r => !r.inImage).map fun r => (3, r.n, r.size))
  let r := parts.foldl (fun (l, q, p) (k, n, t) =>
    let (m, q, p) := sectionRecs k n t q p
    (l ++ m, q, p)) (([], 1, 1024) : List CkRec × Nat × Nat)
  (r.1, r.2.2)

/-- Bytes of the half area that the configuration needs (13 R347). -/
def State.ckNeed (s : State) : Nat := s.ckLayout.2

/-- CKE.STATUS.CFGV (13 R334). -/
def State.ckValid (s : State) : Bool :=
  let l := s.liveRegions
  s.rb 0x1810 63 && s.cke.key.isSome && s.cke.keyed && l.all Region.ok &&
  decide (((l.filter (·.late)).map (·.size)).sum ≤ 2 ^ 33) && decide (s.ckNeed ≤ s.rf 0x1820 23 0 * blockSize)

/-- T_stop in ns, a fraction counted as one more (13 R337). Log entry 84, DEDUCED. -/
def State.stopEst (s : State) : Nat :=
  let l := (s.imageRegions.map (·.size)).sum
  let m := ((s.liveRegions.filter fun r => r.fab && !r.late).map (·.size)).sum
  40000 + ceilDiv (4100 * l + 31000 * m) (1024 * 1024)

/-! ### Records (13 R344, R346) -/

/-- The 64-byte header of a record (13 Table 13-2). -/
def ckHeader (kind flags region place feed epoch off len seq tick : Nat) : List Byte :=
  leBytes 4 0x314B4F43 ++ leBytes 1 1 ++ leBytes 1 kind ++ leBytes 1 flags ++ leBytes 1 region ++ leBytes 3 place ++ leBytes 1 feed ++
  leBytes 4 epoch ++ leBytes 8 off ++ leBytes 4 len ++ leBytes 4 seq ++ leBytes 8 tick ++ List.replicate 24 0

/-- The IV of a record. Log entry 83, DEDUCED. -/
def ckIv (place epoch seq : Nat) : List Byte := beBytes 12 (place * 2 ^ 72 + epoch * 2 ^ 40 + seq * 2 ^ 8)

def padTo128 (l : List Byte) : List Byte := l ++ List.replicate (ceilDiv l.length 128 * 128 - l.length) 0

/-- A sealed record of this checkpoint. -/
def State.sealRec (s : State) (kind flags region off len seq : Nat) (plain : List Byte) : List Byte :=
  let epoch := s.cke.epoch
  let h := ckHeader kind flags region s.place (s.rf 0x18 31 24) epoch off len seq s.cke.tick.toNat
  padTo128 (h ++ gcmSeal (bytesOf s.cke.latched 32) (ckIv s.place epoch seq) h plain)

/-- A data record over its 128-byte units, each with its poison: a poisoned unit is sealed as zeros (13 R346). -/
def State.sealData (s : State) (r : CkRec) (units : List (List Byte × Bool)) : List Byte :=
  let data := (units.flatMap fun u => if u.2 then List.replicate 128 0 else u.1).take r.len
  let map := (units.zipIdx.map fun (u, i) => if u.2 then 2 ^ i else 0).sum
  s.sealRec r.kind ((if map = 0 then 0 else 1) + (if r.last then 2 else 0)) r.region r.off r.len r.seq (data ++ leBytes 64 map)

/-- The trailer's data (13 R347). -/
def State.trailerData (s : State) : List Byte :=
  let l := s.ckLayout
  leBytes 4 l.1.length ++ leBytes 6 l.2 ++ leBytes 2 (b2n s.cke.resumable + 2 * b2n s.cke.poisoned + 4 * b2n (!s.imageRegions.isEmpty)) ++
  leBytes 8 s.cke.tick.toNat ++ List.replicate 44 0

def State.sealTrailer (s : State) : List Byte := s.sealRec 4 2 0 0 64 0 s.trailerData

/-! ### The engine's requests (01 R19, 13 R336, R342, R348) -/

/-- Where the half area of the running epoch starts (13 R347). -/
def State.halfBase (s : State) : Nat := s.rf 0x1818 47 7 * 128 + s.cke.epoch % 2 * (s.rf 0x1820 23 0 * blockSize)
/-- Where the staging area starts. -/
def State.stageBase (s : State) : Nat := s.rf 0x1828 47 7 * 128

/-- Write a byte string to the fabric. -/
def State.ckeWrite (s : State) (base : Nat) (bytes : List Byte) : State :=
  (unitsOf bytes false).zipIdx.foldl (fun s (u, i) => s.addReq ⟨0, base + 128 * i, ckeCh, 0, i, 0, false, some u⟩) s

/-- Write a sealed record into the half area. -/
def State.ckeSend (s : State) (pos : Nat) (bytes : List Byte) : State := s.ckeWrite (s.halfBase + pos) bytes

/-- Read `n` units from the fabric. -/
def State.ckeRead (s : State) (what : CkeRead) (base n : Nat) : State :=
  let num := s.cke.jobs + 1
  let s := { s with cke := { s.cke with jobs := num, job := some ⟨what, num, n, []⟩ } }
  (upto n).foldl (fun s i => s.addReq ⟨0, base + 128 * i, ckeCh, num, i, 0, false, none⟩) s

/-- Is a read in progress, or does a request of the engine still await its response? -/
def State.ckeBusy (s : State) : Bool :=
  s.cke.job.isSome || (s.fab.todo ++ s.fab.reads ++ s.fab.writes).any fun r => r.ch = ckeCh && !r.dead

/-- The engine's requests that wait for a slot, and its read, are given up. -/
def State.ckeDrop (s : State) : State :=
  { s with cke := { s.cke with job := none }, fab := { s.fab with todo := s.fab.todo.filter fun r => r.ch ≠ ckeCh } }

/-- Nothing waits for a block any more: writes that waited for an outcome too, and the channels' data, go on. -/
def State.blocksFree (s : State) : State := ((s.flushWaiting .a).flushWaiting .x).allChans fun s ch => (s.chanFlush ch).chanRun ch

/-- A stop has ended: its completion entry, the rollbacks that waited for it (08 R215, 13 R352), and the waits that could have ended in
it (R336). Log entry 88, DEDUCED. -/
def State.stopEnded (s : State) : State :=
  (((if s.cke.ct then s.ctTicket 13 else s).dueRollbacks.barrierEnds).retryStores .a).retryStores .x

/-- A checkpoint ends as FAILED, and with it a stop that is under way (13 R347, R352). -/
def State.ckeFail (s : State) (err : Nat) : State :=
  let stop := decide (s.cstate = 1)
  let s := (((s.setRf 0x1808 2 0 4).setRf 0x1808 39 32 err).raise evCkptFail).ckeDrop
  let s := { s with cke := { s.cke with late := [], staged := [], blocks := [], urgent := [], stalls := [] } }
  (if stop then s.stopEnded else s).blocksFree

/-- Data of the engine's read comes in. -/
def State.ckeData (s : State) (r : Req) (u : Unit128) : State :=
  match s.cke.job with
  | some j => if j.num = r.tkt then { s with cke := { s.cke with job := some { j with got := j.got ++ [(r.unit, u)] } } } else s
  | none => s

/-- The units of a finished read, in their order. -/
def CkeJob.units (j : CkeJob) : List Unit128 := (upto j.want).filterMap fun i => (j.got.find? fun p => p.1 = i).map (·.2)

/-- A write of the engine is acknowledged: after the last one of a background copy the trailer goes out (13 R342). -/
def State.ckeAck (s : State) : State :=
  if s.cstate = 2 && !s.cke.trailer && s.cke.staged.isEmpty && s.cke.blocks.isEmpty && !s.ckeBusy then
    let s := { s with cke := { s.cke with trailer := true } }
    s.ckeSend 0 s.sealTrailer
  else s

end Sys2Proof.Machine
end

