-- ==== Sys2Proof/Machine/Fabric.lean ====
section
/-!
DEFINITION. The fabric port: responses and timeouts (15 R378 to R380), the link layer's events (R373 to R376), queue
messages (R381 to R383).
-/

namespace Sys2Proof.Machine

/-- A message arrives on an inbound channel: it passes the receive buffer, whose entry is free again once it is acted on (15 R373). -/
def State.arrive (s : State) (ch : Nat) (f : State → State) : State :=
  if !s.pins.fpUp then s
  else
    let t := f s
    if t.pins.fpUp then t.freeRx ch else t

/-! ### Responses (15 Table 15-5, R380) -/

/-- A write of the engine fails, or data that it reads: the checkpoint ends as FAILED (13 R347); a restore finds its record missing
(R348). Log entry 86, DESIGN CHOICE. -/
def State.ckeError (s : State) : State :=
  if s.cstate = 1 || s.cstate = 2 then s.ckeFail 1
  else if s.rf 0x1808 6 5 = 1 then { s with cke := { s.cke with regions := false } }.ckeDrop
  else s

/-- A write completes, or a request fails: at its channel, or at the checkpoint engine (13 R342, R347). -/
def State.ackOf (s : State) (r : Req) : State := if r.ch = ckeCh then s.ckeAck else s.ackIn r
def State.errorOf (s : State) (r : Req) : State := if r.ch = ckeCh then s.ckeError else s.errorIn r
def State.dataOf (s : State) (r : Req) (u : Unit128) : State := if r.ch = ckeCh then s.ckeData r u else s.dataIn r u

def State.badTag (s : State) : State := s.incRf 0x390 15 0

/-- A read response is matched by its tag and acted on by its status (15 R379). -/
def State.onReadData (tag status : Nat) (u : Unit128) (s : State) : State :=
  match s.fab.reads.find? fun r => r.tag = tag with
  | none => s.badTag
  | some r =>
    let s := { s with fab := { s.fab with reads := s.fab.reads.filter fun q => q.tag ≠ r.tag } }
    if r.dead then s.incRf 0x390 31 16
    else if status = 0 then
      let s := if u.poison then s.fault 0x0B 6 none r.addr else s
      (s.dataOf r u).perf 9 128
    else s.errorOf r

/-- A write completes, or its descriptor ends with FABRIC_ERROR (15 R379). -/
def State.onWriteAck (tag status : Nat) (s : State) : State :=
  match s.fab.writes.find? fun r => r.tag = tag with
  | none => s.badTag
  | some r =>
    let s := { s with fab := { s.fab with writes := s.fab.writes.filter fun q => q.tag ≠ r.tag } }
    if r.dead then s.incRf 0x390 31 16 else if status = 0 then s.ackOf r else s.errorOf r

/-- READ_DATA (15 R379). -/
def execReadData (tag : BitVec 12) (status : BitVec 2) (u : Unit128) (s : State) : Host.Outcome State Fault Refusal :=
  .next (s.arrive 2 (State.onReadData tag.toNat status.toNat u))

/-- WRITE_ACK (15 R379). -/
def execWriteAck (tag : BitVec 12) (status : BitVec 2) (s : State) : Host.Outcome State Fault Refusal :=
  .next (s.arrive 2 (State.onWriteAck tag.toNat status.toNat))

/-- FABRIC_REQUEST_TIMEOUT (15 R380): the request completes with TARGET_ERROR; its tag stays taken. -/
def execFabricRequestTimeout (isWrite : Bool) (tag : BitVec 12) (s : State) : Host.Outcome State Fault Refusal :=
  .next <| if s.rf 0x380 15 0 = 0 then s else
  match (if isWrite then s.fab.writes else s.fab.reads).find? fun r => r.tag = tag.toNat && !r.dead with
  | none => s
  | some r =>
    let kill := fun (l : List Req) => l.map fun q => if q.tag = r.tag then { q with dead := true } else q
    let s := if isWrite then { s with fab := { s.fab with writes := kill s.fab.writes } }
      else { s with fab := { s.fab with reads := kill s.fab.reads } }
    s.errorOf r

/-! ### The port goes DOWN (15 R376) -/

/-- The sender discards a rejected entry (06 R155). -/
def State.rejectEntry (s : State) (n : Nat) (e : Entry) : State :=
  (s.modCtx n fun c => { c with entries := c.entries.filter (fun x => !(x.tkt = e.tkt && x.sent.isSome)), reject := true }).raise evQueueFabricErr

/-- Every queue message sent and not acknowledged, by context. -/
def State.unacked (s : State) : List (Nat × Entry) :=
  s.qsy.flatMap fun (n, c) => if s.ctxClass n = 5 then (c.entries.filter (·.sent.isSome)).map fun e => (n, e) else []

/-- Take the port DOWN for a channel. -/
def State.fabDown (s : State) (ch : Nat) : State :=
  if !s.pins.fpUp then s else
  let s := (((s.setRf 0x388 7 4 ch).setRf 0x388 1 1 1).setRf 0x388 0 0 0).raise evFabricDown
  let s := { s with pins := { s.pins with fpUp := false } }
  let open' := (s.fab.reads ++ s.fab.writes).filter fun r => !r.dead
  let s := { s with fab := { s.fab with reads := [], writes := [], links := [] } }
  let s := open'.foldl State.errorOf s
  s.unacked.foldl (fun s p => s.rejectEntry p.1 p.2) s

/-! ### Link layer (15 R373 to R375) -/

/-- Drop the acknowledged flits: those up to `seq`, where `seq` is one of them. -/
def ackUpTo (seq : Nat) (l : List (Nat × Nat × Nat)) : List (Nat × Nat × Nat) :=
  match l.findIdx? fun p => p.1 = seq with
  | some i => l.drop (i + 1)
  | none => l

/-- LINK_ACK (15 R375): flits up to `seq` leave the replay buffer. -/
def execLinkAck (ch : BitVec 4) (seq : Byte) (s : State) : Host.Outcome State Fault Refusal :=
  let c := ch.toNat
  .next <| if isOutbound c && s.pins.fpUp then
    (s.modLink c fun l => { l with replay := ackUpTo seq.toNat l.replay }).pumpLink c
  else s

/-- LINK_NAK (15 R375, R376): every flit after `seq` is sent again; a fifth time takes the port DOWN. -/
def execLinkNak (ch : BitVec 4) (seq : Byte) (s : State) : Host.Outcome State Fault Refusal :=
  let c := ch.toNat
  .next <| if isOutbound c && s.pins.fpUp then
    let s := s.modLink c fun l => { l with replay := (ackUpTo seq.toNat l.replay).map fun p => (p.1, p.2.1, p.2.2 + 1) }
    let l := s.link c
    let s := if l.replay.isEmpty then s else s.incRf 0x390 47 32
    if l.replay.any fun p => decide (p.2.2 ≥ 5) then s.fabDown c else s.pumpLink c
  else s

/-- LINK_CREDIT (15 R373): a credit comes back; past 255 it is ignored and CRDOVF sets. -/
def execLinkCredit (ch : BitVec 4) (s : State) : Host.Outcome State Fault Refusal :=
  let c := ch.toNat
  .next <| if isOutbound c && s.pins.fpUp then
    if (s.link c).credits ≥ 255 then s.setRf 0x388 2 2 1
    else (s.modLink c fun l => { l with credits := l.credits + 1 }).pumpLink c
  else s

/-! ### Queue messages (15 R381 to R383) -/

def Asm.isFor (a : Asm) (m : QMsg) : Bool := a.splace = m.splace.toNat && a.sctx = m.sctx.toNat && a.tkt = m.ticket.toNat

/-- The cars of a complete assembly. -/
def Asm.cars (a : Asm) : List Car :=
  ((upto (ceilDiv a.ncar 2)).flatMap fun i =>
    match a.flits.find? fun p => p.1 = i with
    | some (_, m) => [Car.mk (BitVec.ofNat 512 m.data.toNat) m.poison .good, Car.mk (BitVec.ofNat 512 (m.data.toNat >>> 512)) m.poison .good]
    | none => []).take a.ncar

def Asm.complete (a : Asm) : Bool := (upto (ceilDiv a.ncar 2)).all fun i => a.flits.any fun p => p.1 = i

/-- Can a flit be taken from the tw buffer: its entry is in assembly, or fewer than 32 are? -/
def State.asmRoom (s : State) (m : QMsg) : Bool := (s.fab.asm.any fun a => a.isFor m) || decide (s.fab.asm.length < 32)

/-- Place one flit; the last one of its entry ends the assembly with a QMSG_ACK (15 R382, 06 R155). -/
def State.placeFlit (s : State) (m : QMsg) : State :=
  let n := m.rctx.toNat
  let k := m.ncar.toNat + 1
  let s := if (s.fab.asm.any fun a => a.isFor m) then s
    else
      let ok := s.ctxBound n && decide (s.ctxClass n = 6) && s.canAlloc n k
      { s with fab := { s.fab with asm := s.fab.asm ++ [⟨m.splace.toNat, m.sctx.toNat, m.ticket.toNat, n, k, ok, []⟩] } }
  let put := fun (a : Asm) => if a.isFor m then { a with flits := a.flits ++ [(m.fidx.toNat, m)] } else a
  let s := { s with fab := { s.fab with asm := s.fab.asm.map put } }
  match s.fab.asm.find? fun a => a.isFor m && a.complete with
  | none => s
  | some a =>
    let s := { s with fab := { s.fab with asm := s.fab.asm.filter fun b => !b.isFor m } }
    let s := if a.ok then s.hold a.rctx ⟨a.tkt, a.cars, some (a.splace, a.sctx), none, none⟩ else s.incRf 0x2060 15 0
    s.send 4 (trAck a.sctx (if a.ok then 0 else 3) a.tkt a.splace)

/-- Take what the tw buffer holds while assemblies have room; its entries are free again. -/
def drainTw : Nat → State → State
  | 0, s => s
  | k + 1, s =>
    match s.fab.twbuf.find? s.asmRoom with
    | some m => drainTw k (({ s with fab := { s.fab with twbuf := s.fab.twbuf.erase m } }.placeFlit m).freeRx 3)
    | none => s

/-- Poison that comes with a queue message is recorded (09 R258), with its target context as the location: log entry 136, DESIGN CHOICE. -/
def State.notePoisonMsg (s : State) (m : QMsg) : State := if m.poison then s.fault 0x0B 6 none m.rctx.toNat else s

/-- A flit of a queue entry arrives (15 R382). One that finds the 32 entries of the tw buffer taken was sent without a credit
and is lost: log entry 93, DESIGN CHOICE. -/
def State.onQmsg (m : QMsg) (s : State) : State :=
  if m.place.toNat ≠ s.place then (s.incRf 0x398 15 0).freeRx 3
  else if s.fab.twbuf.length ≥ rxDepth 3 then s
  else
    let s := s.notePoisonMsg m
    drainTw (s.fab.twbuf.length + 1) { s with fab := { s.fab with twbuf := s.fab.twbuf ++ [m] } }

/-- The entry's cars are free, or the entry is rejected (15 R383). Log entry 51, DEDUCED. -/
def State.onQmsgAck (n tkt status : Nat) (s : State) : State :=
  match (if s.ctxClass n = 5 then (s.ctx n).entries.find? fun e => e.tkt = tkt && e.sent.isSome else none) with
  | none => s.badTag
  | some e =>
    if status = 0 then s.modCtx n fun c => { c with entries := c.entries.filter fun x => !(x.tkt = e.tkt && x.sent.isSome) }
    else s.rejectEntry n e

/-- CREDIT grows, at most to MAXQ (15 R383). -/
def State.onQmsgCredit (n cars : Nat) (s : State) : State :=
  if s.ctxBound n && s.ctxClass n = 5 then s.modCtx n fun c => { c with credit := min (s.maxq n) (c.credit + cars) }
  else s.badTag

/-- QMSG (15 R382). -/
def execQmsg (m : QMsg) (s : State) : Host.Outcome State Fault Refusal := .next (if s.pins.fpUp then State.onQmsg m s else s)

/-- QMSG_ACK (15 R383). -/
def execQmsgAck (sctx : BitVec 12) (ticket : W16) (status : BitVec 2) (_place : BitVec 24) (s : State) :
    Host.Outcome State Fault Refusal :=
  .next (s.arrive 2 (State.onQmsgAck sctx.toNat ticket.toNat status.toNat))

/-- QMSG_CREDIT (15 R383). -/
def execQmsgCredit (sctx : BitVec 12) (cars : BitVec 5) (_place : BitVec 24) (s : State) : Host.Outcome State Fault Refusal :=
  .next (s.arrive 2 (State.onQmsgCredit sctx.toNat cars.toNat))

end Sys2Proof.Machine
end

