-- ==== Sys2Proof/Machine/Consist.lean ====
section
/-!
DEFINITION. Consists: opening, local and voted commit, abort and the vote rounds (11 R278, R286 to R297, 08 R230 to R232).
-/

namespace Sys2Proof.Machine

/-! ### Opening and the outcome -/

/-- Open the next consist of a stream (11 R278). -/
def State.openConsist (s : State) (st : Sid) : State × Nat :=
  let id := s.rf 0x1448 15 0
  ((s.setRf 0x1448 15 0 (id + 1)).modCsu st fun _ => { Csu.reset with st := .opened, id := id, waiting := (s.csu st).waiting }, id)

def cbeginWrites (wr : Option Nat) (id : Nat) : List RegWr := match wr with | some r => [⟨0, r, id⟩] | none => []

/-- A CBEGIN that waits for the previous outcome goes on (11 R278). -/
def State.resumeCbegin (s : State) (st : Sid) : State :=
  match (s.str st).wait with
  | some w =>
    match w.kind with
    | .cbegin wr =>
      let (s, id) := s.openConsist st
      s.finishWait st (cbeginWrites wr id)
    | _ => s
  | none => s

/-- The record of Table 8-20. -/
def outcomeRecord (st : Sid) (committed : Bool) (code id : Nat) : Nat :=
  sidNat st * 2 ^ 32 + (if committed then 0 else code % 256) * 2 ^ 24 + b2n committed * 2 ^ 16 + id % 2 ^ 16

/-- The outcome is decided: the CT record, the end of a wait for it, the state IDLE (08 R230, R232, 11 R288). The consist's fabric-write
descriptors may complete (R277). -/
def State.outcome (s : State) (st : Sid) (committed : Bool) : State :=
  let c := s.csu st
  let free := fun (l : List Chan) => l.map fun k => if k.cs = some c.id then { k with held := false } else k
  let s := s.modCsu st fun c => { Csu.reset with waiting := c.waiting }
  let s := if st = .a then { s with chans := s.chans.map fun (i, l) => (i, free l) } else s
  let s := if c.ct then s.enginePush 15 (mkEntry [⟨BitVec.ofNat 512 (outcomeRecord st committed c.code c.id), false, .good⟩]) else s
  match (s.str st).wait with
  | some w =>
    match w.kind with
    | .outcome pd rn =>
      s.finishWait st ((match pd with | some p => [RegWr.mk 2 p (b2n committed)] | none => []) ++
        (match rn with | some r => [RegWr.mk 0 r (if committed then 0 else c.code)] | none => []))
    | _ => s.resumeCbegin st
  | none => s

/-- Release one held write to the fabric port (11 R288). -/
def State.releaseHeld (s : State) (h : Held) : State :=
  match h with
  | .wr r =>
    (s.modChan r.ch r.tkt fun c => { c with left := c.left + 1 }).addReq r
  | .entry n e => s.enginePushT 32 n (some e.tkt) e

/-- A doomed consist ends: its outcome waits for the last log word restored (11 R299, Table 11-3). -/
def State.endDoomed (s : State) (st : Sid) : State :=
  if (s.csu st).left = 0 then s.outcome st false else s.modCsu st fun c => { c with st := .rollback }

/-- The commit point: the log is discarded, the held writes are released, the outcome is a commit. -/
def State.commitNow (s : State) (st : Sid) : State :=
  let held := (s.csu st).held
  let s := s.modCsu st fun c => { c with held := [], log := [] }
  ((held.foldl State.releaseHeld s).flushWaiting st).outcome st true

/-- Does a command of this consist still have scratchpad writes or, naming a slot, merges to make, or a descriptor of it still
writes to stage (11 R288, 04 R96)? -/
def State.csBusy (s : State) (st : Sid) (id : Nat) : Bool :=
  let own := some id
  let stages := fun (d : List Byte) => let k := rdLe d 1 1 / 16; k = 0 || k = 1
  ((s.str st).scal.any fun a => !a.isLoad && a.cs = own) ||
  (decide (st = .x) && ((s.vec.ve.any fun v => v.cs = own && (!v.wr.isEmpty || v.mems.any fun m => decide (veSlotField m.c ≠ 0x7F))) ||
    ((s.arr.waiting ++ s.arr.running).any fun p => p.cs = own && decide (mxpSlot p.c ≠ 0x7F)) ||
    s.feedOpen fun f => f.cs = own && decide (ttfSlot f.c ≠ 0x7F))) ||
  (decide (st = .a) &&
    ((s.chans.any fun p => p.2.any fun c => c.cs = own && stages c.desc && (!c.allIssued || decide (c.left > 0) || !c.park.isEmpty)) ||
     (s.qsy.any fun p => decide (16 ≤ p.1) && decide (p.1 ≤ 31) && (p.2.entries.any fun e => e.cs = own && stages e.bytes))))

/-- Method R blocks not yet copied that hold a word or a held write of the consist (11 R296). -/
def State.csBlocks (s : State) (st : Sid) : List (Nat × Nat) :=
  let c := s.csu st
  (c.log.filterMap fun w => s.blockOf false (128 * w) 128) ++
  (c.held.filterMap fun h => match h with | .wr r => s.blockOf true r.addr 128 | .entry _ _ => none)

def State.csReady (s : State) (st : Sid) : Bool := !s.csBusy st (s.csu st).id && (s.csBlocks st).isEmpty

/-- Blocks that hold a commit back are copied first (11 R296). -/
def State.hurryAll (s : State) (st : Sid) : State := (s.csBlocks st).foldl State.hurry s

/-! ### Vote rounds (11 R291 to R294) -/

def vgW0 (s : State) (vg : Nat) : W64 := s.rd (0x1500 + 0x10 * vg)
def vgW1 (s : State) (vg : Nat) : W64 := s.rd (0x1508 + 0x10 * vg)
def vgRoot (s : State) (vg : Nat) : Bool := !bit (vgW0 s vg) 61

def State.round (s : State) (vg : Nat) (tick : W64) : Option Round := s.rounds.find? fun r => r.vg = vg && r.tick = tick
/-- Change a round, which its first vote or decision creates. -/
def State.modRound (s : State) (vg : Nat) (tick : W64) (f : Round → Round) : State :=
  let s := if (s.round vg tick).isSome then s
    else { s with rounds := s.rounds ++ [⟨vg, tick, 0, 0, true, false, 0, none, [], false, none⟩] }
  { s with rounds := s.rounds.map fun r => if r.vg = vg && r.tick = tick then f r else r }

/-- Send a DECISION to every valid child entry of the context's range (11 R293, 15 R384). -/
def State.tellChildren (s : State) (vg : Nat) (tick : W64) (commit : Bool) (reason : Nat) : State :=
  let w := vgW0 s vg
  (upto (fld w 46 40)).foldl (fun s i =>
    let e := s.rd (0x1600 + 8 * ((fld w 52 47 + i) % 64))
    if bit e 36 then
      s.send 5 (voDecision { place := BitVec.ofNat 24 (fld e 35 12), vg := BitVec.ofNat 4 (fld e 3 0), tick := tick,
                             commit := commit, reason := BitVec.ofNat 8 reason })
    else s) s

/-- The root decides (11 R293). -/
def State.rootDecide (s : State) (r : Round) (complete : Bool) : State :=
  let commit := r.ok && !r.stepErr && complete
  let reason := if commit then 0 else if r.stepErr then 6 else 8
  (s.modRound r.vg r.tick fun r => { r with decided := some (commit, reason) }).tellChildren r.vg r.tick commit reason

/-- Is a tick due: at or below the count, outside UNLOCKED (10 R265, R268)? -/
def State.isDue (s : State) (t : W64) : Bool := decide (s.mer.st ≠ .unlocked) && decide (t.toNat ≤ s.now.toNat)
/-- Was it due in an earlier ac? -/
def State.wasDue (s : State) (t : W64) : Bool := decide (t.toNat * 2 ^ 32 + s.mer.inc ≤ s.mer.count.toNat)

/-- Is the time at which the root decides a round at the latest, T − VGUARD, due (11 R293)? -/
def State.guardDue (s : State) (tick : W64) : Bool := s.isDue (BitVec.ofNat 64 (tick.toNat - s.rf 0x1410 31 16))

/-- A round after a vote: the root decides it when its count reaches EXPECT, or at once past T − VGUARD; another core sends its VOTE when the
count reaches EXPECT (11 R293). Log entry 76, DESIGN CHOICE. -/
def State.roundFull (s : State) (vg : Nat) (tick : W64) : State :=
  match s.round vg tick with
  | none => s
  | some r =>
    if r.sent || r.decided.isSome then s
    else if vgRoot s vg && s.guardDue tick then s.rootDecide r false
    else if r.arrivals ≠ fld (vgW0 s vg) 59 53 then s
    else if vgRoot s vg then s.rootDecide r true
    else
      let p := vgW1 s vg
      let (step, fc) := match r.step with
        | some v => (v, s.freeCount)
        | none => (BitVec.ofNat 32 (fld (Config.freeValue s.freeCount) 31 0), s.freeCount + 1)
      let m : VoteMsg := { place := BitVec.ofNat 24 (fld p 35 12), vg := BitVec.ofNat 4 (fld p 3 0), tick := tick, step := step
                           ok := r.ok, stepErr := r.stepErr, reason := BitVec.ofNat 8 r.reason
                           count := BitVec.ofNat 16 (min 0xFFFF r.votes) }
      ({ s with freeCount := fc }.modRound vg tick fun r => { r with sent := true }).send 5 (voVote m)

/-- The root has decided a round whose votes were not all in at T − VGUARD, before any later vote (11 R293). -/
def State.rootGuard (s : State) (vg : Nat) (tick : W64) : State :=
  if !vgRoot s vg || !s.guardDue tick then s else
  match s.round vg tick with
  | some r => if r.decided.isSome then s else s.rootDecide r false
  | none => s

/-- Enter the local vote of a stream's consist (11 R292, R293). -/
def State.enterVote (s : State) (st : Sid) : State :=
  let c := s.csu st
  let s := s.rootGuard c.vg c.tick
  let s := s.modRound c.vg c.tick fun r =>
    { r with arrivals := r.arrivals + 1, votes := r.votes + 1, ok := r.ok && decide (c.code = 0)
             reason := if c.code ≠ 0 && r.ok then c.code else r.reason, step := some c.step
             stepErr := r.stepErr || r.steps.any fun v => v ≠ c.step }
  (s.modCsu st fun c => { c with ready := true }).roundFull c.vg c.tick

/-- Forget decided rounds that are due and that no voting consist of the core still names. -/
def State.pruneRounds (s : State) : State :=
  let named := fun (c : Csu) (r : Round) => c.st = .deciding && c.voted && c.vg = r.vg && c.tick = r.tick
  { s with rounds := s.rounds.filter fun r => r.decided.isNone || !s.isDue r.tick || named s.cA r || named s.cX r }

/-- Apply a decision to a voting stream's consist (11 R292, R294). VOTE_FAILED names the reason of the round's first NO vote where the
core knows it (Table 11-5): the root from its round, another core from a message that carries it. -/
def State.applyDecision (s : State) (st : Sid) (commit : Bool) (reason : Nat) : State :=
  let c := s.csu st
  let s := if s.wasDue c.tick then s.setRf 0x1418 10 10 1 else s
  let s := s.setRf 0x1418 9 9 0
  if commit && c.code = 0 then s.commitNow st
  else
    let code := if !commit && reason = 6 then 6 else if c.code ≠ 0 then c.code else 8
    let why := if reason ≠ 0 && reason ≠ 8 then reason
      else match s.round c.vg c.tick with | some r => if vgRoot s c.vg && r.reason ≠ 8 then r.reason else 0 | none => 0
    let detail := (if code = c.code then c.detail % 2 ^ 15 else if code = 8 then why else 0) + (if commit then 2 ^ 15 else 0)
    let s := s.modCsu st fun c => { c with code := code, detail := detail }
    let s := if commit then s.raise evConsistSplit else s
    let s := if c.gone then (s.lastAbort st).endDoomed st else s.rollBack st .rollback
    if !commit && reason = 6 then
      let s := s.deferHalt .x 0x13 c.step.toNat c.tag c.slot c.lw
      if st = .a then s.deferHalt .a 0x13 c.step.toNat c.tag c.slot c.lw else s
    else s

/-! ### CBEGIN, CCOMMIT, CVOTE, CABORT -/

/-- Has the stream an open consist (08 R230)? -/
def hasOpen (s : State) (st : Sid) : Bool := (s.csu st).st = .opened || (s.csu st).st = .doomed

def chkCbegin (s : State) (st : Sid) (c : Slot) : List Chk := encChks c 0 [(43, 0)] ++ [chk 6 (hasOpen s st) 0x0C]
def runCbegin (s : State) (st : Sid) (c : Slot) : Res :=
  let wr := if bit c.base 47 then some (c.f 46 44) else none
  if (s.csu st).st = .idle then
    let (s, id) := s.openConsist st
    .ok s (cbeginWrites wr id)
  else .wait s (.cbegin wr) []

/-- Where a commit or a vote delivers its outcome (08 R230). -/
def outDst (c : Slot) : Option Nat × Option Nat :=
  (if bit c.base 46 then some (c.f 45 43) else none, if bit c.base 42 then some (c.f 41 39) else none)
/-- Go on, or wait for the outcome, which may be decided already. -/
def outWait (s : State) (st : Sid) (c : Slot) (code : Nat) : Res :=
  let (pd, rn) := outDst c
  if !bit c.base 47 then .ok s []
  else if (s.csu st).st = .idle then
    .ok s ((match pd with | some p => [RegWr.mk 2 p 0] | none => []) ++ (match rn with | some r => [RegWr.mk 0 r code] | none => []))
  else .wait s (.outcome pd rn) []
def outRegs (c : Slot) : List (Nat × Nat) :=
  (if bit c.base 46 then [(2, c.f 45 43)] else []) ++ (if bit c.base 42 then [(0, c.f 41 39)] else [])

/-- W = 0 with PV or RV (08 R231). -/
def chkOut (c : Slot) : Chk := chk 1 (!bit c.base 47 && (bit c.base 46 || bit c.base 42)) 3

def chkCcommit (s : State) (st : Sid) (c : Slot) : List Chk :=
  let mt := c.f 37 32
  let dl := bit c.base 38
  encChks c (if dl then mtWords mt else 0) [(31, 0)] ++ [chkOut c] ++
  (if dl then mtChks s (s.str st) c mt 0 else []) ++ [chk 6 (!hasOpen s st) 0x0C]

def runCcommit (s : State) (st : Sid) (c : Slot) : Res :=
  let dl := bit c.base 38
  if dl && s.mer.st = .unlocked then .stall lockStall 0 else
  let k := s.csu st
  let tg := mtTarget s (s.str st) c (c.f 37 32) 0
  let s := if dl then s.lateMark tg else s
  if k.st = .doomed then
    outWait ((s.modCsu st fun k => { k with ct := c.ct }).endDoomed st) st c k.code
  else
    let s := s.modCsu st fun k => { k with st := .deciding, voted := false, deadline := if dl then some tg else none, ct := c.ct
                                           tag := c.tag, lw := s.here st, slot := c.kind }
    outWait (s.hurryAll st) st c 0

def chkCvote (s : State) (st : Sid) (c : Slot) : List Chk :=
  let mt := c.f 31 26
  let w := vgW0 s (c.f 38 35)
  encChks c (mtWords mt) [(25, 0)] ++ [chkOut c] ++ mtChks s (s.str st) c mt 0 ++
  [chk 6 (!hasOpen s st) 0x0C, chk 6 (decide (s.mer.st = .holdover)) 0x1A, chk 6 (!bit w 63 || !bit w 62) 3]

def runCvote (s : State) (st : Sid) (c : Slot) : Res :=
  if s.mer.st = .unlocked then .stall lockStall 0 else
  let t := s.str st
  let gone := decide ((s.csu st).st = .doomed)
  let tg := mtTarget s t c (c.f 31 26) 0
  let s := (s.lateMark tg).modCsu st fun k =>
    { k with st := .deciding, voted := true, ready := false, vg := c.f 38 35, tick := tg, step := t.rdN (c.f 34 32), deadline := none
             ct := c.ct, tag := c.tag, lw := s.here st, slot := c.kind, gone := gone }
  outWait (if gone then s.enterVote st else s.hurryAll st) st c 0

def chkCabort (s : State) (st : Sid) (c : Slot) : List Chk := encChks c 0 [(47, 0)] ++ [chk 6 (!hasOpen s st) 0x0C]

/-- End an open or doomed consist with EXPLICIT, as CABORT and a stream reset do (11 Table 11-3). Log entry 75, DEDUCED. -/
def State.endExplicit (s : State) (st : Sid) (detail : Nat) : State :=
  let c := s.csu st
  match c.st with
  | .doomed => s.endDoomed st
  | .opened => (if c.due.isSome then s else s.modCsu st fun c => { c with code := 1, detail := detail }).rollBackDue st .rollback
  | _ => s

/-- A stream reset ends the consist, whatever its state (11 Table 11-3, R295), and a vote that has not left becomes NO (R292). A rollback
that waits for the end of a checkpoint stop keeps its reason. -/
def State.resetConsist (s : State) (st : Sid) : State :=
  let c := s.csu st
  match c.st with
  | .deciding =>
    let s := s.setRf 0x1418 9 9 0
    let s := if c.voted && c.ready && c.code = 0 then s.replaceVote c.vg c.tick 1 else s
    (if c.due.isSome then s else s.modCsu st fun k => { k with code := 1, detail := 1 + (if c.voted then 2 ^ 15 else 0) }).rollBackDue st .rollback
  | _ => s.endExplicit st 1

def runCabort (s : State) (st : Sid) (c : Slot) : Res :=
  .ok ((s.modCsu st fun k => { k with ct := c.ct, tag := c.tag, lw := s.here st, slot := c.kind }).endExplicit st 0) []

/-- Registers that CBEGIN names. -/
def beginRegs (c : Slot) : List (Nat × Nat) := if bit c.base 47 then [(0, c.f 46 44)] else []
def cbeginSem : CmdSem := ⟨beginRegs, beginRegs, isWc, fun s st c _ => chkCbegin s st c, fun s st c _ => runCbegin s st c⟩
def ccommitSem : CmdSem := ⟨fun c => outRegs c ++ (if bit c.base 38 then mtRegs (c.f 37 32) else []), outRegs, fun c => bit c.base 47,
  fun s st c _ => chkCcommit s st c, fun s st c _ => runCcommit s st c⟩
def cvoteSem : CmdSem := ⟨fun c => outRegs c ++ [(0, c.f 34 32)] ++ mtRegs (c.f 31 26), outRegs, fun c => bit c.base 47,
  fun s st c _ => chkCvote s st c, fun s st c _ => runCvote s st c⟩
def cabortSem : CmdSem := ⟨noRegs, noRegs, notW, fun s st c _ => chkCabort s st c, fun s st c _ => runCabort s st c⟩

/-- CBEGIN as a command of its own (08 R230). -/
def execCbegin (st : Sid) (c : Slot) (s : State) : Host.Outcome State Fault Refusal := issueRow cbeginSem st (asOpc 0x28 c) s
/-- CCOMMIT as a command of its own (08 R230). -/
def execCcommit (st : Sid) (c : Slot) (s : State) : Host.Outcome State Fault Refusal := issueRow ccommitSem st (asOpc 0x29 c) s
/-- CVOTE as a command of its own (08 R230). -/
def execCvote (st : Sid) (c : Slot) (s : State) : Host.Outcome State Fault Refusal := issueRow cvoteSem st (asOpc 0x2A c) s
/-- CABORT as a command of its own (08 R230). -/
def execCabort (st : Sid) (c : Slot) (s : State) : Host.Outcome State Fault Refusal := issueRow cabortSem st (asOpc 0x2B c) s

/-! ### The unit's events -/

def deciding (c : Csu) (voted : Bool) : Bool := c.st = .deciding && c.voted == voted

/-- Is a local commit's deadline due (11 R289)? -/
def State.pastDeadline (s : State) (st : Sid) : Bool :=
  deciding (s.csu st) false && (match (s.csu st).deadline with | some d => s.isDue d | none => false)

/-- COMMIT_POINT (11 R288, R289): a local commit whose conditions hold commits; a deadline due by then aborts it. -/
def execCommitPoint (st : Sid) (s : State) : Host.Outcome State Fault Refusal :=
  .next <| if s.pastDeadline st then s.abort st 7 0
    else if deciding (s.csu st) false && s.csReady st && decide (s.cstate ≠ 1) then s.commitNow st else s

/-- DEADLINE (11 R289): the deadline falls due before the commit point. -/
def execDeadline (st : Sid) (s : State) : Host.Outcome State Fault Refusal :=
  .next (if s.pastDeadline st then s.abort st 7 0 else s)

/-- VOTE_SEND (11 R292): the streams' CVOTEs in the group whose conditions hold, or that hold a reason, enter their votes. -/
def execVoteSend (vg : BitVec 4) (s : State) : Host.Outcome State Fault Refusal :=
  .next <| [Sid.a, Sid.x].foldl (fun s st =>
    let c := s.csu st
    if deciding c true && !c.ready && c.vg = vg.toNat && (s.csReady st || c.code ≠ 0) then s.enterVote st else s) s

/-- The undecided rounds of a group: those with votes in, and those of the core's own CVOTEs that still wait. -/
def State.openRounds (s : State) (vg : Nat) : List W64 :=
  ((s.rounds.filter fun r => r.vg = vg).map (·.tick) ++
    ([s.cA, s.cX].filter fun c => deciding c true && decide (c.vg = vg)).map (·.tick)).filter
    fun t => ((s.round vg t).bind (·.decided)).isNone

/-- ROOT_GUARD_DECIDE (11 R293): the root decides at T − VGUARD. -/
def execRootGuardDecide (vg : BitVec 4) (s : State) : Host.Outcome State Fault Refusal :=
  .next <| match (s.openRounds vg.toNat).find? s.guardDue with
  | some t => if vgRoot s vg.toNat then (s.modRound vg.toNat t id).rootGuard vg.toNat t else s
  | none => s

/-- May a decision be applied to a stream's consist now: its T is due, no stop runs, and a commit is not held by a block's copy
(11 R294, R296)? -/
def State.mayDecide (s : State) (st : Sid) (commit : Bool) : Bool :=
  let c := s.csu st
  deciding c true && s.isDue c.tick && decide (s.cstate ≠ 1) && (!commit || decide (c.code ≠ 0) || (s.csBlocks st).isEmpty)

/-- DECISION_APPLY (11 R294): at T the core applies the decision. -/
def execDecisionApply (st : Sid) (s : State) : Host.Outcome State Fault Refusal :=
  let c := s.csu st
  .next <| match (s.round c.vg c.tick).bind (·.decided) with
  | some (commit, reason) =>
    if s.mayDecide st commit then (s.applyDecision st commit reason).pruneRounds
    else if deciding c true then s.hurryAll st else s
  | none => s

/-- CONSIST_VOTE_LOST (11 R295): no decision VOTETMO µs after T. -/
def execConsistVoteLost (st : Sid) (s : State) : Host.Outcome State Fault Refusal :=
  let c := s.csu st
  let tmo := s.rf 0x1410 47 32
  .next <| if deciding c true && tmo ≠ 0 && s.isDue (BitVec.ofNat 64 (c.tick.toNat + 1000 * tmo)) &&
      ((s.round c.vg c.tick).bind (·.decided)).isNone then
    (s.setRf 0x1418 9 9 1).raise evConsistVoteLost
  else s

/-- Does a decided COMMIT wait for nothing but blocks (11 R294, R296)? -/
def State.commitHeld (s : State) (c : Csu) : Bool :=
  s.isDue c.tick && ((s.round c.vg c.tick).bind (·.decided)).any fun d => d.1

/-- CKPT_STALL (11 R296): copy-before-overwrite holds a commit point, or a vote's entry, longer than CKTMO. -/
def execCkptStall (st : Sid) (s : State) : Host.Outcome State Fault Refusal :=
  let c := s.csu st
  .next <| if s.rf 0x1410 15 0 ≠ 0 && c.st = .deciding && (!c.ready || s.commitHeld c) && !(s.csBlocks st).isEmpty then s.abort st 9 0 else s

/-- ROLLBACK_COMPLETE (11 R299): the last log word is restored, and the outcome is an abort. -/
def execRollbackComplete (st : Sid) (s : State) : Host.Outcome State Fault Refusal :=
  .next <| if (s.csu st).st = .rollback && (s.csu st).left = 0 && decide (s.cstate ≠ 1) then s.outcome st false else s

/-- A child's VOTE joins its round (11 R293). -/
def State.onVote (m : VoteMsg) (s : State) : State :=
  let vg := m.vg.toNat
  let s := if m.place.toNat = s.place then s.rootGuard vg m.tick else s
  if m.place.toNat ≠ s.place then s.incRf 0x398 15 0
  else if (((s.round vg m.tick).bind (·.decided)).isSome) || s.isDue m.tick then s.incRf 0x1440 31 16
  else
    (s.modRound vg m.tick fun r =>
      { r with arrivals := r.arrivals + 1, votes := r.votes + m.count.toNat, ok := r.ok && m.ok
               reason := if !m.ok && r.ok then m.reason.toNat else r.reason, steps := r.steps ++ [m.step]
               stepErr := r.stepErr || m.stepErr || (match r.step with | some v => decide (v ≠ m.step) | none => false) }).roundFull vg m.tick

/-- A DECISION goes on to the children and awaits T; where T is already due it applies on arrival (11 R293, R294). -/
def State.onDecision (m : DecMsg) (s : State) : State :=
  let vg := m.vg.toNat
  if m.place.toNat ≠ s.place then s.incRf 0x398 15 0
  else
    let s := (s.modRound vg m.tick fun r => { r with decided := some (m.commit, m.reason.toNat) }).tellChildren vg m.tick m.commit m.reason.toNat
    State.pruneRounds <| [Sid.a, Sid.x].foldl (fun s st =>
      let c := s.csu st
      if c.vg = vg && c.tick = m.tick && s.wasDue m.tick && s.mayDecide st m.commit then s.applyDecision st m.commit m.reason.toNat
      else s) s

/-- VOTE (11 R293). -/
def execVote (m : VoteMsg) (s : State) : Host.Outcome State Fault Refusal := .next (s.arrive 6 (State.onVote m))
/-- DECISION (11 R293, R294). -/
def execDecision (m : DecMsg) (s : State) : Host.Outcome State Fault Refusal := .next (s.arrive 6 (State.onDecision m))

end Sys2Proof.Machine
end

