-- ==== Sys2Proof/Machine/Imem.lean ====
section
/-!
DEFINITION. Instruction memory: the running bank and its switches, the host window, corrected rows (09 R243 to R246), the
image checks of a start (00 R6), corrected scratchpad words (06 R137).
-/

namespace Sys2Proof.Machine

/-- The lifecycle state (16 Table 16-7): 0 BLANK, 1 PROVISIONED, 2 SECURED, 3 DEBUG-OPEN, 4 RETIRED. -/
def State.lcs (s : State) : Nat := s.rf 8 15 13
/-- The lifecycle-denied status of 00 R13. -/
def State.deny (s : State) : State := s.setRf 0x7008 0 0 1

/-- Write both streams' entries from a bank's header (09 R244). -/
def State.entriesFrom (s : State) (bank : Nat) : State :=
  let e := s.rd (bankInfo bank + 8)
  (s.setRf 0x410 16 4 (fld e 12 0)).setRf 0x510 16 4 (fld e 28 16)

/-- A stream's entry in a bank, in bytes. -/
def State.bankEntry (s : State) (bank : Nat) (st : Sid) : Nat :=
  let e := s.rd (bankInfo bank + 8)
  16 * (match st with | .a => fld e 12 0 | .x => fld e 28 16)

/-- The image checks of 00 R6 and 09 R244 on the running bank: the DETAIL of the halt where they fail (09 Table 9-8). -/
def State.imageBad (s : State) (needValid : Bool) : Option Nat :=
  let w := s.rd (bankInfo s.runBank)
  let major := fld w 47 40
  let minor := fld w 39 32
  let err := if bit w 63 then 0 else if fld w 61 59 ≠ 0 then fld w 61 59 else 0xFF
  if (needValid && !bit w 63) || decide (major ≠ s.rf 0 63 56) || decide (minor > s.rf 0 55 48) then
    some (err * 2 ^ 16 + major * 2 ^ 8 + minor)
  else none

/-- A halt at a boundary, with no command named. -/
def State.haltB (s : State) (st : Sid) (reason detail : Nat) : State :=
  s.takeHalt st ⟨reason, false, false, false, 0, 0, s.here st, 0, detail⟩

/-- A stream takes a switch that waits for it (09 R245): its loop stack empties, it continues at its entry in the new bank. -/
def State.takeSwitch (s : State) (st : Sid) : State :=
  let s := s.modStr st fun t => { t with swPend := false, loops := [], pc := BitVec.ofNat 17 (s.bankEntry s.runBank st), stall := none }
  let s := s.settleSwitch
  match (s.str st).st, s.imageBad false with
  | .stopped, _ => s
  | _, some d => s.haltB st 0x19 d
  | _, none => s

/-- An IMEM_SWITCH event (09 R245): false where it is refused. Log entry 70, DEDUCED. -/
def State.switchEvent (s : State) : State × Bool :=
  let idle := 1 - s.runBank
  if s.rb 0x208 2 then (s.setRf 0x208 1 1 1, false)
  else if !s.rb (bankInfo idle) 63 then (s.setRf 0x208 1 1 1, false)
  else
    let s := (s.setRf 0x208 8 8 idle).entriesFrom idle
    let s := [Sid.a, Sid.x].foldl (fun s st =>
      match (s.str st).st with
      | .running | .stopping => s.modStr st fun t => { t with swPend := true }
      | .stopped => s.takeSwitch st
      | _ => s) s
    (s.settleSwitch, true)

/-- STREAM_TAKES_SWITCH (09 R245, 07 R444). -/
def execStreamTakesSwitch (st : Sid) (s : State) : Host.Outcome State Fault Refusal :=
  let t := s.str st
  .next <| if t.swPend && t.wait.isNone && !t.lockWait && t.chain = 0 && decide (s.cstate ≠ 1) then s.takeSwitch st else s

/-- IMEM_SWITCH (09 R244): a host switch. -/
def State.hostSwitch (s : State) : State :=
  let quiet := fun (t : Stream) => t.st = .idle || t.st = .halted
  let idle := 1 - s.runBank
  if quiet s.sA && quiet s.sX && !s.loading idle then (s.setRf 0x208 8 8 idle).entriesFrom idle
  else s.setRf 0x208 1 1 1

/-! ### The access window (09 R243) -/

def State.hrow (s : State) : Nat := s.rf 0x220 17 17 * 8192 + s.rf 0x220 16 4

/-- A write of HADDR loads the addressed unit into the window. -/
def State.haddrWrite (s : State) (v : W64) : State :=
  let s := (s.setRf 0x220 17 17 (fld v 17 17)).setRf 0x220 16 4 (fld v 16 4)
  let r := tget 0 s.imem.rows s.hrow
  ((s.wr 0x228 (BitVec.ofNat 64 (fld r 63 0))).wr 0x230 (BitVec.ofNat 64 (fld r 127 64))).wr 0x238 (BitVec.ofNat 64 (fld r 159 128))

/-- A write of HTAG commits the window's unit to the idle bank. -/
def State.htagWrite (s : State) (v : W64) : State :=
  let s := s.wr 0x238 (BitVec.ofNat 64 (fld v 31 0))
  let bank := s.rf 0x220 17 17
  if s.bankRunning bank then s.setRf 0x208 0 0 1
  else if s.lcs = 2 || s.lcs = 4 then s.deny
  else
    let r := s.hrow
    let w : BitVec 160 := BitVec.ofNat 160 ((s.rd 0x228).toNat + (s.rd 0x230).toNat * 2 ^ 64 + fld v 31 0 * 2 ^ 128)
    ({ s with imem := { rows := tset 0 s.imem.rows r w, ecc := tset .good s.imem.ecc r .good
                        wb := s.imem.wb.filter (· ≠ r) } }).setRf (bankInfo bank) 62 62 1

/-! ### Correction write-backs -/

/-- IMEM_ECC_WRITEBACK (09 R246): a corrected row is written back. -/
def execImemEccWriteback (bank : Bool) (row : BitVec 13) (s : State) : Host.Outcome State Fault Refusal :=
  let r := b2n bank * 8192 + row.toNat
  .next <| if s.imem.wb.contains r then
    { s with imem := { s.imem with ecc := if tget .good s.imem.ecc r = .single then tset .good s.imem.ecc r .good else s.imem.ecc
                                   wb := s.imem.wb.filter (· ≠ r) } }
  else s

/-- SPM_ECC_WRITEBACK (06 R137): a corrected word is written back. -/
def execSpmEccWriteback (addr : BitVec 24) (s : State) : Host.Outcome State Fault Refusal :=
  let w := addr.toNat / 8
  .next <| if s.spm.wb.contains w then
    { s with spm := { s.spm with ecc := if tget .good s.spm.ecc w = .single then tset .good s.spm.ecc w .good else s.spm.ecc
                                 wb := s.spm.wb.filter (· ≠ w) } }
  else s

end Sys2Proof.Machine
end

