-- ==== Sys2Proof/Machine/StreamCtl.lean ====
section
/-!
DEFINITION. Starting, stopping, halting and resetting a stream (07 R196 to R204, 13 R350, 16 R402).
-/

namespace Sys2Proof.Machine

def State.ignore (s : State) (st : Sid) : State := s.setRf (strmBase st + 8) 20 20 1

/-- The position word of a key register as the test of R350 reads it: its corrections count (06 R137). Of an uncorrectable one the address
is recorded, and the value is a free value: log entry 145, DESIGN CHOICE. -/
def State.rngPos (s : State) (a : Nat) : State × Nat :=
  match s.badView none a 8 with
  | some w => let (s, v) := (s.noteUncorr none w).freeWord; (s, v.toNat)
  | none => (s.touchView none a 8, s.peekLe none a 8)

/-- Does a key register fail its position test (13 R350)? Log entry 107, DEDUCED. -/
def State.rngSkew (s : State) : State × Bool :=
  (upto 4).foldl (fun (s, skew) n =>
    let c := s.rd (0x1860 + 8 * n)
    let k := tget Key.zero s.keys n
    if !(k.seq && decide (fld c 63 48 ≠ 0)) then (s, skew)
    else
      let (s, pos) := s.rngPos (fld c 23 3 * 8)
      (s, skew || decide (k.ctr.toNat ≠ pos * fld c 63 48 % 2 ^ 32))) (s, false)

/-- The checks before the first command of a start: the image, then the key positions after a restore. Log entry 62, DEDUCED. -/
def State.startChecks (s : State) (st : Sid) (needValid : Bool) : State :=
  match s.imageBad needValid with
  | some d => s.haltB st 0x19 d
  | none =>
    if st = .x && s.cke.rngCheck then
      let (s, skew) := s.rngSkew
      let s := { s with cke := { s.cke with rngCheck := false } }
      if skew then s.haltB .x 0x12 0 else s
    else s

/-- START (07 R199, R200): from IDLE at ENTRY, from STOPPED at the pc. The flag says whether it took effect. A START while a restore
runs is ignored, so that every record is back before a stream starts (04 R101): log entry 121, DEDUCED. -/
def State.startStream (s : State) (st : Sid) : State × Bool :=
  match (s.str st).st with
  | .idle =>
    if s.rf 0x1808 6 5 = 3 || s.rf 0x1808 6 5 = 1 || (match s.bist with | some t => decide (t ≥ 0x10) | none => false) then (s.ignore st, false)
    else
      let entry := s.rf (strmBase st + 0x10) 16 4 * 16
      let s := s.modStr st fun _ => { Stream.reset with st := .running, pc := BitVec.ofNat 17 entry, fresh := true }
      (s.startChecks st true, true)
  | .stopped =>
    if (match s.bist with | some t => decide (t ≥ 0x10) | none => false) then (s.ignore st, false)
    else ((s.modStr st fun t => { t with st := .running }).startChecks st false, true)
  | _ => (s.ignore st, false)

/-- STOP (07 R201): the stream reads STOPPING until its boundary. -/
def State.stopStream (s : State) (st : Sid) : State :=
  match (s.str st).st with
  | .running => s.modStr st fun t => { t with st := .stopping }
  | _ => s.ignore st

/-- HALT (07 R202): at the next boundary, or at once from STOPPED. -/
def State.haltStream (s : State) (st : Sid) : State :=
  match (s.str st).st with
  | .running | .stopping => s.modStr st fun t => { t with haltReq := true }
  | .stopped => s.haltB st 0x18 0
  | _ => s.ignore st

/-- A ring's entries are discarded and its tickets start again at NT (06 Table 6-9). Log entry 46, DEDUCED. -/
def State.dropRing (s : State) (ch : Nat) : State :=
  s.modCtx (16 + ch) fun c => { c with entries := [], et := c.nt }

/-- Every descriptor in flight ends as ABORTED once its open requests are answered (06 R168, Table 6-8), an earlier one of a channel too:
log entry 144, DESIGN CHOICE. -/
def State.abandonDma (s : State) : State :=
  (s.dropChanWaits fun _ => true).allChans fun s ch =>
    let l := s.flight ch
    let s := { s with fab := { s.fab with todo := s.fab.todo.filter fun r => !(r.ch = ch) } }
    l.foldl (fun s c =>
      let open' := (s.fab.reads ++ s.fab.writes).filter fun r => r.ch = ch && r.tkt = c.tkt && !r.dead
      s.modChan ch c.tkt fun c => { c.setStatus 9 with left := open'.length }) s

/-- Writes of a reset stream that Method R blocks hold back are withdrawn with it (13 Table 13-6); those that wait for the outcome of a
consist are not (11 R285). -/
def State.dropBlocked (s : State) (st : Sid) : State :=
  if (s.csu st).due.isSome then s else s.modCsu st fun c => { c with waiting := [] }

/-- RESET (07 R203): the stream stops, its waits are withdrawn, its engines abandon their work, its consist aborts. -/
def State.resetStream (s : State) (st : Sid) : State :=
  match (s.str st).st with
  | .resetting => s.ignore st
  | _ =>
    let s := (s.withdraw st).modStr st fun t => { t with st := .resetting, chain := 0, pendHalt := none, haltReq := false, coReq := false,
                                                         swPend := false, fresh := false }
    let s := s.settleSwitch
    let s := (s.resetConsist st).dropBlocked st
    match st with
    | .a =>
      s.abandonDma.allChans State.dropRing
    | .x =>
      { s with vec := { s.vec with ve := [], redq := [] }
               arr := { s.arr with west := [], north := [], waiting := [], running := [], ftq := [], live := [], shadow := [], drain := [] } }

/-- VLD of the halt record and the state fields of STRM.STATUS clear (09 R257). -/
def State.clearHalt (s : State) (st : Sid) : State :=
  let b := strmBase st + 8
  (((s.setRf b 15 8 0).setRf b 18 18 0).setRf b 19 19 0).setRf (haltBase st) 55 55 0

/-- Stores that were issued reach the scratchpad (07 R176), but those held on a Method R block, which are withdrawn (13 Table 13-6). -/
def State.drainStores (s : State) (st : Sid) : State :=
  (s.str st).scal.foldl (fun s a => if a.isLoad || (s.blockOfPairs (some st) a.cs (a.addrs.zip a.bytes)).isSome then s
    else s.writePairs (some st) a.cs (a.addrs.zip a.bytes)) s

/-- STREAM_RESET_DONE (07 R203, 05 R133): the state of Table 7-1, IDLE. -/
def execStreamResetDone (st : Sid) (s : State) : Host.Outcome State Fault Refusal :=
  .next <| if (s.str st).st = .resetting then
    let s := (s.drainStores st).modStr st fun _ => Stream.reset
    let s := match st with
      | .a => s
      | .x => { s with vec := { s.vec with vlen := 0, m := [], k := [] }, keys := [] }
    s.clearHalt st
  else s

/-- STRM_START (07 R200). -/
def execStrmStart (st : Sid) (s : State) : Host.Outcome State Fault Refusal := .next (s.atHost (strmBase st) fun s => (s.startStream st).1)
/-- STRM_STOP (07 R201). -/
def execStrmStop (st : Sid) (s : State) : Host.Outcome State Fault Refusal := .next (s.atHost (strmBase st) fun s => (s.stopStream st))
/-- STRM_HALT (07 R202). -/
def execStrmHalt (st : Sid) (s : State) : Host.Outcome State Fault Refusal := .next (s.atHost (strmBase st) fun s => (s.haltStream st))
/-- STRM_RESET (07 R203). -/
def execStrmReset (st : Sid) (s : State) : Host.Outcome State Fault Refusal := .next (s.atHost (strmBase st) fun s => (s.resetStream st))

/-- STOP_BOUNDARY (07 R201): no wait, no open chain; a pending switch or halt is taken at the same boundary. -/
def execStopBoundary (st : Sid) (s : State) : Host.Outcome State Fault Refusal :=
  let t := s.str st
  .next <| if t.st = .stopping && t.wait.isNone && !t.lockWait && t.chain = 0 then
    if t.haltReq then s.haltB st 0x18 0
    else
      let s := if t.swPend then s.takeSwitch st else s
      if (s.str st).st = .stopping then s.modStr st fun t => { t with st := .stopped, stall := none } else s
  else s

/-- HOST_HALT (07 R202): at a boundary, with any wait withdrawn (R197, R444). A long word whose command waits has
not issued and is the one recorded: log entry 156, DEDUCED. -/
def execHostHalt (st : Sid) (s : State) : Host.Outcome State Fault Refusal :=
  let t := s.str st
  .next <| if (t.st = .running || t.st = .stopping) && t.haltReq && t.chain = 0 then s.haltB st 0x18 0 else s

/-- COHALT (07 R198): the stream takes its partner's reason. -/
def execCohalt (st : Sid) (s : State) : Host.Outcome State Fault Refusal :=
  let t := s.str st
  .next <| if (t.st = .running || t.st = .stopping || t.st = .stopped) && t.coReq && t.chain = 0 then
    s.takeHalt st ⟨s.rf (strmBase (otherSid st) + 8) 15 8, false, true, false, 0, 0, s.here st, 0, 0⟩
  else s

end Sys2Proof.Machine
end

