-- ==== Sys2Proof/Machine/Post.lean ====
section
/-!
DEFINITION. Posting slots (07 R192 to R195).
-/

namespace Sys2Proof.Machine

def postOff (n : Nat) : Nat := 0x4000 + 8 * n

/-- Write a slot: SEQ counts, VALID sets, and with EV the event is raised (07 R192). -/
def State.postPut (s : State) (n : Nat) (v : W32) (ev : Bool) : State :=
  let o := postOff n
  let s := (((s.setRf o 47 32 (s.rf o 47 32 + 1)).setRf o 31 0 v.toNat).setRf o 63 63 1).setRf o 62 62 0
  if ev then s.raise evPostReady else s

def postSlot (t : Stream) (c : Slot) : Nat := if bit c.base 47 then (t.rdN (c.f 40 38)).toNat else c.f 46 41

def chkPost (s : State) (st : Sid) (c : Slot) : List Chk :=
  let sel := c.f 36 31
  let f := selForm (s.str st).regs c sel 0
  encChks c (selWords sel) [(30, 0)] ++ [chk 1 (!isN sel && !isForm sel) 3, chk 3 (decide (postSlot (s.str st) c > 63)) 3] ++
  (if isForm sel then formChks s f [0, 3] 1 false ++ [chk 5 (decide (f.count > 1)) 6] else [])

/-- POST: the slot is written now, or the stream waits while VALID is 1. -/
def runPost (s : State) (st : Sid) (c : Slot) (lw : LwInfo) : Res :=
  let t := s.str st
  let sel := c.f 36 31
  let n := postSlot t c
  let ev := bit c.base 37
  let go := fun (s : State) (v : W32) => if s.rb (postOff n) 63 then Res.wait s (.post n v ev) [] else .ok (s.postPut n v ev) []
  if isN sel then go s (t.rdN (sel - 8))
  else
    let a := (selForm t.regs c sel 0).addrN 0
    if s.readWaits st lw a 4 then .stall quietStall 0
    else match s.badView (some st) a 4 with
      | some w => .ok (((s.noteUncorr (some (st, c.tag)) w).abortIf st (s.csu st).tagNow 3 1).noteHalt st 0x0B w c.tag c.kind) []
      | none => go (s.touchView (some st) a 4) (BitVec.ofNat 32 (s.peekLe (some st) a 4))

def postSem : CmdSem := ⟨fun c => (if bit c.base 47 then [(0, c.f 40 38)] else []) ++ formRegs c (c.f 36 31) 0, noRegs, isWc,
  fun s st c _ => chkPost s st c, runPost⟩

/-- POST as a command of its own (08 R233). -/
def execPost (st : Sid) (c : Slot) (s : State) : Host.Outcome State Fault Refusal := issueRow postSem st (asOpc 0x2F c) s

/-- POST_RESUME (07 R192): the slot is free, and the waiting POST writes it. -/
def execPostResume (st : Sid) (s : State) : Host.Outcome State Fault Refusal :=
  .next <| if s.cstate = 1 then s else match (s.str st).wait with
  | some w =>
    match w.kind with
    | .post n v ev => if s.rb (postOff n) 63 then s else (s.postPut n v ev).finishWait st []
    | _ => s
  | none => s

/-- A host acknowledgement (07 R194). -/
def State.postAckWrite (s : State) (v : W64) : State :=
  let o := postOff (fld v 21 16)
  if s.rb o 63 && decide (s.rf o 47 32 = fld v 15 0) then s.setRf o 63 63 0 else s.incRf 0x4208 15 0

/-- POST_SLOT_READ (07 R195): a read that finds a parity error returns the stored bits with PERR set, until the slot's next POST
rewrites it, and raises POST_PARITY. -/
def execPostSlotRead (n : BitVec 6) (parityErr : Bool) (s : State) : Host.Outcome State Fault Refusal :=
  .next (s.atHost (postOff n.toNat) fun s => if parityErr then ((s.fault 0x09 3 none n.toNat).raiseCause evStateParity 3).setRf (postOff n.toNat) 62 62 1 else s)

end Sys2Proof.Machine
end

