-- ==== Sys2Proof/Machine/Barrier.lean ====
section
/-!
DEFINITION. Barriers (06 R158 to R162, 08 R233, 17 R429).
-/

namespace Sys2Proof.Machine

def State.modBar (s : State) (n : Nat) (f : BarCtx → BarCtx) : State :=
  { s with bars := { s.bars with ctx := tmod BarCtx.zero s.bars.ctx n f } }

def BarCtx.next (b : BarCtx) : Sid → Nat | .a => b.ga | .x => b.gx
def BarCtx.last (b : BarCtx) : Sid → Option Nat | .a => b.lastA | .x => b.lastX

/-- Arrivals that count into the open round. -/
def BarCtx.count (b : BarCtx) : Nat :=
  (b.ents.filter fun e => e.counted && e.gen = b.o).length + (b.arrs.filter fun g => g = b.o).length

/-- Have all fabric requests up to a serial number their responses (06 R160)? -/
def State.fenceMet (s : State) (serial : Nat) : Bool :=
  ((s.fab.reads ++ s.fab.writes).all fun r => r.dead || decide (r.serial > serial)) &&
  s.qsy.all fun p => p.2.entries.all fun e => match e.sent with | some k => decide (k > serial) | none => true

/-- Release round O (06 R161): a FABRIC barrier tells its children. -/
def State.releaseRound (s : State) (n : Nat) : State :=
  let b := s.bar n
  let s := (upto (if bit b.w0 62 then fld b.w0 46 40 else 0)).foldl (fun s i =>
    let e := tget 0 s.bars.child ((fld b.w0 52 47 + i) % 64)
    if bit e 36 then
      s.send 7 (boMsg true { place := BitVec.ofNat 24 (fld e 35 12), bar := BitVec.ofNat 4 (fld e 3 0), gen := BitVec.ofNat 8 b.o })
    else s) s
  (s.modBar n fun b => { b with
    o := (b.o + 1) % 256, sent := false, ents := b.ents.filter (fun e => e.gen ≠ b.o), arrs := b.arrs.filter (· ≠ b.o) }).barrierEnds

/-- Where the open round's count has reached EXPECT: release it, or tell the parent once. A new round may be full too. -/
def barCheck (n : Nat) : Nat → State → State
  | 0, s => s
  | k + 1, s =>
    let b := s.bar n
    if b.count < fld b.w0 59 53 || b.sent then s
    else if bit b.w0 62 && bit b.w1 63 then
      (s.modBar n fun b => { b with sent := true }).send 7
        (boMsg false { place := BitVec.ofNat 24 (fld b.w1 35 12), bar := BitVec.ofNat 4 (fld b.w1 3 0), gen := BitVec.ofNat 8 b.o })
    else barCheck n k (s.releaseRound n)

def State.barFull (s : State) (n : Nat) : State := barCheck n 2 s

/-! ### BARR -/

def chkBarr (s : State) (st : Sid) (c : Slot) : List Chk :=
  let n := c.f 47 44
  let b := s.bar n
  let enter := bit c.base 43
  let g := b.next st
  encChks c 0 [(41, 0)] ++
  [chk 1 (!enter && !bit c.base 42) 3, chk 6 (!bit b.w0 63 || !bit b.w0 (60 + sidNat st)) 3,
   chk 6 (enter && decide (genAhead g b.o ≥ 2)) 0x10 (g * 16 + n)]

/-- Go on, or wait until generation `g` has been released. -/
def barrWait (s : State) (n g : Nat) : Res := if genAhead g (s.bar n).o ≥ 128 then .ok s [] else .wait s (.barrier n g) []

/-- BARR without ENTER waits for the stream's last entered generation; where it has entered none it goes on: log entry 115, DESIGN
CHOICE. -/
def runBarr (s : State) (st : Sid) (c : Slot) : Res :=
  let n := c.f 47 44
  let b := s.bar n
  if bit c.base 43 then
    let g := b.next st
    let s := s.modBar n fun b =>
      let b := { b with ents := b.ents ++ [BarEnt.mk st g s.fab.serial false] }
      match st with
      | .a => { b with ga := (g + 1) % 256, lastA := some g }
      | .x => { b with gx := (g + 1) % 256, lastX := some g }
    if bit c.base 42 then barrWait s n g else .ok s []
  else match b.last st with
    | some g => barrWait s n g
    | none => .ok s []

def barrSem : CmdSem := ⟨noRegs, noRegs, fun c => bit c.base 42, fun s st c _ => chkBarr s st c, fun s st c _ => runBarr s st c⟩

/-- BARR as a command of its own (08 R233). -/
def execBarr (st : Sid) (c : Slot) (s : State) : Host.Outcome State Fault Refusal := issueRow barrSem st (asOpc 0x2E c) s

/-! ### Events -/

/-- BARRIER_ENTRY_COUNT (06 R160): the first entry of the open round whose earlier requests all have responses counts. Log entry 52, DEDUCED. -/
def execBarrierEntryCount (bar : BitVec 4) (s : State) : Host.Outcome State Fault Refusal :=
  let n := bar.toNat
  let b := s.bar n
  .next <| match b.ents.find? fun e => !e.counted && e.gen = b.o && s.fenceMet e.fence with
  | some e => (s.modBar n fun b => { b with ents := b.ents.map fun x => if x = e then { x with counted := true } else x }).barFull n
  | none => s

/-- A discarded message (06 R162). -/
def State.barFault (s : State) : State := (s.incRf 0x168 31 16).raise evBarrierFault

/-- An ARRIVE reaches the core (06 R161, R162). -/
def State.onArrive (s : State) (m : BarMsg) : State :=
  let n := m.bar.toNat
  if !s.pins.fpUp then s
  else if m.place.toNat ≠ s.place then s.incRf 0x398 15 0
  else
    let b := s.bar n
    if bit b.w0 63 && bit b.w0 62 && decide (genAhead m.gen.toNat b.o < 2) then
      (s.modBar n fun b => { b with arrs := b.arrs ++ [m.gen.toNat] }).barFull n
    else s.barFault

/-- A RELEASE reaches the core (06 R161, R162). One that is neither the open round's nor stale is discarded as a barrier fault too:
log entry 112, DESIGN CHOICE. -/
def State.onRelease (s : State) (m : BarMsg) : State :=
  let n := m.bar.toNat
  if !s.pins.fpUp then s
  else if m.place.toNat ≠ s.place then s.incRf 0x398 15 0
  else
    let b := s.bar n
    if bit b.w0 63 && bit b.w0 62 && decide (genAhead m.gen.toNat b.o = 0) then (s.releaseRound n).barFull n else s.barFault

/-- ARRIVE (06 R161). -/
def execArrive (m : BarMsg) (s : State) : Host.Outcome State Fault Refusal := .next (s.arrive 8 (·.onArrive m))
/-- RELEASE (06 R161). Log entry 112, DESIGN CHOICE. -/
def execRelease (m : BarMsg) (s : State) : Host.Outcome State Fault Refusal := .next (s.arrive 8 (·.onRelease m))

/-! ### The host's window (17 R429) -/

/-- BAR.W0 and BAR.W1 as they read. -/
def State.barRead (s : State) (w1 : Bool) : W64 :=
  let i := s.rf 0x150 6 0
  if i < 16 then
    let b := s.bar i
    if w1 then b.w1 else putFld (putFld (putFld b.w0 39 32 b.o) 31 24 b.ga) 23 16 b.gx
  else if 64 ≤ i then (if w1 then 0 else tget 0 s.bars.child (i - 64)) else 0

/-- Does the open round of a configured context hold something? -/
def BarCtx.busy (b : BarCtx) : Bool := bit b.w0 63 && (!b.ents.isEmpty || !b.arrs.isEmpty)
/-- Does a context's range cover a child entry? -/
def BarCtx.covers (b : BarCtx) (i : Nat) : Bool := decide (fld b.w0 52 47 ≤ i) && decide (i < fld b.w0 52 47 + fld b.w0 46 40)

/-- A host write of BAR.W0 or BAR.W1. -/
def State.barWrite (s : State) (w1 : Bool) (v : W64) : State :=
  let i := s.rf 0x150 6 0
  let refuse := s.setRf 0x168 0 0 1
  if i < 16 then
    let b := s.bar i
    if b.busy then refuse
    else if w1 then s.modBar i fun b => { b with w1 := putFld (putFld v 62 36 0) 11 4 0 }
    else if fld v 59 53 = 0 || fld v 59 53 > 64 || fld v 52 47 + fld v 46 40 > 64 then refuse
    else
      let w := putFld v 39 0 0
      if bit v 63 && !bit b.w0 63 then s.modBar i fun b => { BarCtx.zero with w0 := w, w1 := b.w1 }
      else s.modBar i fun b => { b with w0 := w }
  else if 64 ≤ i then
    if (upto 16).any fun n => (s.bar n).busy && (s.bar n).covers (i - 64) then refuse
    else if w1 then s
    else { s with bars := { s.bars with child := tset 0 s.bars.child (i - 64) (putFld (putFld v 63 37 0) 11 4 0) } }
  else s

end Sys2Proof.Machine
end

