-- ==== Sys2Proof/Machine/Blocks.lean ====
section
/-!
DEFINITION. Draws of the generator (12 R323 to R325), and the blocks of a block-scaled tensor in the scratchpad (02 R36 to
R40, 08 R211): reading an element, storing a block.
-/

namespace Sys2Proof.Machine

/-! ### Draws -/

/-- One round of R324: a, b, c, d, k0, k1. -/
structure DrawSt where
  a : W32
  b : W32
  c : W32
  d : W32
  k0 : W32
  k1 : W32
deriving DecidableEq, Repr

def drawRound (x : DrawSt) : DrawSt :=
  let a := x.a + x.b + x.k0
  let b := x.b.rotateLeft 13 ^^^ a
  let c := x.c + x.d + x.k1
  let d := x.d.rotateLeft 17 ^^^ c
  ⟨a, d, c, b, x.k0 + 0x9E3779B9, x.k1 + 0x7F4A7C15⟩

/-- A draw from a key, a tag and a position (12 R324). -/
def draw (k : Key) (tag pos : Nat) : W32 :=
  let x := (upto 10).foldl (fun x _ => drawRound x)
    (DrawSt.mk (BitVec.ofNat 32 pos) (BitVec.ofNat 32 tag) k.stream k.step (k.seed.setWidth 32) ((k.seed >>> 32).setWidth 32))
  x.a ^^^ x.c

/-- The key register n. -/
def State.key (s : State) (n : Nat) : Key := tget Key.zero s.keys n

/-- The rounding of the element with linear index `pos` (12 Table 12-6). -/
def srRnd (sr : Bool) (k : Key) (pos : Nat) : Rnd := if sr then .sr (fld (draw k 1 pos) 31 16) else .rne

/-! ### Reading a block-scaled source -/

/-- The stored row of 32 elements that holds the block column `j` of source row `r`, and an uncorrectable word of it. An
SQ32 block takes its scale from the record of its row 0 (02 R40). Log entry 15, DEDUCED. -/
def State.readBlk (s : State) (b : Bsd) (r j : Nat) : BlkRow × Option Nat :=
  let ea := (b.elemAddr r j).toNat
  let sa := (b.sideAddr r j).toNat
  let s0 := (b.sideAddr (r / 32 * 32) j).toNat
  let scale := if b.sq then some (byteAt (s.peek (some .x) s0 b.ss) (b.ss - 1)).toNat else none
  let row := readRow b.fmt (s.peek (some .x) ea b.fb) (s.peek (some .x) sa b.ss) scale
  let bad := match s.badView (some .x) ea b.fb with
    | some a => some a
    | none => match s.badView (some .x) sa b.ss with
      | some a => some a
      | none => if b.sq then s.badView (some .x) s0 b.ss else none
  (row, bad)

/-- Element (r, c) of a source without a block scale. -/
def State.readPlain (s : State) (b : Bsd) (r c : Nat) : OpElem × Option Nat :=
  let z := fmtBytes b.fmt
  let a := (b.eb + (r : Nat) * b.estr).toNat + c * z
  match s.badView (some .x) a z with
  | some w => (⟨.nan false, sigWidth b.fmt⟩, some w)
  | none => (⟨decodeElem b.fmt (s.peekLe (some .x) a z), sigWidth b.fmt⟩, none)

def zeroElem (f : Nat) : OpElem := ⟨.fin false 0, sigWidth f⟩

/-- Elements (r, c0) to (r, c0 + n - 1) as they decode: zero beyond the tensor's edge (02 R38), NaN where the block's words
are uncorrectable (06 Table 6-2). -/
def State.readSpan (s : State) (b : Bsd) (r c0 n : Nat) : List OpElem × Option Nat :=
  let cols := (upto n).map (c0 + ·)
  if !isBlockFmt b.fmt then
    let l := cols.map fun c => if r < b.rows && c < b.cols then s.readPlain b r c else (zeroElem b.fmt, none)
    (l.map (·.1), l.findSome? (·.2))
  else
    let blks := ((upto (n / 32 + 2)).map (c0 / 32 + ·)).filter fun j => r < b.rows && 32 * j < b.cols && 32 * j < c0 + n
    let rows := blks.map fun j => (j, s.readBlk b r j)
    (cols.map fun c =>
      if r < b.rows && c < b.cols then
        match rows.find? fun p => p.1 = c / 32 with
        | some (_, row, none) => rowElem b.fmt row (c % 32)
        | some (_, _, some _) => ⟨.nan false, sigWidth b.fmt⟩
        | none => zeroElem b.fmt
      else zeroElem b.fmt,
     rows.findSome? fun p => p.2.2)

/-- Bytes of a stored row with its addresses: the element field and the side record (02 R37). -/
def blkBytes (b : Bsd) (r j : Nat) (row : BlkRow) : List (Nat × List Byte) :=
  [((b.elemAddr r j).toNat, packCodes (fmtBits b.fmt) row.codes)] ++
  (if b.ss = 0 then [] else [((b.sideAddr r j).toNat, sideRecord b.fmt row)])

end Sys2Proof.Machine
end

