-- ==== Sys2Proof/Machine/Matrix.lean ====
section
/-!
DEFINITION. The turntables and the matrix array (03 R59 to R80, 08 R222, R223, 14 R354): TTF, MXP, and the events by which
a tile becomes ready, a pass begins and a finished subtile becomes visible.
-/

namespace Sys2Proof.Machine

/-- Products per cell and ac of a format pair (03 Table 3-1); none where the pair is not in the table. -/
def pairP (f g : Nat) : Option Nat :=
  let tern := fun x => x = 0x0E || x = 0x0F
  let e4 := fun x => x = 0x09 || x = 0x0A
  let wide := fun x => x = 0x0B || x = 0x0C || x = 0x06 || x = 0x07
  let bf := fun x => x = 0x01 || x = 0x02
  let one := fun x y =>
    if tern x && tern y then some 8
    else if x = 0x0F && (e4 y || wide y || y = 0x0D || y = 0x05) then some 4
    else if x = 0x0E && (y = 0x0D || y = 0x05) then some 4
    else if (e4 x && e4 y) || (x = 0x0D && y = 0x0D) then some 4
    else if (e4 x || wide x) && wide y then some 2
    else if (x = 0x0D || x = 0x05) && y = 0x05 then some 2
    else if bf x && (bf y || e4 y || wide y) then some 1
    else none
  match one f g with
  | some p => some p
  | none => one g f

/-! ### TTF (03 R73, 08 R222) -/

def slotRange (n : Nat) : Chk := chk 1 (decide (64 ≤ n) && decide (n ≤ 126)) 3

/-- The descriptor of a TTF slot. -/
def ttfBsd (r : Regs) (c : Slot) : Bsd := readBsd r (c.x 1) (c.x 2) (c.x 3)

def State.setFeed (s : State) (north : Bool) (n : Nat) (f : Option Feed) : State :=
  if north then { s with arr := { s.arr with north := tset none s.arr.north n f } }
  else { s with arr := { s.arr with west := tset none s.arr.west n f } }

def chkTtf (s : State) (st : Sid) (c : Slot) : List Chk :=
  let r := (s.str st).regs
  let b := ttfBsd r c
  let trans := bit c.base 44
  let laneEnd := fld (c.x 0) 63 43 + ttfLcnt c
  let kEnd := fld (c.x 0) 34 14 + ttfKcnt c
  encChks c 4 [(15, 0)] ++
  [slotRange (c.f 43 37), chk 1 (decide (ttfKcnt c > 2 ^ 20)) 3, chk 1 (decide (ttfLcnt c = 0) || decide (ttfLcnt c > 128)) 3,
   chk 1 (decide (fld (c.x 0) 13 0 ≠ 0)) 3] ++ bsdChks s b true false ++
  [chk 3 (decide (b.ts = 1) && !scaleOk (r.N b.tsn)) 3,
   chk 4 (isBlockFmt b.fmt && decide (fld (c.x 0) 34 14 % 32 ≠ 0)) 4,
   chk 5 (if trans then decide (laneEnd > b.cols) || decide (kEnd > b.rows) else decide (laneEnd > b.rows) || decide (kEnd > b.cols)) 6]

/-- TTF binds its descriptor to the feed, or waits while the feed holds one that no begun pass has consumed. -/
def runTtf (s : State) (st : Sid) (c : Slot) : Res :=
  let north := bit c.base 45
  let r := (s.str st).regs
  let b := ttfBsd r c
  if (s.feedAt north (c.f 47 46)).isSome then .stall 5 (9 + b2n north)
  else
    let (s, trk) := s.bindCheck (c.f 43 37)
    .ok (s.setFeed north (c.f 47 46) (some
      { c := c, a := r.a, scale := if b.ts = 1 then r.N b.tsn else 0x3F800000, trk := trk, cs := (s.csu st).tagNow
        lw := s.here st, tiles := [], epar := [], told := false })) []

def ttfSem : CmdSem := ⟨fun c => formRegs c 0x1C 1, noRegs, notW, fun s st c _ => chkTtf s st c, fun s st c _ => runTtf s st c⟩
/-- TTF as a command of its own (08 R222). -/
def execTtf (st : Sid) (c : Slot) (s : State) : Host.Outcome State Fault Refusal := issueRow ttfSem st (asOpc 0x30 c) s

/-! ### MXP (03 R61, R62, R67, 08 R223) -/

def mxpPack (c : Slot) : Nat := c.f 47 46
def mxpRegion (c : Slot) : Nat := c.f 45 44
def mxpInit (c : Slot) : Nat := c.f 23 21
def mxpOut (c : Slot) : Nat := c.f 20 19
def mxpK (r : Regs) (c : Slot) : Nat := if bit (c.x 0) 42 then (r.N (fld (c.x 0) 41 39)).toNat else fld (c.x 0) 63 43
def mxpInitAddr (r : Regs) (c : Slot) : Int := (r.A (fld (c.x 0) 38 35) : Int) + sfld (c.x 0) 34 11
def mxpStr (c : Slot) : Int := sfld (c.x 1) 63 40

/-- Regions, and their rows, columns and origins (03 Table 3-5). -/
def packRegions : Nat → Nat | 0 => 1 | 3 => 4 | _ => 2
def regRows (pack : Nat) : Nat := if pack = 1 || pack = 3 then 64 else 128
def regCols (pack : Nat) : Nat := if pack = 2 || pack = 3 then 64 else 128
def regRow0 (pack region : Nat) : Nat := if (pack = 1 && region = 1) || (pack = 3 && region ≥ 2) then 64 else 0
def regCol0 (pack region : Nat) : Nat := if (pack = 2 && region = 1) || (pack = 3 && region % 2 = 1) then 64 else 0

/-- Extent of the initial values. -/
def mxpInitExt (r : Regs) (c : Slot) : Int × Int :=
  let a := mxpInitAddr r c
  let m := mxpM c
  let n := mxpN c
  match mxpInit c with
  | 1 => (a, a + 4 * (m : Int) - 1)
  | 2 => (a, a + 4 * (n : Int) - 1)
  | k =>
    let span := ((m : Int) - 1) * mxpStr c
    (a + min 0 span, a + max 0 span + (if k = 3 then 4 else 16) * (n : Int) - 1)

/-- The feed an MXP names, unless an earlier MXP that has not begun names it too. -/
def State.freeFeed (s : State) (north : Bool) (n : Nat) : Option Feed :=
  if s.arr.waiting.any fun p => (if north then p.c.f 25 24 else p.c.f 27 26) = n then none else s.feedAt north n

/-- Log entry 25, DEDUCED. An immediate K past its range is an encoding check, a K from a register an operand check (09 R443). A reload's ISTR is
held to 64 bytes as MISALIGNED. Log entry 124, DESIGN CHOICE. -/
def chkMxp (s : State) (st : Sid) (c : Slot) : List Chk :=
  let r := (s.str st).regs
  let k := mxpK r c
  let init := mxpInit c
  let w := s.freeFeed false (c.f 27 26)
  let n := s.freeFeed true (c.f 25 24)
  let pack := mxpPack c
  let row0 := regRow0 pack (mxpRegion c)
  let col0 := regCol0 pack (mxpRegion c)
  let ext := mxpInitExt r c
  encChks c 2 [(9, 0)] ++
  [slotRange (c.f 16 10), chk 1 (decide (init > 4)) 3, chk 1 (decide (fld (c.x 0) 10 0 ≠ 0) || decide (fld (c.x 1) 39 32 ≠ 0)) 3,
   chk 2 (match w, n with | some w, some n => (pairP (feedFmt w) (feedFmt n)).isNone | _, _ => false) 5,
   chk 3 (decide (mxpRegion c ≥ packRegions pack)) 3,
   chk 3 (decide (mxpM c = 0) || decide (mxpM c > regRows pack) || decide (mxpN c = 0) || decide (mxpN c > regCols pack)) 3,
   chk (if bit (c.x 0) 42 then 3 else 1) (decide (k > 2 ^ 20)) 3,
   chk 3 (decide (init ≠ 0) && outside ext.1 ext.2) 3,
   chk 4 (decide (init ≠ 0) && decide (mxpInitAddr r c % 64 ≠ 0)) 4,
   chk 4 (decide (init ≥ 3) && decide (mxpStr c % 64 ≠ 0)) 4,
   chk 5 (match w with | some w => decide (ttfKcnt w.c ≠ k) || decide (ttfLcnt w.c < mxpM c) | none => false) 6,
   chk 5 (match n with | some n => decide (ttfKcnt n.c ≠ k) || decide (ttfLcnt n.c < mxpN c) | none => false) 6,
   chk 6 (w.isNone || n.isNone) 3,
   chk 6 ((s.physOf 1 (row0 + mxpM c - 1)).isNone || (s.physOf 0 (col0 + mxpN c - 1)).isNone) 3]

/-- Log entry 17, DEDUCED. -/
def runMxp (s : State) (st : Sid) (c : Slot) : Res :=
  let r := (s.str st).regs
  if s.arr.waiting.length ≥ 4 then .stall 5 8
  else
    let (s, trk) := s.bindCheck (c.f 16 10)
    let num := s.arr.passCnt + 1
    let p : Pass := { c := c, k := mxpK r c, initAddr := (mxpInitAddr r c).toNat, trk := trk, cs := (s.csu st).tagNow
                      key := s.key 0, lw := s.here st, num := num, west := none, north := none, init := [], done := 0
                      sampled := false, qc := 0, qr := 0, calSect := none }
    .ok { s with arr := { s.arr with waiting := s.arr.waiting ++ [p], passCnt := num } } []

def mxpSem : CmdSem := ⟨fun c => (if mxpInit c ≠ 0 then [(1, fld (c.x 0) 38 35)] else []) ++
    (if bit (c.x 0) 42 then [(0, fld (c.x 0) 41 39)] else []) ++ (if bit c.base 18 then [(3, 0)] else []), noRegs, notW,
  fun s st c _ => chkMxp s st c, fun s st c _ => runMxp s st c⟩
/-- MXP as a command of its own (08 R223). -/
def execMxp (st : Sid) (c : Slot) (s : State) : Host.Outcome State Fault Refusal := issueRow mxpSem st (asOpc 0x31 c) s

/-! ### Tiles (03 R73 to R75) -/

/-- Element (lane, k) of an edge. -/
def Feed.elem (f : Feed) (lane k : Nat) : OpElem :=
  match f.tiles.find? fun t => t.lane = lane / 32 && t.k = k / 32 with
  | some t => (t.elems.getD (lane % 32) []).getD (k % 32) (zeroElem (feedFmt f))
  | none => zeroElem (feedFmt f)

/-- Values of a stored row read back as operands, where the row is formed anew (02 R45). -/
def rowElems (f : Nat) (b : BlkRow) : List OpElem := (upto 32).map (rowElem f b)

/-- A column of an SQ32 E2M1X block under transposition: the lowest source row keeps its escape, the others are quantized
into E2M1 at the block's scale (02 R40). The list holds the stored rows of the block from row 0 up. -/
def sqColumn (rows : List BlkRow) (col : Nat) : List OpElem × Cnts × Nat :=
  let esc := fun (b : BlkRow) => match b.esc with | some (_, i) => decide (i = col) | none => false
  let first := rows.findIdx? esc
  let cells := rows.zipIdx.map fun (b, r) =>
    match b.esc with
    | some (code, i) =>
      if i = col && first ≠ some r then
        let (e, k) := narrowElem 0x09 .rne (decodeElem 6 code)
        (rowElem 0x09 { b with codes := List.replicate 32 e, esc := none } 0, k, 1)
      else (rowElem 0x0A b col, ({} : Cnts), 0)
    | none => (rowElem 0x0A b col, ({} : Cnts), 0)
  (cells.map (·.1), cells.foldl (fun a c => a.add c.2.1) {}, (cells.map (·.2.2)).sum)

/-- One tile: its elements, what re-quantizing counted, how many elements it re-quantized, an uncorrectable word. -/
structure TileRead where
  elems : List (List OpElem)
  cnts : Cnts
  count : Nat
  bad : Option Nat
deriving DecidableEq, Repr

/-- Read a tile. A value of an uncorrectable block reaches the array as NaN (06 Table 6-2); any other NaN is re-quantized
by R43. Log entry 22, DEDUCED. -/
def State.readTile (s : State) (f : Feed) (nLanes lb kb : Nat) : TileRead :=
  let b := ttfBsd ⟨f.a, []⟩ f.c
  let lane0 := fld (f.c.x 0) 63 43 + 32 * lb
  let k0 := fld (f.c.x 0) 34 14 + 32 * kb
  let nl := min 32 (nLanes - 32 * lb)
  let kIn := min 32 (ttfKcnt f.c - 32 * kb)
  let cut := fun (l : List OpElem) => l.take kIn
  if !bit f.c.base 44 then
    let rows := (upto nl).map fun i => s.readSpan b (lane0 + i) k0 32
    ⟨rows.map fun r => cut r.1, {}, 0, rows.findSome? (·.2)⟩
  else
    let rows := (upto 32).map fun i => s.readSpan b (k0 + i) lane0 nl
    let bad := rows.findSome? (·.2)
    let colOf := fun i => rows.map fun r => r.1.getD i (zeroElem b.fmt)
    let lost := fun i r => decide (k0 + r < b.rows) && decide (lane0 + i < b.cols) && isBlockFmt b.fmt &&
      (s.readBlk b (k0 + r) ((lane0 + i) / 32)).2.isSome
    if b.sq && b.fmt = 0x0A then
      let cols := (upto nl).map fun i =>
        let blk := (upto 32).map fun r => (s.readBlk b (k0 + r) ((lane0 + i) / 32)).1
        let z := sqColumn (blk.take (b.rows - k0)) ((lane0 + i) % 32)
        ((colOf i).zipIdx.map fun (e, r) => if lost i r then e else z.1.getD r e, z.2.1, z.2.2)
      ⟨cols.map fun c => cut c.1, cols.foldl (fun a c => a.add c.2.1) {}, (cols.map (·.2.2)).sum, bad⟩
    else if b.sq || !isBlockFmt b.fmt then ⟨(upto nl).map fun i => cut (colOf i), {}, 0, bad⟩
    else
      let edge := min 32 (b.rows - k0)
      let cols := (upto nl).map fun i =>
        let vals := (colOf i).zipIdx.map fun (e, r) => if r < edge then some e.v else none
        let q := quantBlock b.fmt false (fun _ _ => .rne) [vals]
        let row := q.1.headD ⟨[], 0, none⟩
        ((rowElems b.fmt row).zipIdx.map fun (n, r) => if lost i r then { n with v := .nan false } else n,
         { q.2 with nonfin := 0 })
      ⟨cols.map fun c => cut c.1, cols.foldl (fun a c => a.add c.2) {}, nl * edge, bad⟩

/-- The byte ranges that a tile is read from. -/
def Feed.tileRanges (f : Feed) (nLanes lb kb : Nat) : List (Nat × Nat) :=
  let b := ttfBsd ⟨f.a, []⟩ f.c
  let lane0 := fld (f.c.x 0) 63 43 + 32 * lb
  let k0 := fld (f.c.x 0) 34 14 + 32 * kb
  let nl := min 32 (nLanes - 32 * lb)
  let turned := bit f.c.base 44
  let r0 := if turned then k0 else lane0
  let c0 := if turned then lane0 else k0
  let nc := if turned then nl else 32
  ((upto (if turned then 32 else nl)).map (r0 + ·)).flatMap fun r =>
    if b.rows ≤ r then []
    else if !isBlockFmt b.fmt then [((b.eb + (r : Nat) * b.estr).toNat + c0 * fmtBytes b.fmt, (min (c0 + nc) b.cols - c0) * fmtBytes b.fmt)]
    else (((upto (nc / 32 + 2)).map (c0 / 32 + ·)).filter fun j => 32 * j < b.cols && 32 * j < c0 + nc).flatMap fun j =>
      [((b.elemAddr r j).toNat, b.fb), ((b.sideAddr r j).toNat, b.ss)] ++ (if b.sq then [((b.sideAddr (r / 32 * 32) j).toNat, b.ss)] else [])

/-- A parity error of an edge register (14 R354): its record, its wear, its event. Log entry 21, DEDUCED. -/
def State.edgeParity (s : State) (north : Bool) (tag : W16) (lane : Nat) : State :=
  let cls := if north then 0 else 1
  let phys := (s.physOf cls lane).getD lane
  ((s.fault 0x04 3 (some (.x, tag)) ((if north then 256 else 0) + phys)).wearLive cls phys (lane % 4)).raise evArrayFault

/-- Make a feed's next tile ready: the feed with the tile, and what follows. Log entry 20, DEDUCED. -/
def State.makeTile (s : State) (north : Bool) (f : Feed) (lim : Option Nat) (bufErr : Bool) (laneErr : List (BitVec 7)) :
    State × Feed :=
  match f.nextTile lim with
  | none => (s, f)
  | some (lb, kb) =>
    let t := s.readTile f (f.lanes lim) lb kb
    let s := s.touchWords (some .x) (wordsOf (f.tileRanges (f.lanes lim) lb kb))
    let nan := fun (l : List OpElem) => l.map fun e => { e with v := .nan false }
    let f : Feed := { f with tiles := f.tiles ++ [⟨lb, kb, if bufErr then t.elems.map nan else t.elems⟩],
                             epar := f.epar ++ laneErr.map (·.toNat) }
    let s := if f.requant then s.merge f.trk f.cs 0 t.cnts t.count else s
    let s := if bufErr then
        let (s, loc) := s.freeWord
        (s.fault 0x05 3 (some (.x, f.c.tag)) loc.toNat).raise evArrayFault
      else s
    let s := laneErr.foldl (fun s l => s.edgeParity north f.c.tag l.toNat) s
    let done := (f.nextTile lim).isNone && !f.told
    let s := if done && f.c.ct then s.ctTicket (9 + b2n north) else s
    let f : Feed := { f with told := f.told || done }
    (match t.bad with | some a => s.spmHalt .x f.cs f.c.tag f.c.kind f.lw a | none => s, f)

def Pass.feed (p : Pass) (north : Bool) : Option Feed := if north then p.north else p.west
def Pass.setFeed (p : Pass) (north : Bool) (f : Feed) : Pass := if north then { p with north := some f } else { p with west := some f }
/-- Has a pass all tiles of a feed? -/
def Pass.fed (p : Pass) (north : Bool) : Bool :=
  p.k = 0 || match p.feed north with | some f => (f.nextTile (some (p.lim north))).isNone | none => false

/-- Tiles that the feeds of one turntable hold and no pass has begun to take: at most 32 slots (03, "Turntables"). Log entry 19, DEDUCED. -/
def State.heldTiles (s : State) (north : Bool) : Nat :=
  ((s.feeds north).map fun p => match p.2 with | some f => f.tiles.length | none => 0).sum

/-- TILE_READY (03 R75): the feed's next tile, for the oldest begun pass that still lacks one, else for the waiting
descriptor, inside the edge of the waiting MXP that names it (R70), where the grant holds no engine (16 R412). Log entry 20,
DEDUCED. -/
def execTileReady (north : Bool) (feed : BitVec 2) (bufErr : Bool) (laneErr : List (BitVec 7)) (s : State) :
    Host.Outcome State Fault Refusal :=
  let n := feed.toNat
  .next <| if !s.granted then s else
  match s.arr.running.findIdx? fun p => (if north then p.c.f 25 24 else p.c.f 27 26) = n && !p.fed north with
  | some i =>
    match (s.arr.running[i]?).bind fun p => (p.feed north).map fun f => (p, f) with
    | some (p, f) =>
      let (s, f) := s.makeTile north f (some (p.lim north)) bufErr laneErr
      { s with arr := { s.arr with running := s.arr.running.set i (p.setFeed north f) } }
    | none => s
  | none =>
    match s.feedAt north n with
    | some f =>
      if s.heldTiles north ≥ 32 then s
      else
        let (s, f) := s.makeTile north f (s.feedLim north n) bufErr laneErr
        s.setFeed north n (some f)
    | none => s

/-! ### The beginning of a pass (03 R61 to R69, R76) -/

/-- Do the outriders of columns, of rows, sample a region (03 Table 3-7)? -/
def colSampled (pack region : Nat) : Bool := match pack with | 0 => true | 1 => true | 2 => region = 1 | _ => region % 2 = 1
def rowSampled (pack region : Nat) : Bool := match pack with | 0 => true | 1 => region = 1 | 2 => true | _ => decide (region ≥ 2)

/-- The initial value of a cell as its ledger holds it, counted as a contribution (03 R62, R63; 02 R47), and an
uncorrectable word of it. A value of zero, reloaded or not, does not count: log entry 123, DESIGN CHOICE. -/
def State.initCell (s : State) (p : Pass) (m n : Nat) : Ledger × Option Nat :=
  let at' := fun (a : Nat) (f32 : Bool) =>
    let z := if f32 then 4 else 16
    match s.badView (some .x) a z with
    | some w => ((Ledger.empty.addNum (.nan false) 24).1, some w)
    | none =>
      let v := s.peekLe (some .x) a z
      (if f32 then (Ledger.empty.addNum (fp32 (BitVec.ofNat 32 v)) 24).1
       else
         let g := (Ledger.empty.merge (wordLedger (BitVec.ofNat 128 v))).1
         { g with cnt := b2n (decide (g.spec ≠ 0) || decide (g.w ≠ 0)) }, none)
  let row := ((p.initAddr : Int) + (m : Nat) * mxpStr p.c).toNat
  match mxpInit p.c with
  | 1 => at' (p.initAddr + 4 * m) true
  | 2 => at' (p.initAddr + 4 * n) true
  | 3 => at' (row + 4 * n) true
  | 4 => at' (row + 16 * n) false
  | _ => (Ledger.empty, none)

/-- The byte ranges that a pass's initial values are read from. -/
def Pass.initRanges (p : Pass) : List (Nat × Nat) :=
  let row := fun (m : Nat) => ((p.initAddr : Int) + (m : Nat) * mxpStr p.c).toNat
  match mxpInit p.c with
  | 1 => [(p.initAddr, 4 * mxpM p.c)]
  | 2 => [(p.initAddr, 4 * mxpN p.c)]
  | 3 => (upto (mxpM p.c)).map fun m => (row m, 4 * mxpN p.c)
  | 4 => (upto (mxpM p.c)).map fun m => (row m, 16 * mxpN p.c)
  | _ => []

/-- May the pass at place `i` of the waiting list begin? Earlier passes of its region have begun, no pass of another PACK is
before it (R69), its feeds hold their first tiles, the grant covers it (16 R412), and no calibration drain holds it (14 R363). -/
def State.mayBegin (s : State) (i : Nat) (p : Pass) : Bool :=
  let pack := mxpPack p.c
  let ready := fun north => match s.feedAt north (if north then p.c.f 25 24 else p.c.f 27 26) with
    | some f => p.k = 0 || !f.tiles.isEmpty
    | none => false
  (s.arr.waiting.take i).all (fun q => mxpPack q.c = pack && mxpRegion q.c ≠ mxpRegion p.c) &&
  s.arr.running.all (fun q => mxpPack q.c = pack) && ready false && ready true && s.granted &&
  (!s.cal.isOpen || s.cal.swapped || decide (p.num ≤ s.cal.passMark))

/-- The feed moves into the pass; where nothing is left for it to deliver, its ticket is pushed. -/
def State.takeFeed (s : State) (p : Pass) (north : Bool) : State × Option Feed :=
  let n := if north then p.c.f 25 24 else p.c.f 27 26
  match s.feedAt north n with
  | some f =>
    let s := s.setFeed north n none
    let done := (p.k = 0 || (f.nextTile (some (p.lim north))).isNone) && !f.told
    (if done && f.c.ct then s.ctTicket (9 + b2n north) else s, some { f with told := f.told || done })
  | none => (s, none)

/-- The subtiles of a pass in the order in which they become visible (03 R79). -/
def Pass.order (p : Pass) : List (Nat × Nat) :=
  let all := (upto (ceilDiv (mxpM p.c) 32)).flatMap fun r => (upto (ceilDiv (mxpN p.c) 32)).map fun c => (r, c)
  let key := fun (x : Nat × Nat) => x.1 + (if mxpOut p.c = 3 then 2 else 1) * x.2
  (upto 16).flatMap fun k => all.filter fun x => key x = k

/-- The array cell of position (m, n) of a pass's region, by its number. -/
def Pass.at' (p : Pass) (m n : Nat) : Nat :=
  (regRow0 (mxpPack p.c) (mxpRegion p.c) + m) * 128 + regCol0 (mxpPack p.c) (mxpRegion p.c) + n

/-- Does a pass still need cell number `i`: inside its edge, its subtile not yet drained? -/
def Pass.needs (p : Pass) (i : Nat) : Bool :=
  let row0 := regRow0 (mxpPack p.c) (mxpRegion p.c)
  let col0 := regCol0 (mxpPack p.c) (mxpRegion p.c)
  let m := i / 128 - row0
  let n := i % 128 - col0
  decide (row0 ≤ i / 128) && decide (m < mxpM p.c) && decide (col0 ≤ i % 128) && decide (n < mxpN p.c) &&
  ((p.order.drop p.done).contains (m / 32, n / 32))

/-- Put ledgers into cells. -/
def gridPut (t : Tbl Ledger) (l : List (Nat × Ledger)) : Tbl Ledger := l.foldl (fun t x => tset Ledger.empty t x.1 x.2) t

/-- Load a beginning pass's initial values: into the live ledger of a cell that no earlier pass needs, into the shadow ledger
of one that a single earlier pass needs, else they wait in the row lanes (03 R59, R66). -/
def State.loadInit (s : State) (p : Pass) (l : List (Nat × Ledger)) : State × Pass :=
  let ahead := fun (i : Nat) => (s.arr.running.filter fun q => q.needs i).length
  ({ s with arr := { s.arr with live := gridPut s.arr.live (l.filter fun x => ahead x.1 = 0)
                                shadow := gridPut s.arr.shadow (l.filter fun x => ahead x.1 = 1) } },
   { p with init := gridPut [] (l.filter fun x => decide (ahead x.1 ≥ 2)) })

/-- The terminator passes cells (03 R64): the finished ledger moves to the drain register, the shadow ledger becomes live, and
the shadow takes the initial value of the pass after that, where one waits. `rest`: the later passes of the array. -/
def Arr.turn (r : Arr) (rest : List Pass) (fin : List (Nat × Ledger)) : Arr :=
  let third := fun (i : Nat) => (rest.filter fun q => q.needs i)[1]?
  let next := fun (i : Nat) => match third i with | some q => tget Ledger.empty q.init i | none => Ledger.empty
  { r with drain := gridPut r.drain fin
           live := gridPut r.live (fin.map fun x => (x.1, tget Ledger.empty r.shadow x.1))
           shadow := gridPut r.shadow (fin.map fun x => (x.1, next x.1))
           running := r.running.map fun q =>
             { q with init := gridPut q.init ((fin.filter fun x => (third x.1).any fun z => z.num = q.num).map fun x => (x.1, Ledger.empty)) } }

/-- PASS_BEGIN (03 R67): the oldest waiting pass of a region begins. Log entry 24, DEDUCED. What it samples is settled here:
log entry 148, DESIGN CHOICE. -/
def execPassBegin (region : BitVec 2) (s : State) : Host.Outcome State Fault Refusal :=
  .next <| match s.arr.waiting.findIdx? fun p => mxpRegion p.c = region.toNat with
  | none => s
  | some i =>
    match s.arr.waiting[i]? with
    | none => s
    | some p =>
      if !s.mayBegin i p then s else
      let cells := (upto (mxpM p.c)).flatMap fun m => (upto (mxpN p.c)).map fun n => (m, n)
      let loads := cells.map fun x => (p.at' x.1 x.2, s.initCell p x.1 x.2)
      let s := s.touchWords (some .x) (wordsOf p.initRanges)
      let (s, w) := s.takeFeed p false
      let (s, n) := s.takeFeed p true
      let cs := !s.cal.isOpen && colSampled (mxpPack p.c) (mxpRegion p.c)
      let rs := !s.cal.isOpen && rowSampled (mxpPack p.c) (mxpRegion p.c)
      let (s, p) := s.loadInit p (loads.map fun x => (x.1, x.2.1))
      let p := { p with west := w, north := n
                        sampled := !s.cal.isOpen, qc := s.arr.qc, qr := s.arr.qr
                        calSect := if s.cal.isOpen && decide (s.cal.sector < 4) then some s.cal.sector else none }
      let s := { s with arr := { s.arr with
        waiting := s.arr.waiting.eraseIdx i, running := s.arr.running ++ [p]
        qc := s.arr.qc + b2n cs, qr := s.arr.qr + b2n rs } }
      match loads.findSome? fun x => x.2.2 with
      | some a => s.spmHalt .x p.cs p.c.tag p.c.kind p.lw a
      | none => s

/-! ### Finished subtiles (03 R64, R65, R76 to R79) -/

/-- The finished ledger of a cell of the region, from the initial value in its live ledger (02 R47, R48, R52), with the non-finite contributions counted. -/
def Pass.cell (p : Pass) (live : Tbl Ledger) (m n : Nat) : Ledger × Nat :=
  let g := tget Ledger.empty live (p.at' m n)
  match p.west, p.north with
  | some w, some o =>
    (upto p.k).foldl (fun (acc : Ledger × Nat) k =>
      let a := w.elem m k
      let b := o.elem n k
      let z := acc.1.addNum (a.v.mul b.v) (a.s + b.s)
      (z.1, acc.2 + z.2)) (g, b2n (decide (g.spec ≠ 0)))
  | _, _ => (g, b2n (decide (g.spec ≠ 0)))

/-- Product of the two tensor scales. -/
def Pass.scale (p : Pass) : Rat :=
  let sc := fun (f : Option Feed) => match f with | some f => (fp32 f.scale).val | none => 1
  sc p.west * sc p.north

def outFmt (o : Nat) : Nat := if o = 3 then 8 else o

/-- A drained value (02 R53 to R55): its bits, its counts, its finite magnitude as FP32 bits, its INX, whether it marks NF. -/
structure Drained where
  bits : Nat
  cnts : Cnts
  amax : W32
  inx : Bool
  nf : Bool
  resErr : Bool
  led : Ledger
deriving DecidableEq, Repr

/-- Log entry 18, DEDUCED. -/
def Pass.drain (p : Pass) (live : Tbl Ledger) (m n : Nat) : Drained :=
  let (g, nf) := p.cell live m n
  let spread := b2n g.inx
  if mxpOut p.c = 3 then
    ⟨g.word.toNat, { nonfin := nf, spread := spread }, 0, g.inx, decide (g.spec ≠ 0), g.resErr, g⟩
  else
    let f := mxpOut p.c
    let pos := fld (p.c.x 1) 31 0 + m * mxpN p.c + n
    let (code, k) := drainTo f (srRnd (bit p.c.base 18) p.key pos) (bit p.c.base 17) (g.value p.scale)
    let v := decodeElem f code
    ⟨code, k.add { nonfin := nf, spread := spread }, if v.isFin then bits32 v.abs else 0, g.inx,
     decide (k.nonfin > 0) || decide (k.clip > 0), g.resErr, g⟩

/-- Slots of the FTQ in use (03 R78). -/
def State.ftqUsed (s : State) : Nat := (s.arr.ftq.map fun e => if e.fmt = 3 then 4 else 1).sum

/-- Does outrider `k` of the columns, of the rows, compare a cell of this pass (03 R76, Table 3-7, 14 R364)? -/
def Pass.compares (s : State) (p : Pass) (isCol : Bool) (k row col : Nat) : Bool :=
  let pack := mxpPack p.c
  let reg := mxpRegion p.c
  let half := if isCol then pack = 2 || pack = 3 else pack = 1 || pack = 3
  let e := if half then 64 else 128
  let at' := if isCol then col else row
  let base := if half then 64 else 0
  let cls := if isCol then 0 else 1
  let stands := ((s.physOf cls 127).all fun u => decide (u ≥ 128 + k)) || (s.appliedMarks cls).contains (128 + k)
  (if isCol then colSampled pack reg else rowSampled pack reg) && !stands && decide (base ≤ at') &&
  match p.calSect with
  | some n => decide (row / 64 * 2 + col / 64 = n)
  | none => p.sampled && decide ((4 * (if isCol then p.qc else p.qr) + k) % e = at' - base)

/-- The subtile that holds a cell given by its logical row and column, inside the edge (03 R77). -/
def Pass.holds (p : Pass) (sr sc row col : Nat) : Bool :=
  let m := row - regRow0 (mxpPack p.c) (mxpRegion p.c)
  let n := col - regCol0 (mxpPack p.c) (mxpRegion p.c)
  decide (regRow0 (mxpPack p.c) (mxpRegion p.c) ≤ row) && decide (regCol0 (mxpPack p.c) (mxpRegion p.c) ≤ col) &&
  decide (m < mxpM p.c) && decide (n < mxpN p.c) && m / 32 = sr && n / 32 = sc

/-- A ledger residue error in a cell (14 R354). Log entry 16, DEDUCED. -/
def State.residueErr (s : State) (tag : W16) (row col : Nat) : State :=
  let pr := (s.physOf 1 row).getD row
  let pc := (s.physOf 0 col).getD col
  ((s.fault 0x04 4 (some (.x, tag)) (pr * 256 + pc)).wearLive 0 pc (col % 4)).raise evArrayFault

/-- An outrider mismatch (03 R77, 14 R357, R365): record, event, trip, and the wear counts unless a trial found it. Log entry 26, DESIGN CHOICE. -/
def State.mismatch (s : State) (tag : W16) (isCol : Bool) (k at' : Nat) (trial : Bool) : State :=
  let cls := if isCol then 0 else 1
  let u := (s.physOf cls at').getD at'
  let (s, loc) := s.freeWord
  let s := (s.fault 0x04 5 (some (.x, tag)) loc.toNat).raise evOutrider
  let s := if trial then s else (s.wearOutrider cls k u).wearLive cls u k
  s.abort .x 4 (128 + k)

/-- One integrity failure of the entry: the state, and whether it counts as a residue error or a mismatch. -/
def State.cellFault (s : State) (p : Pass) (sr sc : Nat) (f : CellFault) : State × Bool × Bool :=
  match f with
  | .residue row col =>
    if p.holds sr sc row.toNat col.toNat then (s.residueErr p.c.tag row.toNat col.toNat, true, false) else (s, false, false)
  | .outCol k row col =>
    if p.holds sr sc row.toNat col.toNat && p.compares s true k.toNat row.toNat col.toNat then
      (s.mismatch p.c.tag true k.toNat col.toNat p.calSect.isSome, false, true) else (s, false, false)
  | .outRow k row col =>
    if p.holds sr sc row.toNat col.toNat && p.compares s false k.toNat row.toNat col.toNat then
      (s.mismatch p.c.tag false k.toNat row.toNat p.calSect.isSome, false, true) else (s, false, false)

/-- The entry of a subtile, its observations, and the cells' last ledgers and values. -/
def Pass.entry (p : Pass) (grid : Tbl Ledger) (sr sc : Nat) (last : Bool) : FtqEntry × Cnts × W32 × Nat × List ((Nat × Nat) × Drained) :=
  let cells := (upto 32).flatMap fun i => (upto 32).map fun j => (32 * sr + i, 32 * sc + j)
  let inE := fun (x : Nat × Nat) => x.1 < mxpM p.c && x.2 < mxpN p.c
  let ds := cells.map fun x => (x, if inE x then some (p.drain grid x.1 x.2) else none)
  let live := ds.filterMap fun x => x.2.map fun d => (x.1, d)
  let out := if mxpOut p.c = 3 then Ledger.empty.word.toNat else 0
  let bits := fun (n : Nat) (f : Nat → Bool) => ((upto n).map fun i => b2n (f i) * 2 ^ i).sum
  let row0 := regRow0 (mxpPack p.c) (mxpRegion p.c) + 32 * sr
  let col0 := regCol0 (mxpPack p.c) (mxpRegion p.c) + 32 * sc
  let epar := (match p.west with | some f => f.epar.any fun l => decide (row0 ≤ l) && decide (l < row0 + 32) | none => false) ||
    (match p.north with | some f => f.epar.any fun l => decide (col0 ≤ l) && decide (l < col0 + 32) | none => false)
  ({ region := mxpRegion p.c, pass := p.num % 256, sr := sr, sc := sc, fmt := mxpOut p.c
     rowv := bits 32 fun i => decide (32 * sr + i < mxpM p.c), colv := bits 32 fun j => decide (32 * sc + j < mxpN p.c)
     inxr := bits 32 fun i => live.any fun x => x.1.1 = 32 * sr + i && x.2.inx
     nf := live.any fun x => x.2.nf, reserr := false, omm := false, epar := epar, last := last
     vals := ds.map fun x => match x.2 with | some d => d.bits | none => out },
   live.foldl (fun a x => a.add x.2.cnts) {}, live.foldl (fun a x => maxBits a x.2.amax) 0, live.length, live)

/-- FTQ_ENTRY_VISIBLE (03 R65): the next subtile of the oldest running pass of a region whose operands are all delivered. -/
def execFtqEntryVisible (region : BitVec 2) (faults : List CellFault) (s : State) : Host.Outcome State Fault Refusal :=
  .next <| match s.arr.running.findIdx? fun p => mxpRegion p.c = region.toNat with
  | none => s
  | some i =>
    match s.arr.running[i]? with
    | none => s
    | some p =>
      match p.order[p.done]? with
      | none => s
      | some (sr, sc) =>
        if !p.fed false || !p.fed true || decide (s.ftqUsed + (if mxpOut p.c = 3 then 4 else 1) > 32) then s else
        let last := decide (p.done + 1 = p.order.length)
        let (e, k, amax, count, live) := p.entry s.arr.live sr sc last
        let own := live.filter fun x => x.2.resErr
        let row0 := regRow0 (mxpPack p.c) (mxpRegion p.c)
        let col0 := regCol0 (mxpPack p.c) (mxpRegion p.c)
        let s := own.foldl (fun s x => s.residueErr p.c.tag (row0 + x.1.1) (col0 + x.1.2)) s
        let (s, re, om) := faults.foldl (fun (a : State × Bool × Bool) f =>
          let z := a.1.cellFault p sr sc f
          (z.1, a.2.1 || z.2.1, a.2.2 || z.2.2)) (s, !own.isEmpty, false)
        let e := { e with reserr := re, omm := om }
        let arr := s.arr.turn (s.arr.running.drop (i + 1)) (live.map fun x => (p.at' x.1.1 x.1.2, x.2.led))
        let s := { s with arr := { arr with
          ftq := s.arr.ftq ++ [e]
          running := if last then arr.running.eraseIdx i else arr.running.set i { p with done := p.done + 1 } } }
        let s := s.merge p.trk p.cs amax k count
        if last then
          let pp := match p.west, p.north with | some w, some n => (pairP (feedFmt w) (feedFmt n)).getD 1 | _, _ => 1
          let s := s.perf 5 (pp * mxpM p.c * mxpN p.c * ceilDiv p.k pp)
          if p.c.ct then s.ctTicket 8 else s
        else s

end Sys2Proof.Machine
end

