-- ==== Sys2Proof/Machine/Tracker.lean ====
section
/-!
DEFINITION. The scale trackers' commands (04 R81 to R99, 08 R228, R229).
-/

namespace Sys2Proof.Machine

/-! ### A slot's history -/

/-- derive() of R89, from the almanac and the configuration word. -/
def Trk.derive (t : Trk) : W32 :=
  let pol := fld t.scfg 63 62
  if pol = 0 || t.alm.isEmpty then t.cur
  else
    let w := t.alm.take (min (fld t.scfg 61 58 + 1) t.alm.length)
    let sorted := (w.map (·.toNat)).insertionSort (· ≥ ·)
    let ref := if pol = 1 then sorted.headD 0 else match sorted with | _ :: b :: _ => b | [a] => a | [] => 0
    match fp32 (BitVec.ofNat 32 ref) with
    | .fin _ m =>
      if m = 0 then t.cur
      else
        let k := max (-126) (min 127 (floorLog2 m + 1 - (fld t.scfg 56 50 : Nat)))
        BitVec.ofNat 32 ((k + 127).toNat * 2 ^ 23)
    | _ => t.cur

/-- WIDE at the close of an epoch (04 R97). -/
def Trk.evalWide (t : Trk) : Trk :=
  let fsh := fld t.scfg 29 26
  let dirty := decide (t.ep.getD 0 0 > 0) || (decide (fsh ≠ 0) && decide (t.ep.getD 1 0 * 2 ^ fsh > t.ep.getD 2 0))
  if dirty then { t with wide := true, clean := 0 }
  else
    let clean := min (t.clean + 1) 15
    { t with clean := clean, wide := t.wide && !decide (clean ≥ fld t.scfg 33 30) }

/-- Close the epoch (04 R88, R99). Log entry 28, DEDUCED. -/
def Trk.advance (t : Trk) (commit : Bool) : Trk :=
  let t := if t.has then
      let t := if t.perr then t else { t with alm := (t.amax :: t.alm).take 16 }
      t.evalWide
    else t
  let t := if t.perr then t else
    let n := t.derive
    { t with next := n, cur := if commit then n else t.cur }
  { t with amax := 0, has := false, ep := [0, 0, 0] }

/-- Bits of TRK.SCFG that hold fields (04 Table 4-2). -/
def scfgMask : W64 := 0xFDFFFFFFFF800000

/-- STKBIND's effect on its slot (04 Table 4-1). -/
def Trk.bind (t : Trk) (w : W64) : Trk :=
  let w := w &&& scfgMask
  { t with scfg := w, bound := true, amax := 0, has := false, ep := [0, 0, 0], alm := if bit w 24 then t.alm else []
           cnt := if bit w 23 then t.cnt else [0, 0, 0, 0, 0]
           sat := if bit w 23 then t.sat else [false, false, false, false, false]
           perr := false, bad := false, tripped := false, wide := false }

/-- The status word (08 Table 8-18). -/
def Trk.status (t : Trk) : Nat :=
  t.clean % 16 * 2 ^ 16 + b2n t.has * 2 ^ 15 + t.alm.length % 32 * 2 ^ 10 + (t.sat.zipIdx.map fun (b, i) => b2n b * 2 ^ (5 + i)).sum
    + b2n t.unav * 16 + b2n t.perr * 8 + b2n t.tripped * 4 + b2n t.wide * 2 + b2n t.bound

/-- The bytes of an item of STKRD (08 R228). -/
def Trk.item (t : Trk) (item idx : Nat) : List Byte :=
  match item with
  | 0 => leBytes 4 t.cur.toNat
  | 1 => leBytes 4 t.next.toNat
  | 2 => leBytes 4 t.amax.toNat
  | 3 => (upto 16).flatMap fun i => leBytes 4 (t.alm.getD i 0).toNat
  | 4 => leBytes 8 (t.cnt.getD idx 0)
  | 5 => leBytes 4 (t.ep.getD idx 0)
  | 6 => leBytes 4 t.status
  | _ => leBytes 8 t.scfg.toNat

/-! ### Waiting for earlier merges (04 R81) -/

/-- Has an earlier command that names a slot observations still to merge? Log entry 29, DEDUCED. -/
def State.unmerged (s : State) (n : Nat) : Bool :=
  (s.vec.ve.any fun w => w.mems.any fun m => decide (veSlotField m.c = n)) ||
  ((s.arr.waiting ++ s.arr.running).any fun p => decide (mxpSlot p.c = n)) || s.feedOpen fun f => decide (ttfSlot f.c = n)

/-! ### Fields and checks -/

def stkSlot (t : Stream) (c : Slot) : Nat := if bit c.base 40 then (t.rdN (c.f 39 37)).toNat else c.f 47 41
def stkRegs (c : Slot) : List (Nat × Nat) := if bit c.base 40 then [(0, c.f 39 37)] else []
def stkSlotChk (t : Stream) (c : Slot) : Chk := chk (if bit c.base 40 then 3 else 1) (decide (stkSlot t c > 63)) 3

/-- STKBIND's address. -/
def stkAddr (t : Stream) (c : Slot) : Int := ((t.rdA (c.f 36 33)).toNat : Int) + sfld c.base 32 9

/-- Value selector of STKMRG and STKSET: a register, an immediate, a one-element FP32 form. -/
def valSel (sel : Nat) : Bool := isN sel || sel = 0x10 || isForm sel
def valChks (s : State) (t : Stream) (c : Slot) (sel : Nat) : List Chk :=
  chk 1 (!valSel sel) 3 ::
  (if isForm sel then
    let f := selForm t.regs c sel 0
    formChks s f [0] 1 false ++ [chk 5 (decide (f.count > 1)) 6]
  else [])

/-- Where a command reads its value in the scratchpad: address and length. -/
def stkRead (t : Stream) (c : Slot) : Option (Nat × Nat) :=
  match c.opc with
  | 0x38 => some ((stkAddr t c).toNat, 8)
  | 0x3B => if isForm (c.f 36 31) then some ((selForm t.regs c (c.f 36 31) 0).addrN 0, 4) else none
  | 0x3C => if isForm (c.f 36 31) then some ((selForm t.regs c (c.f 36 31) 0).addrN 0, 4) else none
  | _ => none

/-- The value a command takes at issue. -/
def stkVal (s : State) (t : Stream) (c : Slot) : W64 :=
  match stkRead t c with
  | some (a, n) => BitVec.ofNat 64 (s.peekLe (some .x) a n)
  | none =>
    let sel := c.f 36 31
    if c.opc = 0x3B || c.opc = 0x3C then (if isN sel then (t.rdN (sel - 8)).setWidth 64 else BitVec.ofNat 64 (fld (c.x 0) 31 0)) else 0

/-- Can a check judge the value a command reads? Its bytes are in the scratchpad and readable, and no earlier write to them
is under way. -/
def State.stkReady (s : State) (st : Sid) (c : Slot) (lw : LwInfo) : Bool :=
  match stkRead (s.str st) c with
  | some (a, n) => (decide (c.opc = 0x38) || decide ((selForm (s.str st).regs c (c.f 36 31) 0).count ≠ 0)) && decide (a + n ≤ spmSize) && decide (a % n = 0) && !s.readWaits st lw a n && (s.badView (some st) a n).isNone
  | none => true

/-- Log entry 30, DEDUCED. -/
def chkStk (s : State) (st : Sid) (c : Slot) (lw : LwInfo) : List Chk :=
  let t := s.str st
  let known := s.stkReady st c lw
  let n := stkSlot t c
  let sel := c.f 36 31
  match c.opc with
  | 0x38 =>
    let a := stkAddr t c
    encChks c 0 [(8, 0)] ++
    [stkSlotChk t c, chk 3 (outside a (a + 7)) 3, chk 4 (decide (a % 8 ≠ 0)) 4, chk 6 (s.trkAt n).unav 3,
     chk 3 (known && decide (fld (stkVal s t c) 63 62 = 3)) 3]
  | 0x39 => encChks c 0 [(36, 0)] ++ [stkSlotChk t c]
  | 0x3A => encChks c 0 [(35, 0)] ++ [stkSlotChk t c]
  | 0x3B => encChks c (selWords sel) [(30, 0)] ++ [stkSlotChk t c] ++ valChks s t c sel
  | 0x3C =>
    encChks c (selWords sel) [(30, 0)] ++ [stkSlotChk t c] ++ valChks s t c sel ++
    [chk 3 (known && !scaleOk ((stkVal s t c).setWidth 32)) 3]
  | 0x3D =>
    let d := c.f 29 24
    let item := c.f 36 33
    let idx := c.f 32 30
    let f := selForm t.regs c d 0
    encChks c (selWords d) [(23, 0)] ++
    [stkSlotChk t c, chk 1 (!isN d && !isForm d) 3, chk 1 (decide (item > 7)) 3,
     chk 1 (if item = 4 then decide (idx > 4) else if item = 5 then decide (idx > 2) else false) 3,
     chk 1 (isN d && (item = 3 || item = 7)) 3] ++
    (if isForm d then formChks s f anyForm (ceilDiv ((Trk.zero.item item idx).length) (max 1 (fmtBytes f.ty))) true else [])
  | _ => encChks c 0 [(31, 0)] ++ [stkSlotChk t c]

/-! ### Effects (04 Table 4-1) -/

/-- STKMRG: a negative or non-finite value only counts (04 R82). Log entry 27, DEDUCED. It never trips, also where TRNF = 1: log
entry 109, DESIGN CHOICE. -/
def State.stkMerge (s : State) (n : Nat) (v : W32) : State :=
  let bad := match fp32 v with | .fin neg m => neg && decide (m ≠ 0) | _ => true
  if bad then
    let t := s.trkAt n
    let (k, sat) := satAdd48 (t.cnt.getD 4 0) 1
    let s' := s.modTrk n fun t => { t with cnt := t.cnt.set 4 k, sat := if sat then t.sat.set 4 true else t.sat }
    if sat && !t.sat.getD 4 false then s'.raise evTrkSat else s'
  else s.modTrk n fun t => { t with amax := maxBits t.amax (v &&& 0x7FFFFFFF), has := true }

/-- The effect of an STK command on slot `n`, and the registers it writes. -/
def State.stkAct (s : State) (st : Sid) (c : Slot) (n : Nat) (v : W64) : State × List RegWr :=
  let s := s.trkParity n (s.csu st).tagNow
  let bound := (s.trkAt n).bound
  match c.opc with
  | 0x38 => (s.modTrk n (Trk.bind · v), [])
  | 0x39 => (s.modTrk n fun t => { t with bound := false }, [])
  | 0x3A => (if bound then s.modTrk n (Trk.advance · (bit c.base 36)) else s.unboundUse, [])
  | 0x3B => (if bound then s.stkMerge n (v.setWidth 32) else s.unboundUse, [])
  | 0x3C => (s.modTrk n fun t => { t with cur := v.setWidth 32, next := v.setWidth 32 }, [])
  | 0x3D =>
    let d := c.f 29 24
    let bs := (s.trkAt n).item (c.f 36 33) (c.f 32 30)
    if isN d then (s, [⟨0, d - 8, leNat (bs.take 4)⟩])
    else (s.writePairs (some st) (s.csu st).tagNow (((selForm (s.str st).regs c d 0).byteAddrs).zip bs), [])
  | _ =>
    if bound then
      let mask := c.f 36 32
      (s.modTrk n fun t => { t with
        cnt := t.cnt.zipIdx.map fun (k, i) => if (mask >>> i) % 2 = 1 then 0 else k
        sat := t.sat.zipIdx.map fun (b, i) => b && (mask >>> i) % 2 ≠ 1 }, [])
    else (s.unboundUse, [])

/-- The Method R block not yet copied that an STKRD would write (13 R340). -/
def State.stkBlock (s : State) (st : Sid) (c : Slot) : Option (Nat × Nat) :=
  if c.opc = 0x3D && !isN (c.f 29 24) then
    s.blockOfPairs (some st) (s.csu st).tagNow ((selForm (s.str st).regs c (c.f 29 24) 0).byteAddrs.map fun a => (a, 0))
  else none
def State.stallStk (s : State) (st : Sid) (c : Slot) : State :=
  match s.stkBlock st c with
  | some p => s.stallOn 22 c.tag.toNat p
  | none => s

def runStk (s : State) (st : Sid) (c : Slot) (lw : LwInfo) : Res :=
  let t := s.str st
  let n := stkSlot t c
  let go := fun (s : State) (v : W64) =>
    if s.unmerged n || (s.stkBlock st c).isSome then Res.wait (s.stallStk st c) (.merges n v) []
    else let (s, l) := s.stkAct st c n v; .ok s l
  match stkRead t c with
  | none => go s (stkVal s t c)
  | some (a, k) =>
    if s.readWaits st lw a k then .stall quietStall 0
    else match s.badView (some st) a k with
      | some w => .ok (((s.noteUncorr (some (st, c.tag)) w).abortIf st (s.csu st).tagNow 3 1).noteHalt st 0x0B w c.tag c.kind) []
      | none => go (s.touchView (some st) a k) (stkVal s t c)

/-- The register that an STKRD writes. -/
def stkDst (c : Slot) : List (Nat × Nat) := if c.opc = 0x3D && isN (c.f 29 24) then [(0, c.f 29 24 - 8)] else []

def stkSem : CmdSem :=
  ⟨fun c => stkRegs c ++ (match c.opc with
      | 0x38 => [(1, c.f 36 33)]
      | 0x3B => formRegs c (c.f 36 31) 0
      | 0x3C => formRegs c (c.f 36 31) 0
      | 0x3D => formRegs c (c.f 29 24) 0
      | _ => []), stkDst, isWc, chkStk, runStk⟩

/-- STKBIND as a command of its own (08 R228). -/
def execStkbind (st : Sid) (c : Slot) (s : State) : Host.Outcome State Fault Refusal := issueRow stkSem st (asOpc 0x38 c) s
/-- STKFREE as a command of its own (08 R228). -/
def execStkfree (st : Sid) (c : Slot) (s : State) : Host.Outcome State Fault Refusal := issueRow stkSem st (asOpc 0x39 c) s
/-- STKADV as a command of its own (08 R228). -/
def execStkadv (st : Sid) (c : Slot) (s : State) : Host.Outcome State Fault Refusal := issueRow stkSem st (asOpc 0x3A c) s
/-- STKMRG as a command of its own (08 R228). -/
def execStkmrg (st : Sid) (c : Slot) (s : State) : Host.Outcome State Fault Refusal := issueRow stkSem st (asOpc 0x3B c) s
/-- STKSET as a command of its own (08 R228). -/
def execStkset (st : Sid) (c : Slot) (s : State) : Host.Outcome State Fault Refusal := issueRow stkSem st (asOpc 0x3C c) s
/-- STKRD as a command of its own (08 R228). -/
def execStkrd (st : Sid) (c : Slot) (s : State) : Host.Outcome State Fault Refusal := issueRow stkSem st (asOpc 0x3D c) s
/-- STKCLR as a command of its own (08 R228). -/
def execStkclr (st : Sid) (c : Slot) (s : State) : Host.Outcome State Fault Refusal := issueRow stkSem st (asOpc 0x3E c) s

/-- STK_MERGES_DONE (08 R228): the waiting STK command acts, not during a checkpoint stop (04 Table 4-5). -/
def execStkMergesDone (s : State) : Host.Outcome State Fault Refusal :=
  .next <| match s.sX.wait with
  | some w =>
    match w.kind with
    | .merges n v =>
      if s.unmerged n || s.cstate = 1 then s
      else if (s.stkBlock .x w.cmd).isSome then s.stallStk .x w.cmd
      else
        let (s, l) := s.stkAct .x w.cmd n v
        s.finishWait .x l
    | _ => s
  | none => s

end Sys2Proof.Machine
end

