-- ==== Sys2Proof/Machine/Vector.lean ====
section
/-!
DEFINITION. Issue of the VE and RED commands (05 R105 to R108, R118, R119, 08 R224 to R227): fields, operands, checks, what a
command latches, VSETL and VCHAIN.
-/

namespace Sys2Proof.Machine

/-! ### Fields (08 Tables 8-14 and 8-16) -/

def isRed (c : Slot) : Bool := 0x60 ≤ c.opc && c.opc ≤ 0x64
def vDst (c : Slot) : Nat := c.f 47 42
/-- Selector of source i. -/
def vSrc (c : Slot) (i : Nat) : Nat :=
  if i = 0 then c.f 41 36 else if isRed c then 0 else if i = 1 then c.f 35 30 else c.f 29 24
def vOt (c : Slot) : Nat := if isRed c then c.f 35 32 else c.f 23 20
def vMsk (c : Slot) : Nat := if isRed c then c.f 31 28 else c.f 19 16
def vFn (c : Slot) : Nat := if isRed c then c.f 27 26 else c.f 11 9
def vZero (c : Slot) : Bool := !isRed c && bit c.base 15
def vNx (c : Slot) : Bool := !isRed c && bit c.base 14
def vSat (c : Slot) : Bool := !isRed c && bit c.base 13
def vSr (c : Slot) : Bool := !isRed c && bit c.base 12
def vTs (c : Slot) : Nat := if isRed c then 0 else c.f 8 7
def vTrk (c : Slot) : Nat := if isRed c then 0x7F else c.f 6 0
def redSeg (c : Slot) : Nat := c.f 25 5
def redPv (c : Slot) : Bool := isRed c && bit c.base 4
def redPd (c : Slot) : Nat := c.f 3 1

/-- First extension word of source i, of the bitmap, of the index base; their number. -/
def wSrc (c : Slot) (i : Nat) : Nat :=
  selWords (vDst c) + (if i = 0 then 0 else selWords (vSrc c 0)) + (if i = 2 then selWords (vSrc c 1) else 0)
def wBm (c : Slot) : Nat := wSrc c 2 + selWords (vSrc c 2)
def wIdx (c : Slot) : Nat := wBm c + (if vMsk c = 8 then 1 else 0)
def wAll (c : Slot) : Nat := wIdx c + b2n (vSr c)

/-- Sources that a command reads (08 Table 8-15). -/
def nSrc (o : Nat) : Nat :=
  if o = 0x52 || o = 0x5A then 3
  else if (0x40 ≤ o && o ≤ 0x44) || (0x47 ≤ o && o ≤ 0x49) || (0x4B ≤ o && o ≤ 0x4F) || o = 0x59 then 2 else 1

/-- Commands with an optional tensor scale. -/
def isScaled (o : Nat) : Bool := o = 0x50 || o = 0x57 || o = 0x58

/-- Element type of source i, and of the destination (08 Tables 8-15, 8-16). -/
def srcTy (c : Slot) (i : Nat) : Nat :=
  let o := c.opc
  if o = 0x5B then 0 else if o = 0x5A then (if i = 0 then 8 else 0) else if isScaled o && i = 2 then 0 else vOt c
def dstTy (c : Slot) : Nat :=
  let o := c.opc
  if o = 0x50 then vFn c
  else if o = 0x5A then vFn c
  else if o = 0x5B then 8
  else if o = 0x60 then (if vFn c = 0 then 8 else 0)
  else if o = 0x63 || o = 0x64 then 3
  else vOt c

/-- The operation types a command accepts (08 R225, R227, 05 R130). The spec lists none for REDMAX, REDMIN and
REDARG: E4M3 and E5M2 are refused there with FORMAT_MISMATCH. Log entry 111, DESIGN CHOICE. -/
def otOk (c : Slot) : Bool :=
  let o := c.opc
  let t := vOt c
  let arith := isIntLane t || t = 0 || t = 1
  if (0x40 ≤ o && o ≤ 0x46) || o = 0x4E then arith
  else if 0x47 ≤ o && o ≤ 0x4D then isIntLane t
  else if o = 0x4F || o = 0x5C || o = 0x5D then t ≤ 8
  else if o = 0x50 then t ≤ 7
  else if o = 0x51 then t ≤ 8
  else if (0x52 ≤ o && o ≤ 0x58) then t ≤ 1
  else if 0x59 ≤ o && o ≤ 0x5B then t = 8
  else if o = 0x60 then t ≤ 5 || (t = 8 && vFn c ≠ 2)
  else if 0x61 ≤ o && o ≤ 0x63 then t ≤ 5
  else t ≤ 8

/-- FN in its range (08 R225, R227). -/
def fnOk (c : Slot) : Bool :=
  let o := c.opc
  let f := vFn c
  if o = 0x4E || o = 0x4F || o = 0x50 || o = 0x5C || o = 0x5D then true
  else if o = 0x51 || o = 0x57 then f ≤ 1
  else if o = 0x5A || o = 0x60 then f ≤ 2
  else if o = 0x64 then f ≤ 1
  else f = 0

/-! ### Operands at issue -/

/-- Selectors that a role accepts (08 R225, R227). -/
def srcSel (sel : Nat) : Bool := isK sel || isN sel || sel = 0x10 || isForm sel || isFtq sel || isVecSel sel
def scalSel (sel : Nat) : Bool := isN sel || sel = 0x10

def srcOk (c : Slot) (i : Nat) : Bool :=
  let o := c.opc
  let sel := vSrc c i
  if isRed c then
    if i ≠ 0 then true
    else if o = 0x64 && vFn c = 1 then sel = 0x1A else isK sel || isForm sel || isFtq sel
  else if o = 0x51 then (if i = 0 then (if vFn c = 1 then sel = 0x1A else scalSel sel) else sel = 0)
  else if o = 0x58 && i = 0 then sel = 0x1C
  else if o = 0x5A && i ≠ 0 then scalSel sel
  else if isScaled o && i = 2 then (if vTs c = 2 then scalSel sel else sel = 0)
  else if i < nSrc o then srcSel sel else sel = 0

/-- Selectors that a destination accepts (08 R225, R227). A row or column vector is accepted where Table 8-15 says
'Form or vector', and is written as a plain form: Table 5-2 gives it no meaning there. Log entry 110, DESIGN CHOICE. -/
def dstOk (c : Slot) : Bool :=
  let o := c.opc
  let sel := vDst c
  if isRed c then isN sel || isForm sel
  else if o = 0x4E then (0x21 ≤ sel && sel ≤ 0x27) || sel = 0x1A
  else if o = 0x51 then 0x21 ≤ sel && sel ≤ 0x27
  else if o = 0x57 then sel = 0x1C
  else if 0x40 ≤ o && o ≤ 0x44 then isK sel || isForm sel || isVecSel sel
  else isK sel || isForm sel

/-- The 32 bits of a scalar selector. -/
def scalBits (r : Regs) (c : Slot) (sel at' : Nat) : W32 :=
  if isN sel then r.N (sel - 8) else BitVec.ofNat 32 (fld (c.x at') 31 0)

def vForm (r : Regs) (c : Slot) (i : Nat) : Form := selForm r c (vSrc c i) (wSrc c i)
def vDstForm (r : Regs) (c : Slot) : Form := selForm r c (vDst c) 0
def bsdAt (r : Regs) (c : Slot) (at' : Nat) : Bsd := readBsd r (c.x at') (c.x (at' + 1)) (c.x (at' + 2))

/-- Address of the first header that an FTQ word names. -/
def ftqHdr (r : Regs) (w : W64) : Int := (r.A (fld w 61 58) : Int) + sfld w 57 34

/-- Row length and rows of the 2-D operand of a command: its first form, FTQ or descriptor (05 R126). -/
def twoD (r : Regs) (vlen : Nat) (c : Slot) : Option (Nat × Nat) :=
  let one := fun (sel at' : Nat) =>
    if isForm sel then (let f := selForm r c sel at'; some (f.s0, f.s1 * f.s2))
    else if isFtq sel then some (32, vlen / 32)
    else if sel = 0x1C then (let b := bsdAt r c at'; some (b.cols, b.rows))
    else none
  match (upto (if isRed c then 1 else 3)).findSome? fun i => one (vSrc c i) (wSrc c i) with
  | some x => some x
  | none => if isRed c then none else one (vDst c) 0

/-- As `twoD`, from the chain's other commands where the command names none; else the vector is the one row. Log entry 37, DEDUCED. -/
def rowShape (r : Regs) (vlen : Nat) (cs : List Slot) (c : Slot) : Nat × Nat :=
  match twoD r vlen c with
  | some x => x
  | none =>
    match cs.findSome? (twoD r vlen) with
    | some x => x
    | none =>
      match (upto 3).find? fun i => vSrc c i = 0x18 with
      | some i => ((vForm r c i).s0, 1)
      | none => (1, vlen)

/-- Blocks a tensor holds, counted in positions, as VQ and VDQ number them. -/
def bsdRoom (b : Bsd) : Nat := if b.sq then ceilDiv b.rows 32 * b.nb * 1024 else b.rows * b.cols

/-- Elements that a source must yield (05 R108, R125). Log entry 35, DEDUCED. -/
def srcNeed (c : Slot) (vlen : Nat) : Nat := if c.opc = 0x5D then 0 else vlen
/-- Segments of a RED command (05 R129). -/
def redSegs (c : Slot) (vlen : Nat) : Nat := if redSeg c = 0 then 1 else max 1 (ceilDiv vlen (redSeg c))
/-- Elements that a destination must have. -/
def dstNeed (c : Slot) (vlen : Nat) : Nat :=
  if c.opc = 0x5C then 0 else if isRed c then redSegs c vlen else vlen

def VeMem.regs (m : VeMem) : Regs := ⟨m.a, m.n⟩

/-- The regions that a command's FTQ operands name, with their words. -/
def ftqsOf (c : Slot) : List (Nat × W64) :=
  if c.opc = 0x6A || c.opc = 0x68 then [] else
  ((upto (if isRed c then 1 else 3)).filter fun i => isFtq (vSrc c i)).map fun i => (vSrc c i - 0x14, c.x (wSrc c i))

/-- The byte ranges of the scratchpad that a VE, RED or RNGK GEN command may write. -/
def memWrites (m : VeMem) (vlen : Nat) : List (Int × Int) :=
  let r := m.regs
  let sel := if m.c.opc = 0x6A then m.c.f 43 38 else vDst m.c
  (if isForm sel || isVecSel sel then
    let f := selForm r m.c sel 0
    [(f.low, f.high + (max 1 (fmtBytes f.ty) : Nat) - 1)]
   else if sel = 0x1A then (let f := selForm r m.c sel 0; [(f.base, f.base + (ceilDiv f.s0 8 : Nat))])
   else if sel = 0x1C then (let b := bsdAt r m.c 0; [b.elemExt, b.sideExt])
   else []) ++
  ((ftqsOf m.c).filter fun p => bit p.2 62).map fun p => (ftqHdr r p.2, ftqHdr r p.2 + (16 * (vlen / 1024) : Nat))

/-! ### Checks (05 R108, R114, R119, 09 R443) -/

/-- Checks of a mask bitmap (08 Table 8-2). -/
def bmChks (s : State) (r : Regs) (w : W64) (need : Nat) (dst : Bool) : List Chk :=
  let f := compactForm r w
  let hi := f.base + (ceilDiv f.s0 8 : Nat) - 1
  [chk 1 (!f.enc) 3, chk 3 f.szBad 3, chk 3 (decide (f.s0 ≠ 0) && outside f.base hi) 3,
   chk 3 (dst && decide (f.s0 ≠ 0) && s.inShadow f.base hi) 3, chk 4 (decide (f.base % 8 ≠ 0)) 4,
   chk 5 (decide (f.s0 < need)) 6]

/-- Checks of an FTQ operand (08 R209): the header's address is aligned, where one is asked for. Log entry 153, DESIGN CHOICE. -/
def ftqChks (s : State) (r : Regs) (w : W64) (vlen : Nat) : List Chk :=
  let a := ftqHdr r w
  let hi := a + 16 * (vlen / 1024 : Nat) - 1
  [chk 1 (decide (fld w 33 0 ≠ 0)) 3, chk 3 (bit w 62 && decide (1024 ≤ vlen) && (outside a hi || s.inShadow a hi)) 3,
   chk 4 (bit w 62 && decide (a % 16 ≠ 0)) 4, chk 5 (decide (vlen % 1024 ≠ 0)) 6]

/-- Does a form yield each 32 × 32 tile's elements one after another? Log entry 40, DEDUCED. -/
def tileForm (f : Form) : Bool := (f.s0 = 32 && f.s1 % 32 = 0) || f.s0 % 1024 = 0

/-- Checks of source i. -/
def srcChks (s : State) (r : Regs) (vlen : Nat) (cs : List Slot) (c : Slot) (i : Nat) : List Chk :=
  let sel := vSrc c i
  let w := c.x (wSrc c i)
  if isForm sel then formChks s (vForm r c i) [srcTy c i] (srcNeed c vlen) false
  else if isVecSel sel then
    let f := compactForm r w
    let shape := rowShape r vlen cs c
    formChks s f [srcTy c i] 0 false ++
    [chk 3 (decide (f.s0 > 4096)) 3, chk 5 (decide (f.s0 ≠ if sel = 0x18 then shape.1 else shape.2)) 6]
  else if isFtq sel then ftqChks s r w vlen
  else if sel = 0x1A then bmChks s r w (if c.opc = 0x51 then min 1024 vlen else vlen) false
  else if sel = 0x1C then
    let b := bsdAt r c (wSrc c i)
    bsdChks s b false false ++ [chk 5 (decide (bsdRoom b < vlen)) 6]
  else []

/-- Checks of the destination. -/
def dstChks (s : State) (r : Regs) (vlen : Nat) (c : Slot) : List Chk :=
  let sel := vDst c
  if isForm sel || isVecSel sel then formChks s (vDstForm r c) [dstTy c] (dstNeed c vlen) true
  else if sel = 0x1A then bmChks s r (c.x 0) vlen true
  else if sel = 0x1C then
    let b := bsdAt r c 0
    bsdChks s b false true ++
    [chk 2 (isBsdFmt b.fmt && !isBlockFmt b.fmt) 5,
     chk 5 (decide (bsdRoom b < vlen) || (b.sq && decide (vlen % 1024 ≠ 0)) ||
       (b.sq && isForm (vSrc c 0) && !tileForm (vForm r c 0))) 6]
  else []

/-- The tensor scale that a command latches. -/
def State.vScale (s : State) (r : Regs) (c : Slot) : W32 :=
  if !isScaled c.opc then 0x3F800000
  else match vTs c with
    | 1 => (s.trkAt (vTrk c)).cur
    | 2 => scalBits r c (vSrc c 2) (wSrc c 2)
    | _ => 0x3F800000

/-- Beat width of one command (05 R103): the widest type it reads or writes; masks and VQ's blocks do not count. Log entry 32, DEDUCED. -/
def beatOf (cs : List Slot) : Nat :=
  let width := fun (c : Slot) =>
    if c.opc = 0x51 then 8
    else if c.opc = 0x4E || c.opc = 0x57 then fmtBits (vOt c)
    else max (fmtBits (vOt c)) (fmtBits (dstTy c))
  let w := (cs.map width).foldl max 8
  if w = 128 then 64 else if w = 32 then 256 else if w = 16 then 512 else 1024

/-- Selectors that a command names. -/
def vSels (c : Slot) : List Nat := vDst c :: (upto (if isRed c then 1 else 3)).map (vSrc c)

/-- The checks of a VE or RED command; `cs` the commands of its chain, empty outside one. Log entry 42, DEDUCED. -/
def chkVec (s : State) (st : Sid) (cs : List Slot) (c : Slot) : List Chk :=
  let r := (s.str st).regs
  let vlen := s.vec.vlen.toNat
  let ns := if isRed c then 1 else 3
  encChks c (wAll c) (if isRed c then [(0, 0)] else []) ++
  [chk 1 (decide (vMsk c > 8)) 3, chk 1 (!fnOk c) 3, chk 1 (decide (vTs c = 3)) 3,
   chk 1 (decide (64 ≤ vTrk c) && decide (vTrk c ≤ 126)) 3, chk 1 (decide (vTs c = 1) && decide (vTrk c = 0x7F)) 3,
   chk 1 (isRed c && decide (redSeg c > 2 ^ 20)) 3, chk 1 (decide (vOt c > 8)) 3,
   chk 1 (isRed c && isN (vDst c) && (decide (redSeg c ≠ 0) || (decide (c.opc = 0x60) && decide (vFn c = 0)))) 3,
   chk 1 (redPv c && !(decide (c.opc = 0x60) && decide (vFn c ≤ 1))) 3,
   chk 1 (cs.isEmpty && (vSels c).any isK) 3,
   chk 1 (!dstOk c) 3] ++ ((upto ns).map fun i => chk 1 (!srcOk c i) 3) ++
  [chk 2 (!otOk c) 5,
   chk 3 (isScaled c.opc && !scaleOk (s.vScale r c)) 3,
   chk 3 (decide (c.opc = 0x5A) && (!scaleOk (scalBits r c (vSrc c 1) (wSrc c 1)) || !scaleOk (scalBits r c (vSrc c 2) (wSrc c 2)))) 3] ++
  dstChks s r vlen c ++ ((upto ns).flatMap fun i => srcChks s r vlen cs c i) ++
  (if vMsk c = 8 then bmChks s r (c.x (wBm c)) vlen false else []) ++
  [chk 5 (cs.isEmpty && decide (c.opc = 0x4E) && decide (vDst c ≠ 0x1A) && decide (vlen > beatOf [c])) 6,
   chk 6 ((s.physOf 2 255).isNone) 3]

/-! ### Issue -/

/-- Registers that a VE or RED command reads or writes. -/
def vecRegs (c : Slot) : List (Nat × Nat) :=
  formRegs c (vDst c) 0 ++ ((upto (if isRed c then 1 else 3)).flatMap fun i => formRegs c (vSrc c i) (wSrc c i)) ++
  (if vMsk c = 8 then formRegs c 0x11 (wBm c) else []) ++
  (if c.opc = 0x5C || c.opc = 0x5D then [(0, vFn c)] else []) ++ (if redPv c then [(2, redPd c)] else []) ++ (if vSr c then [(3, 0)] else [])

/-- Registers that it writes when it ends. -/
def vecPend (c : Slot) : List (Nat × Nat) :=
  (if isRed c && isN (vDst c) then [(0, vDst c - 8)] else []) ++
  (if c.opc = 0x5C || c.opc = 0x5D then [(0, vFn c)] else []) ++ (if redPv c then [(2, redPd c)] else [])

def RedAcc.zero : RedAcc := ⟨0, Ledger.empty, .fin false 0, none, false, 0, 0, false, 0⟩
def VeAcc.zero : VeAcc := ⟨0, {}, 0, 0, 0, [], RedAcc.zero, []⟩

/-- What a command latches; its slot's binding is checked now (04 R83, R90). -/
def State.veMem (s : State) (st : Sid) (c : Slot) (lw : Nat) : State × VeMem :=
  let t := s.str st
  let s := if isScaled c.opc && vTs c = 1 then s.trkParity (vTrk c) (s.csu st).tagNow else s
  let (s', trk) := s.bindCheck (vTrk c)
  (s', { c := c, a := t.a, n := t.n, scale := s.vScale t.regs c, trk := trk, lw := lw, lwSlot := c.kind, acc := VeAcc.zero })

/-- Put a work into the VE's issue queue. -/
def State.pushWork (s : State) (st : Sid) (mems : List VeMem) : State :=
  { s with vec := { s.vec with
      serial := s.vec.serial + 1
      ve := s.vec.ve ++ [{ mems := mems, vlen := s.vec.vlen.toNat, beat := 0, key := s.key 0, cs := (s.csu st).tagNow
                           pend := mems.flatMap fun m => vecPend m.c
                           wr := mems.flatMap fun m => memWrites m s.vec.vlen.toNat, serial := s.vec.serial + 1 }] } }

/-- At most 8 commands or chains wait for their first beat (08 R214). -/
def State.veFull (s : State) : Bool := decide ((s.vec.ve.filter fun w => w.beat = 0).length ≥ 8)

/-- Log entry 36, DEDUCED. -/
def runVec (s : State) (st : Sid) (c : Slot) (_lw : LwInfo) : Res :=
  if s.veFull then .stall 5 11
  else let (s, m) := s.veMem st c (s.here st); .ok (s.pushWork st [m]) []

/-- A VE or RED command outside a chain (08 R224, R227). -/
def vecSem : CmdSem := ⟨vecRegs, vecPend, notW, fun s st c _ => chkVec s st [] c, runVec⟩

/-! ### VSETL (05 R106, 08 R226) -/

def chkVsetl (c : Slot) : List Chk :=
  let sel := c.f 47 42
  encChks c (selWords sel) [(37, 0)] ++
  [chk 1 (!scalSel sel) 3]

def runVsetl (s : State) (st : Sid) (c : Slot) : Res :=
  let req := (scalBits (s.str st).regs c (c.f 47 42) 0).toNat
  let v := min req (2 ^ 20)
  let s := { s with vec := { s.vec with vlen := BitVec.ofNat 21 v } }
  .ok (if bit c.base 41 then s.setReg st 0 (c.f 40 38) (req - v) else s) []

/-- The register that a VSETL writes. -/
def vsetlDst (c : Slot) : List (Nat × Nat) := if bit c.base 41 then [(0, c.f 40 38)] else []

def vsetlSem : CmdSem :=
  ⟨fun c => formRegs c (c.f 47 42) 0 ++ vsetlDst c, vsetlDst, notW,
   fun _ _ c _ => chkVsetl c, fun s st c _ => runVsetl s st c⟩

/-! ### VCHAIN (05 R118, R119) -/

/-- Streams that a member names (05 R119). -/
def vStreams (c : Slot) : Nat :=
  let one := fun (sel at' : Nat) =>
    if isForm sel || isVecSel sel || sel = 0x1A then 1
    else if sel = 0x1C then (if isBlockFmt (fld (c.x at') 7 3) then 2 else 1)
    else if isFtq sel then b2n (bit (c.x at') 62)
    else 0
  one (vDst c) 0 + ((upto (if isRed c then 1 else 3)).map fun i => one (vSrc c i) (wSrc c i)).sum + b2n (vMsk c = 8)

/-- The first member that reads a coupler which no earlier member writes; one whose row is unreadable (`dark`) may write any. -/
def unwritten (dark : Nat → Bool) : List Nat → List (Slot × Nat) → Option (Slot × Nat)
  | _, [] => none
  | ks, (c, a) :: r =>
    if dark a then unwritten dark [1, 2, 3, 4] r
    else if ((vSels c).drop 1).any fun sel => isK sel && !ks.contains sel then some (c, a)
    else unwritten dark (if isK (vDst c) then vDst c :: ks else ks) r

/-- DETAIL of a halt raised at a VCHAIN for one of its members: the address of the member's long word in [46:30] (09 Table 9-8). -/
def memberDet (a : Nat) : Nat := a % 2 ^ 17 * 2 ^ 30

/-- The first failing check of the members, with the address of the one that fails. `bad`: what the long word at an address
fails as a word. -/
def memberFail (s : State) (st : Sid) (ms : List (Slot × Nat)) (bad : List (Nat × Chk)) : Option Chk :=
  ms.findSome? fun (c, a) =>
    match bad.find? (·.1 = a) with
    | some p => some { p.2 with det := memberDet a + p.2.det }
    | none =>
    let l := chk 1 (!kindAdmits st c.kind c.opc) 1 :: (chkVec s st (ms.map (·.1)) c ++ headChks s c)
    let l := if guardTrue (s.str st) c then l else l.filter (·.cls = 1)
    (firstFail l).map fun f => { f with det := memberDet a + f.det, who := some c }

/-- The checks of a chain in the order of R119, as one; the second to the fourth see the members that can be read. Log entry 38, DEDUCED. -/
def chainChk (s : State) (st : Sid) (c : Slot) (ms : List (Slot × Nat)) (bad : List (Nat × Chk)) : Option Chk :=
  let n := c.f 47 44
  let named := fun (p : Slot × Nat) (rsn : Nat) => some { chk 6 true rsn (memberDet p.2) with who := some p.1 }
  if n < 2 || n > 8 then some (chk 6 true 3)
  else
  let dark := fun (a : Nat) => bad.any fun q => decide (q.1 = a) && decide (q.2.rsn = 0x0A)
  let seen := ms.filter fun p => !dark p.2
  match seen.find? fun p => !isVeOpc p.1.opc with
  | some p => named p 2
  | none =>
    if ms.length ≠ n then some (chk 6 true 2)
    else match unwritten dark [] ms with
    | some p => named p 3
    | none =>
      if ((seen.flatMap fun p => vSels p.1).filter isFtq).length > 1 || (seen.filter fun p => isRed p.1).length > 1 ||
         (seen.map fun p => vStreams p.1).sum > 4 then some (chk 6 true 2)
      else memberFail s st ms bad

def chkVchain (s : State) (st : Sid) (c : Slot) (ms : List (Slot × Nat)) (bad : List (Nat × Chk)) : List Chk :=
  encChks c 0 [(43, 0)] ++ (chainChk s st c (ms.take (c.f 47 44)) bad).toList

/-- VCHAIN latches every member whose guard is true; the members' long words then only count. -/
def runVchain (s : State) (st : Sid) (c : Slot) (ms : List (Slot × Nat)) : Res :=
  let ms := ms.take (c.f 47 44)
  let live := ms.filter fun p => guardTrue (s.str st) p.1
  if s.veFull && !live.isEmpty then .stall 5 11
  else
    let z := live.foldl (fun (a : State × List VeMem) p =>
      let (s, m) := a.1.veMem st p.1 (p.2 % 2 ^ 17 + s.bankOf st * 2 ^ 17)
      (s, a.2 ++ [m])) (s, [])
    let s := if live.isEmpty then s else z.1.pushWork st z.2
    .ok (s.modStr st fun t => { t with chain := c.f 47 44 }) []

def vchainSem (ms : List (Slot × Nat)) (bad : List (Nat × Chk)) : CmdSem :=
  ⟨fun c => (ms.take (c.f 47 44)).flatMap fun p => (2, p.1.gp) :: vecRegs p.1,
   fun c => (ms.take (c.f 47 44)).flatMap fun p => vecPend p.1, notW, fun s st c _ => chkVchain s st c ms bad, fun s st c _ => runVchain s st c ms⟩

/-- The members' addresses where each makes a long word of its own, one after another. -/
def memberAddrs : Nat → List Slot → List (Slot × Nat)
  | _, [] => []
  | a, c :: r => (c, a) :: memberAddrs (a + 16 * ceilDiv (2 + c.xw) 2) r

/-! ### The commands as long words of their own -/

/-- VADD (05 R111, R112): it issues and latches; its beats follow. -/
def execVadd (st : Sid) (c : Slot) (s : State) : Host.Outcome State Fault Refusal := issueRow vecSem st (asOpc 0x40 c) s
/-- VSUB (05 R111, R112): it issues and latches; its beats follow. -/
def execVsub (st : Sid) (c : Slot) (s : State) : Host.Outcome State Fault Refusal := issueRow vecSem st (asOpc 0x41 c) s
/-- VMUL (05 R111, R112): it issues and latches; its beats follow. -/
def execVmul (st : Sid) (c : Slot) (s : State) : Host.Outcome State Fault Refusal := issueRow vecSem st (asOpc 0x42 c) s
/-- VMIN (05 R112): it issues and latches; its beats follow. -/
def execVmin (st : Sid) (c : Slot) (s : State) : Host.Outcome State Fault Refusal := issueRow vecSem st (asOpc 0x43 c) s
/-- VMAX (05 R112): it issues and latches; its beats follow. -/
def execVmax (st : Sid) (c : Slot) (s : State) : Host.Outcome State Fault Refusal := issueRow vecSem st (asOpc 0x44 c) s
/-- VABS (05 R111, R112): it issues and latches; its beats follow. -/
def execVabs (st : Sid) (c : Slot) (s : State) : Host.Outcome State Fault Refusal := issueRow vecSem st (asOpc 0x45 c) s
/-- VNEG (05 R111, R112): it issues and latches; its beats follow. -/
def execVneg (st : Sid) (c : Slot) (s : State) : Host.Outcome State Fault Refusal := issueRow vecSem st (asOpc 0x46 c) s
/-- VAND (08 R225): it issues and latches; its beats follow. -/
def execVand (st : Sid) (c : Slot) (s : State) : Host.Outcome State Fault Refusal := issueRow vecSem st (asOpc 0x47 c) s
/-- VOR (08 R225): it issues and latches; its beats follow. -/
def execVor (st : Sid) (c : Slot) (s : State) : Host.Outcome State Fault Refusal := issueRow vecSem st (asOpc 0x48 c) s
/-- VXOR (08 R225): it issues and latches; its beats follow. -/
def execVxor (st : Sid) (c : Slot) (s : State) : Host.Outcome State Fault Refusal := issueRow vecSem st (asOpc 0x49 c) s
/-- VNOT (08 R225): it issues and latches; its beats follow. -/
def execVnot (st : Sid) (c : Slot) (s : State) : Host.Outcome State Fault Refusal := issueRow vecSem st (asOpc 0x4A c) s
/-- VSHL (05 R111): it issues and latches; its beats follow. -/
def execVshl (st : Sid) (c : Slot) (s : State) : Host.Outcome State Fault Refusal := issueRow vecSem st (asOpc 0x4B c) s
/-- VSHR (05 R111): it issues and latches; its beats follow. -/
def execVshr (st : Sid) (c : Slot) (s : State) : Host.Outcome State Fault Refusal := issueRow vecSem st (asOpc 0x4C c) s
/-- VSHRA (05 R111): it issues and latches; its beats follow. -/
def execVshra (st : Sid) (c : Slot) (s : State) : Host.Outcome State Fault Refusal := issueRow vecSem st (asOpc 0x4D c) s
/-- VCMP (05 R112, R121): it issues and latches; its beats follow. -/
def execVcmp (st : Sid) (c : Slot) (s : State) : Host.Outcome State Fault Refusal := issueRow vecSem st (asOpc 0x4E c) s
/-- VSEL (08 R225): it issues and latches; its beats follow. -/
def execVsel (st : Sid) (c : Slot) (s : State) : Host.Outcome State Fault Refusal := issueRow vecSem st (asOpc 0x4F c) s
/-- VCVT (05 R114): it issues and latches; its beats follow. -/
def execVcvt (st : Sid) (c : Slot) (s : State) : Host.Outcome State Fault Refusal := issueRow vecSem st (asOpc 0x50 c) s
/-- VMSET (05 R121): it issues and latches; its beats follow. -/
def execVmset (st : Sid) (c : Slot) (s : State) : Host.Outcome State Fault Refusal := issueRow vecSem st (asOpc 0x51 c) s
/-- VFMA (05 R112): it issues and latches; its beats follow. -/
def execVfma (st : Sid) (c : Slot) (s : State) : Host.Outcome State Fault Refusal := issueRow vecSem st (asOpc 0x52 c) s
/-- VEXP2 (05 R113): it issues and latches; its beats follow. -/
def execVexp2 (st : Sid) (c : Slot) (s : State) : Host.Outcome State Fault Refusal := issueRow vecSem st (asOpc 0x53 c) s
/-- VLOG2 (05 R113): it issues and latches; its beats follow. -/
def execVlog2 (st : Sid) (c : Slot) (s : State) : Host.Outcome State Fault Refusal := issueRow vecSem st (asOpc 0x54 c) s
/-- VRCP (05 R113): it issues and latches; its beats follow. -/
def execVrcp (st : Sid) (c : Slot) (s : State) : Host.Outcome State Fault Refusal := issueRow vecSem st (asOpc 0x55 c) s
/-- VRSQ (05 R113): it issues and latches; its beats follow. -/
def execVrsq (st : Sid) (c : Slot) (s : State) : Host.Outcome State Fault Refusal := issueRow vecSem st (asOpc 0x56 c) s
/-- VQ (05 R114): it issues and latches; its beats follow. -/
def execVq (st : Sid) (c : Slot) (s : State) : Host.Outcome State Fault Refusal := issueRow vecSem st (asOpc 0x57 c) s
/-- VDQ (05 R116): it issues and latches; its beats follow. -/
def execVdq (st : Sid) (c : Slot) (s : State) : Host.Outcome State Fault Refusal := issueRow vecSem st (asOpc 0x58 c) s
/-- VLXADD (05 R117): it issues and latches; its beats follow. -/
def execVlxadd (st : Sid) (c : Slot) (s : State) : Host.Outcome State Fault Refusal := issueRow vecSem st (asOpc 0x59 c) s
/-- VLXCVT (05 R117): it issues and latches; its beats follow. -/
def execVlxcvt (st : Sid) (c : Slot) (s : State) : Host.Outcome State Fault Refusal := issueRow vecSem st (asOpc 0x5A c) s
/-- VLXF (05 R117): it issues and latches; its beats follow. -/
def execVlxf (st : Sid) (c : Slot) (s : State) : Host.Outcome State Fault Refusal := issueRow vecSem st (asOpc 0x5B c) s
/-- VCPRS (05 R125): it issues and latches; its beats follow. -/
def execVcprs (st : Sid) (c : Slot) (s : State) : Host.Outcome State Fault Refusal := issueRow vecSem st (asOpc 0x5C c) s
/-- VEXPD (05 R125): it issues and latches; its beats follow. -/
def execVexpd (st : Sid) (c : Slot) (s : State) : Host.Outcome State Fault Refusal := issueRow vecSem st (asOpc 0x5D c) s
/-- REDSUM (05 R130): it issues and latches; its beats follow. -/
def execRedsum (st : Sid) (c : Slot) (s : State) : Host.Outcome State Fault Refusal := issueRow vecSem st (asOpc 0x60 c) s
/-- REDMAX (05 R130): it issues and latches; its beats follow. -/
def execRedmax (st : Sid) (c : Slot) (s : State) : Host.Outcome State Fault Refusal := issueRow vecSem st (asOpc 0x61 c) s
/-- REDMIN (05 R130): it issues and latches; its beats follow. -/
def execRedmin (st : Sid) (c : Slot) (s : State) : Host.Outcome State Fault Refusal := issueRow vecSem st (asOpc 0x62 c) s
/-- REDARG (05 R130): it issues and latches; its beats follow. -/
def execRedarg (st : Sid) (c : Slot) (s : State) : Host.Outcome State Fault Refusal := issueRow vecSem st (asOpc 0x63 c) s
/-- REDCNT (05 R130): it issues and latches; its beats follow. -/
def execRedcnt (st : Sid) (c : Slot) (s : State) : Host.Outcome State Fault Refusal := issueRow vecSem st (asOpc 0x64 c) s
/-- VSETL as a command of its own (05 R106). -/
def execVsetl (st : Sid) (c : Slot) (s : State) : Host.Outcome State Fault Refusal := issueRow vsetlSem st (asOpc 0x5E c) s
/-- VCHAIN as a command of its own (05 R118): `members` are the commands of the long words that follow. The breaks look at
the whole chain (07 R444). -/
def execVchain (st : Sid) (c : Slot) (members : List Slot) (s : State) : Host.Outcome State Fault Refusal :=
  let c := asOpc 0x5F c
  let lw := loneWord s st c
  let ms := memberAddrs (lw.addr + lw.len) members
  .next (s.issueWord st lw (lonePre s st c) [(c, vchainSem ms [])] ((c, 0) :: (ms.take (c.f 47 44)).map fun p => (p.1, memberDet p.2)))

end Sys2Proof.Machine
end

