-- ==== Sys2Proof/Machine/Lanes.lean ====
section
/-!
DEFINITION. What the VE and the RDU compute in one lane or one segment (05 R105, R111 to R117, R124, R129, R130). A result
`none` is a value that the spec leaves open.
-/

namespace Sys2Proof.Machine

/-! ### Codes -/

/-- A code that the spec leaves open: a fixed function of what it is drawn from, so that equal operands give equal bits (05
"Arithmetic"). Log entry 5, DESIGN CHOICE. -/
def openCode (t key : Nat) (args : List Nat) : Nat :=
  ((Config.laneValue (2 * key) args).toNat + (if fmtBits t > 64 then (Config.laneValue (2 * key + 1) args).toNat * 2 ^ 64 else 0)) %
    2 ^ fmtBits t
/-- The number that a lane's code holds. -/
def laneNum (t code : Nat) : Num := decodeElem t code
/-- The integer that a lane's code holds. -/
def laneInt (t code : Nat) : Int := sgn (fmtBits t) (code % 2 ^ fmtBits t)
/-- The low bits of an integer. -/
def intWrap (t : Nat) (v : Int) : Nat := (v % 2 ^ fmtBits t).toNat
def intLow (t : Nat) : Int := -(2 ^ (fmtBits t - 1))
def intHigh (t : Nat) : Int := 2 ^ (fmtBits t - 1) - 1
def intSat (t : Nat) (v : Int) : Nat := intWrap t (max (intLow t) (min (intHigh t) v))

/-- A scalar's 32 bits converted to the operation type (05 R105). -/
def scalarCode (t : Nat) (x : W32) : Option Nat :=
  match t with
  | 0 => some x.toNat
  | 1 => some (roundTo 1 (fp32 x))
  | 2 => some (roundTo 2 (fp32 x))
  | 3 => some x.toNat
  | 4 => some (fld x 15 0)
  | 5 => some (fld x 7 0)
  | _ => none

/-! ### Arithmetic (05 R111 to R113) -/

/-- VADD, VSUB and VMUL on integers (05 R111). -/
def intArith (sat : Bool) (t : Nat) (v : Int) : Nat := if sat then intSat t v else intWrap t v

/-- The smaller or larger of two numbers, NaN where either is (05 R112). -/
def numMin (a b : Num) : Num := if a.isNan || b.isNan then .nan false else if b.lt true a then b else a
def numMax (a b : Num) : Num := if a.isNan || b.isNan then .nan false else if a.lt true b then b else a

def vAdd (sat : Bool) (t a b : Nat) : Nat :=
  if isIntLane t then intArith sat t (laneInt t a + laneInt t b) else roundTo t ((laneNum t a).add (laneNum t b))
def vSub (sat : Bool) (t a b : Nat) : Nat :=
  if isIntLane t then intArith sat t (laneInt t a - laneInt t b) else roundTo t ((laneNum t a).add (laneNum t b).neg)
def vMul (sat : Bool) (t a b : Nat) : Nat :=
  if isIntLane t then intArith sat t (laneInt t a * laneInt t b) else roundTo t ((laneNum t a).mul (laneNum t b))
def vMin (t a b : Nat) : Nat :=
  if isIntLane t then intWrap t (min (laneInt t a) (laneInt t b)) else roundTo t (numMin (laneNum t a) (laneNum t b))
def vMax (t a b : Nat) : Nat :=
  if isIntLane t then intWrap t (max (laneInt t a) (laneInt t b)) else roundTo t (numMax (laneNum t a) (laneNum t b))
/-- The magnitude of the lowest integer is open: R111 gives no saturation for VABS and VNEG. -/
def vAbs (t a : Nat) : Option Nat :=
  if isIntLane t then (if laneInt t a = intLow t then none else some (intWrap t (laneInt t a).natAbs))
  else some (roundTo t (laneNum t a).abs)
def vNeg (t a : Nat) : Option Nat :=
  if isIntLane t then (if laneInt t a = intLow t then none else some (intWrap t (-(laneInt t a))))
  else some (roundTo t (laneNum t a).neg)
def vNot (t a : Nat) : Nat := 2 ^ fmtBits t - 1 - a % 2 ^ fmtBits t
/-- Shifts by the low 8 bits of the second source (05 R111). -/
def vShl (t a b : Nat) : Nat := if b % 256 ≥ fmtBits t then 0 else (a <<< (b % 256)) % 2 ^ fmtBits t
def vShr (t a b : Nat) : Nat := if b % 256 ≥ fmtBits t then 0 else (a % 2 ^ fmtBits t) >>> (b % 256)
def vShra (t a b : Nat) : Nat := intWrap t (laneInt t a / 2 ^ min (b % 256) (fmtBits t - 1))
def vFma (t a b c : Nat) : Nat := roundTo t (((laneNum t a).mul (laneNum t b)).add (laneNum t c))
/-- A function of R113: the FP32 result, rounded by RNE for BF16. -/
def vFun (t : Nat) (f : Num → Num) (a : Nat) : Nat := roundTo t (f (laneNum t a))

/-- A relation of VCMP (05 R112, 08 Table 8-15). -/
def vCmp (t fn a b : Nat) : Bool :=
  if isIntLane t then
    let x := laneInt t a
    let y := laneInt t b
    match fn with
    | 0 => x = y | 1 => !decide (x = y) | 2 => x < y | 3 => x ≤ y | 4 => y < x | 5 => y ≤ x | 6 => false | _ => true
  else
    let x := laneNum t a
    let y := laneNum t b
    let un := x.isNan || y.isNan
    match fn with
    | 0 => x.eq y | 1 => !(x.eq y) | 2 => x.lt false y | 3 => x.lt false y || x.eq y | 4 => y.lt false x
    | 5 => y.lt false x || x.eq y | 6 => un | _ => !un

/-! ### Conversions (05 R114, R116, R117) -/

/-- A number to a plain integer lane: RNE, saturation at the full range (05 R114). -/
def numToInt (t : Nat) (v : Num) : Nat × Cnts :=
  match v with
  | .nan _ => (0, { nonfin := 1 })
  | .inf s => (intWrap t (if s then intLow t else intHigh t), { nonfin := 1 })
  | .fin s m =>
    let q : Int := (rndUnits .rne m : Nat)
    let q := if s then -q else q
    if q < intLow t || intHigh t < q then (intSat t q, { clip := 1 })
    else (intWrap t q, if q = 0 && m ≠ 0 then { flush := 1 } else {})

/-- Does a VCVT produce narrow values (05 R114)? Log entry 33, DEDUCED. -/
def cvtProd (ot dt : Nat) : Bool :=
  dt = 1 || dt = 2 || dt = 6 || dt = 7 || (isIntLane dt && !isIntLane ot)

/-- VCVT: the input divided by the tensor scale, in the destination type. An integer that does not fit a narrower integer
type is open. -/
def vCvt (ot dt : Nat) (r : Rnd) (sat : Bool) (scale : W32) (a : Nat) : Option Nat × Cnts :=
  let v := (laneNum ot a).divPos (fp32 scale).val
  if isFloatLane dt then let z := drainTo dt (if dt = 0 then .rne else r) sat v; (some z.1, z.2)
  else if isIntLane dt then
    let z := numToInt dt v
    if isIntLane ot && z.2.clip ≠ 0 then (none, {}) else (some z.1, z.2)
  else let z := narrowElem dt r v; (some z.1, z.2)

/-- VLXCVT: a word converted under the product of two scales (05 R117). -/
def vLxCvt (dt : Nat) (r : Rnd) (sat : Bool) (tA tB : W32) (a : Nat) : Nat × Cnts :=
  drainTo dt r sat ((wordLedger (BitVec.ofNat 128 a)).value ((fp32 tA).val * (fp32 tB).val))
/-- VLXADD (05 R117). -/
def vLxAdd (a b : Nat) : Nat := ((wordLedger (BitVec.ofNat 128 a)).merge (wordLedger (BitVec.ofNat 128 b))).1.word.toNat
/-- VLXF: one contribution to an empty ledger (05 R117). -/
def vLxF (a : Nat) : Nat := (Ledger.empty.addNum (laneNum 0 a) 24).1.word.toNat

/-- The non-finites that the LX128 commands count lane by lane where they name no slot: those of the merge, of the contribution, a
malformed word (02 R52, R55, R56). Log entry 108, DEDUCED. -/
def lxNonfin (c : Slot) (a b : Nat) : Nat :=
  let u := wordLedger (BitVec.ofNat 128 a)
  match c.opc with
  | 0x59 => b2n (decide (u.spec ≠ 0)) + (u.merge (wordLedger (BitVec.ofNat 128 b))).2
  | 0x5A => b2n (lxMalformed (BitVec.ofNat 128 a))
  | 0x5B => (Ledger.empty.addNum (laneNum 0 a) 24).2
  | _ => 0

/-- The replacement of a non-finite result under NX = 1 (05 Table 5-5); none where the result stands. -/
def nxFix (t code : Nat) : Option Nat :=
  if !isFloatLane t then none else
  match laneNum t code with
  | .nan _ => some 0
  | .inf s => some (encodeFin t s (maxFin t))
  | .fin _ _ => none

/-- One lane's result: its code, what a producing command counts for it. Log entry 31, DESIGN CHOICE. -/
structure Lane where
  code : Option Nat
  cnts : Cnts
deriving DecidableEq, Repr

/-- The result of an elementwise command from its source codes. `sel` is the bit of VSEL's condition, `r` the rounding,
`tA` and `tB` the two scales of VLXCVT. -/
def laneOp (c : Slot) (scale tA tB : W32) (sel : Bool) (r : Rnd) (a b d : Nat) : Lane :=
  let t := vOt c
  let sat := vSat c
  let plain := fun (v : Nat) => Lane.mk (some v) {}
  match c.opc with
  | 0x40 => plain (vAdd sat t a b)
  | 0x41 => plain (vSub sat t a b)
  | 0x42 => plain (vMul sat t a b)
  | 0x43 => plain (vMin t a b)
  | 0x44 => plain (vMax t a b)
  | 0x45 => ⟨vAbs t a, {}⟩
  | 0x46 => ⟨vNeg t a, {}⟩
  | 0x47 => plain (a &&& b)
  | 0x48 => plain (a ||| b)
  | 0x49 => plain (a ^^^ b)
  | 0x4A => plain (vNot t a)
  | 0x4B => plain (vShl t a b)
  | 0x4C => plain (vShr t a b)
  | 0x4D => plain (vShra t a b)
  | 0x4F => plain (if sel then a else b)
  | 0x50 => let z := vCvt t (vFn c) r sat scale a; ⟨z.1, z.2⟩
  | 0x52 => plain (vFma t a b d)
  | 0x53 => plain (vFun t exp2F a)
  | 0x54 => plain (vFun t log2F a)
  | 0x55 => plain (vFun t rcpF a)
  | 0x56 => plain (vFun t rsqF a)
  | 0x59 => plain (vLxAdd a b)
  | 0x5A => let z := vLxCvt (vFn c) r sat tA tB a; ⟨some z.1, z.2⟩
  | 0x5B => plain (vLxF a)
  | _ => plain a

/-- A result after NX, with the counts that remain: a replaced result counts no non-finite, a non-finite input of a
producing command does (05 R124). -/
def nxLane (c : Slot) (prod inBad : Bool) (code : Nat) (k : Cnts) : Nat × Cnts :=
  match (if vNx c then nxFix (dstTy c) code else none) with
  | some v => (v, if prod && inBad then k else { k with nonfin := 0 })
  | none => (code, k)

/-! ### Reductions (05 R130) -/

/-- A source value as FP32 (05 R130). -/
def redF32 (t code : Nat) : Num := r32 (laneNum t code)

/-- The pairwise tree over the lanes of a beat, in ascending order: a node with one child passes it on. -/
def treeStep : List (Nat × Num) → List (Nat × Num)
  | (i, a) :: (j, b) :: r =>
    if i / 2 = j / 2 then (i / 2, addF a b) :: treeStep r else (i / 2, a) :: treeStep ((j, b) :: r)
  | [(i, a)] => [(i / 2, a)]
  | [] => []
def treeSum (l : List (Nat × Num)) : Option Num := (((upto 10).foldl (fun l _ => treeStep l) l).head?).map (·.2)

/-- The extreme of Table 5-7. -/
def redEmpty (t : Nat) (isMax : Bool) : Nat :=
  if isIntLane t then intWrap t (if isMax then intLow t else intHigh t) else encodeInf t isMax

/-- Does REDCNT count an element? -/
def redNonzero (c : Slot) (code : Nat) : Bool :=
  if vFn c = 1 then code = 1
  else if vOt c = 8 then
    let g := wordLedger (BitVec.ofNat 128 code)
    decide (g.spec ≠ 0) || decide (g.w ≠ 0)
  else !(laneNum (vOt c) code).isZero

/-- One active element enters the running reduction of its segment; `i` is its index in the segment. Log entry 41, DEDUCED. An exact sum
counts its non-finites (02 R52, R55, R56). Log entry 108, DEDUCED. -/
def redElem (c : Slot) (g : RedAcc) (i code : Nat) : RedAcc :=
  let t := vOt c
  let g := { g with count := g.count + 1 }
  match c.opc with
  | 0x60 =>
    if vFn c = 2 then g
    else
      let z := if t = 8 then g.led.merge (wordLedger (BitVec.ofNat 128 code)) else g.led.addNum (laneNum t code) (sigWidth t)
      { g with led := z.1, nf := g.nf + z.2 }
  | 0x64 => if redNonzero c code then { g with bestI := g.bestI + 1 } else g
  | o =>
    let v := laneNum t code
    if v.isNan then { g with sawNan := true }
    else match g.best with
      | none => { g with best := some v, bestI := i }
      | some b =>
        if (if o = 0x62 then v.lt true b else b.lt true v) then { g with best := some v, bestI := i } else g

/-- A beat's sum enters the running FP32 sum. -/
def redBeat (g : RedAcc) (l : List (Nat × Num)) : RedAcc :=
  match treeSum l with
  | some v => { g with fsum := if g.out = 0 then v else addF g.fsum v, out := 1 }
  | none => g

/-- The result of a segment (05 Tables 5-6 and 5-7). -/
def redResult (c : Slot) (g : RedAcc) : Nat :=
  let t := vOt c
  let code := fun (v : Num) => if isIntLane t then intWrap t v.val.floor else roundTo t v
  match c.opc with
  | 0x60 =>
    if vFn c = 0 then g.led.word.toNat
    else if vFn c = 1 then roundTo 0 (g.led.value 1)
    else roundTo 0 g.fsum
  | 0x61 => match g.best with | some v => code v | none => if g.sawNan then encodeNan t false else redEmpty t true
  | 0x62 => match g.best with | some v => code v | none => if g.sawNan then encodeNan t false else redEmpty t false
  | 0x63 => match g.best with | some _ => g.bestI | none => 0xFFFFFFFF
  | _ => g.bestI

/-- INX of an exact sum. -/
def redInx (c : Slot) (g : RedAcc) : Bool := decide (c.opc = 0x60) && decide (vFn c ≤ 1) && g.led.inx

end Sys2Proof.Machine
end

