-- ==== Sys2Proof/Machine/Orrery.lean ====
section
/-!
DEFINITION. The orrery's schedules (12 R318 to R322, 08 R236) and the key registers (12 R323 to R326, 08 R237).
-/

namespace Sys2Proof.Machine

/-! ### Records (12 Table 12-4) -/

def Sched.byte (x : Sched) (i : Nat) : Nat := (byteAt x.record i).toNat
def Sched.int (x : Sched) (i : Nat) : Nat := rdLe x.record i 4
def Sched.fp (x : Sched) (i : Nat) : Num := fp32 (BitVec.ofNat 32 (x.int i))

/-- Is an FP32 value in [0, 1)? -/
def unitHalf (v : Num) : Bool := match v with | .fin s m => (!s || m = 0) && decide (m < 1) | _ => false

/-- The conditions under which a LOAD halts (12 R318). -/
def Sched.refused (x : Sched) : Bool :=
  let wk := x.byte 0
  let dk := x.byte 1
  let gamma := match x.fp 28 with | .fin s m => !s && decide (0 < m) && decide (m ≤ 1) | _ => false
  decide (x.byte 3 ≠ 0) || ((x.record.drop 44).any fun b => b ≠ 0) || decide (wk > 2) || decide (dk > 4) ||
  decide (x.byte 2 = 0) || decide (x.byte 2 > 8) || (decide (x.int 12 = 0) && decide (dk ≠ 0)) ||
  (decide (x.int 8 = 0) && decide (wk ≠ 0)) || ([20, 24, 28, 32, 36, 40].any fun i => !(x.fp i).isFin) ||
  !unitHalf (x.fp 36) || !unitHalf (x.fp 40) || !unitHalf (x.fp 20) || !unitHalf (x.fp 24) || !gamma

/-! ### The formulas (12 R319 to R321); each line is exact and rounds once -/

def one : Num := .fin false 1
/-- float(n). -/
def floatN (n : Nat) : Num := r32 (Num.ofRat n)
def fp (bits : Nat) : Num := fp32 (BitVec.ofNat 32 bits)
/-- The FP32 value nearest to a decimal. -/
def fpNear (n : Int) (d : Nat) : Num := r32 (Num.ofRat (mkRat n d))

/-- hc (12 R320). -/
def hc (x : Num) : Num :=
  match x with
  | .nan _ => .nan false
  | _ =>
    if !(one.lt false x) && !(one.eq x) && (Num.fin false 0).lt false x then
      let z := addF x (fpNear (-1) 2)
      let s := mulF z z
      let p := [fpNear (-737043094) 100000000000, fpNear 821458866 10000000000, fpNear (-599264529) 1000000000,
        fpNear 255016404 100000000, fpNear (-516771278) 100000000, fpNear 314159265 100000000].foldl (fun p c => fmaF p s c)
        (fpNear 466302805 1000000000000)
      r32 (((fpNear (-1) 2).mul (p.mul z)).add (fpNear 1 2))
    else if (Num.fin false 0).lt false x then .fin false 0
    else one

/-- pow (12 R320): from the most significant set bit down. -/
def powF (b : Num) (n : Nat) : Num :=
  if n = 0 then one
  else (upto (Nat.log2 n + 1)).foldl (fun r i =>
    let r := mulF r r
    if (n >>> (Nat.log2 n - i)) % 2 = 1 then mulF r b else r) one

/-- The restart cycle of R319: the rest p, the period L, the restarts k. A multiplier of 1 divides. Log entry 80, DEDUCED. -/
def restart (pm : Nat) : Nat → Nat → Nat → Nat → Nat × Nat × Nat
  | 0, p, l, k => (p, l, k)
  | f + 1, p, l, k => if p < l then (p, l, k) else restart pm f (p - l) (min (l * pm) (2 ^ 32 - 1)) (k + 1)

def cycle (pm p l : Nat) : Nat × Nat × Nat := if pm ≤ 1 then (p % l, l, p / l) else restart pm 40 p l 0

/-- MULT (12 R319). -/
def Sched.mult (x : Sched) (t : Nat) : Num :=
  let wk := x.byte 0
  let wsteps := x.int 8
  if wk ≠ 0 && t < wsteps then
    let y := mulF (floatN t) (rcpF (floatN wsteps))
    let h := if wk = 1 then y else subF one (hc y)
    r32 (((one.add (x.fp 20).neg).mul h).add (x.fp 20))
  else
    let p := t - (if wk ≠ 0 then wsteps else 0)
    let (p, h, a) := if x.int 16 ≠ 0 then (let z := cycle (x.byte 2) p (x.int 16); (z.1, z.2.1, powF (x.fp 32) z.2.2))
      else (p, x.int 12, one)
    let floor := x.fp 24
    let y := numMin one (mulF (floatN p) (rcpF (floatN h)))
    let d := match x.byte 1 with
      | 0 => one
      | 1 => r32 (((one.add floor.neg).mul (hc y)).add floor)
      | 2 => r32 (((one.add floor.neg).mul (one.add y.neg)).add floor)
      | 3 => numMax floor (rsqF (addF one y))
      | _ => numMax floor (powF (x.fp 28) (p / x.int 12))
    mulF a d

/-- BIAS1, BIAS2 (12 R321); `at'` is where the record holds BETA. -/
def Sched.bias (x : Sched) (at' t : Nat) : Num :=
  let beta := x.fp at'
  if t = 0 || t = 2 ^ 32 - 1 || beta.isZero then one
  else rcpF (subF one (exp2F (mulF (floatN t) (log2F beta))))

def State.sched (s : State) (n : Nat) : Sched := tget Sched.zero s.orr n
def State.setSched (s : State) (n : Nat) (x : Sched) : State := { s with orr := tset Sched.zero s.orr n x }

/-! ### ORB (08 R236) -/

def orbSub (c : Slot) : Nat := c.f 47 45
def orbSch (c : Slot) : Nat := c.f 44 43
def orbAddr (t : Stream) (c : Slot) : Int := ((t.rdA (c.f 39 36)).toNat : Int) + sfld c.base 35 12

/-- The record that a LOAD finds; none where an ECC word of it is uncorrectable. -/
def State.orbRecord (s : State) (st : Sid) (c : Slot) : Option Sched :=
  let a := (orbAddr (s.str st) c).toNat
  if (s.badView (some st) a 64).isSome then none
  else let b := s.peek (some st) a 64; some ⟨b, true, BitVec.ofNat 32 (rdLe b 4 4)⟩

/-- Checks of ORB (08 R236): a field that a form does not use is 0. Log entry 154, DESIGN CHOICE. -/
def chkOrb (s : State) (st : Sid) (c : Slot) (lw : LwInfo) : List Chk :=
  let sub := orbSub c
  let a := orbAddr (s.str st) c
  encChks c 0 (if sub = 0 then [(42, 40), (11, 0)] else if sub = 1 then [(42, 0)] else [(39, 0)]) ++
  [chk 1 (decide (sub = 7)) 3] ++
  (if sub = 0 then
    [chk 3 (outside a (a + 63)) 3,
     chk 3 (!outside a (a + 63) && decide (a % 64 = 0) && !s.readWaits st lw a.toNat 64 && match s.orbRecord st c with | some x => x.refused | none => false) 3,
     chk 4 (decide (a % 64 ≠ 0)) 4]
   else [chk 6 (!(s.sched (orbSch c)).loaded) 3])

/-- A LOAD latches its record at issue, where its checks judge it; a record that is uncorrectable then is never loaded (R318). Log entry
79, DEDUCED. -/
def runOrb (s : State) (st : Sid) (c : Slot) (lw : LwInfo) : Res :=
  let t := s.str st
  let n := orbSch c
  let x := s.sched n
  let nd := c.f 42 40
  match orbSub c with
  | 0 =>
    let a := (orbAddr t c).toNat
    let addrs := (upto 64).map (a + ·)
    if s.memAhead st lw.scal lw.ve addrs then .stall quietStall 0
    else match s.badView (some st) a 64, s.orbRecord st c with
      | none, some x => .ok (s.pushAcc st c true 4 n addrs x.record) []
      | w, _ => .ok (s.pushAcc st c true 4 n ((upto 8).map (w.getD a + ·)) []) []
  | 1 =>
    if x.ctr = 0xFFFFFFFF then .ok s []
    else
      let s := s.setSched n { x with ctr := x.ctr + 1 }
      .ok (if x.ctr + 1 = 0xFFFFFFFF then s.raise evStepSat else s) []
  | 2 => .ok s [⟨0, nd, (bits32 (x.mult x.ctr.toNat)).toNat⟩]
  | 3 => .ok s [⟨0, nd, (bits32 (x.bias 36 x.ctr.toNat)).toNat⟩]
  | 4 => .ok s [⟨0, nd, (bits32 (x.bias 40 x.ctr.toNat)).toNat⟩]
  | 5 => .ok (s.setReg st 0 nd x.ctr.toNat) []
  | _ => .ok (s.setSched n { x with ctr := t.rdN nd }) []

def orbSem : CmdSem :=
  ⟨fun c => (4, orbSch c) :: (if orbSub c = 0 then [(1, c.f 39 36)] else if orbSub c = 1 then [] else [(0, c.f 42 40)]),
   fun c => if 2 ≤ orbSub c && orbSub c ≤ 5 then [(0, c.f 42 40)] else [], notW, chkOrb, runOrb⟩

/-- ORB LOAD as a command of its own (12 R318). -/
def execOrbLoad (st : Sid) (c : Slot) (s : State) : Host.Outcome State Fault Refusal := issueRow orbSem st (asSub 0x69 47 45 0 c) s
/-- ORB STEP as a command of its own (12 R322). -/
def execOrbStep (st : Sid) (c : Slot) (s : State) : Host.Outcome State Fault Refusal := issueRow orbSem st (asSub 0x69 47 45 1 c) s
/-- ORB MULT as a command of its own (12 R319). -/
def execOrbMult (st : Sid) (c : Slot) (s : State) : Host.Outcome State Fault Refusal := issueRow orbSem st (asSub 0x69 47 45 2 c) s
/-- ORB BIAS1 as a command of its own (12 R321). -/
def execOrbBias1 (st : Sid) (c : Slot) (s : State) : Host.Outcome State Fault Refusal := issueRow orbSem st (asSub 0x69 47 45 3 c) s
/-- ORB BIAS2 as a command of its own (12 R321). -/
def execOrbBias2 (st : Sid) (c : Slot) (s : State) : Host.Outcome State Fault Refusal := issueRow orbSem st (asSub 0x69 47 45 4 c) s
/-- ORB RDSTEP as a command of its own (08 R236). -/
def execOrbRdstep (st : Sid) (c : Slot) (s : State) : Host.Outcome State Fault Refusal := issueRow orbSem st (asSub 0x69 47 45 5 c) s
/-- ORB SETSTEP as a command of its own (08 R236). -/
def execOrbSetstep (st : Sid) (c : Slot) (s : State) : Host.Outcome State Fault Refusal := issueRow orbSem st (asSub 0x69 47 45 6 c) s

/-! ### RNGK (08 R237) -/

def rngSub (c : Slot) : Nat := c.f 47 46
def rngKey (c : Slot) : Nat := c.f 45 44
def rngDst (c : Slot) : Nat := c.f 43 38
def rngSrc (c : Slot) : Nat := c.f 37 32

/-- Checks of RNGK (08 R237): a field that a form does not use is 0. Log entry 154, DESIGN CHOICE. -/
def chkRng (s : State) (st : Sid) (c : Slot) : List Chk :=
  let r := (s.str st).regs
  let d := rngDst c
  let q := rngSrc c
  match rngSub c with
  | 0 =>
    let f := selForm r c q 0
    encChks c (selWords q) [(43, 38), (31, 0)] ++ [chk 1 (!isForm q) 3] ++ formChks s f anyForm 1 false ++
    [chk 5 (decide (f.count * fmtBytes f.ty ≠ 16)) 6]
  | 1 =>
    encChks c (selWords d + selWords q) [(31, 0)] ++ [chk 1 (!isForm d) 3, chk 1 (!scalSel q) 3] ++
    formChks s (selForm r c d 0) [3, 4, 5] s.vec.vlen.toNat true ++ [chk 6 ((s.physOf 2 255).isNone) 3]
  | 2 => encChks c 0 [(43, 38), (31, 0)] ++ [chk 1 (!isN q && decide (q ≠ 0)) 3]
  | _ => encChks c 0 [] ++ [chk 1 true 3]

/-- Log entry 81, DEDUCED. -/
def runRng (s : State) (st : Sid) (c : Slot) (_lw : LwInfo) : Res :=
  let t := s.str st
  let n := rngKey c
  let k := s.key n
  let setKey := fun (s : State) (k : Key) => { s with keys := tset Key.zero s.keys n k }
  match rngSub c with
  | 0 =>
    let f := selForm t.regs c (rngSrc c) 0
    .ok (s.pushAcc st c true 3 n ((upto f.count).flatMap fun e => (upto (fmtBytes f.ty)).map fun b => f.addrN e + b) []) []
  | 1 =>
    if s.veFull then .stall 5 11
    else
      let m : VeMem := { c := c, a := t.a, n := t.n, scale := 0, trk := none, lw := s.here st, lwSlot := c.kind, acc := VeAcc.zero }
      let s := { s with vec := { s.vec with
        serial := s.vec.serial + 1
        ve := s.vec.ve ++ [{ mems := [m], vlen := s.vec.vlen.toNat, beat := 0, key := k, cs := (s.csu st).tagNow, pend := []
                             wr := memWrites m s.vec.vlen.toNat, serial := s.vec.serial + 1 }] } }
      .ok (if k.seq then setKey s { k with ctr := k.ctr + BitVec.ofNat 32 s.vec.vlen.toNat } else s) []
  | _ =>
    if rngSrc c = 0 then .ok (setKey s { k with seq := false }) []
    else .ok (setKey s { k with seq := true, ctr := t.rdN (rngSrc c - 8) }) []

def rngSem : CmdSem :=
  ⟨fun c => (3, rngKey c) :: (match rngSub c with
      | 0 => formRegs c (rngSrc c) 0
      | 1 => formRegs c (rngDst c) 0 ++ formRegs c (rngSrc c) (selWords (rngDst c))
      | _ => formRegs c (rngSrc c) 0), noRegs, notW,
   fun s st c _ => chkRng s st c, runRng⟩

/-- RNGK KEY as a command of its own (12 R323). -/
def execRngkKey (st : Sid) (c : Slot) (s : State) : Host.Outcome State Fault Refusal := issueRow rngSem st (asSub 0x6A 47 46 0 c) s
/-- RNGK GEN as a command of its own (12 R325). -/
def execRngkGen (st : Sid) (c : Slot) (s : State) : Host.Outcome State Fault Refusal := issueRow rngSem st (asSub 0x6A 47 46 1 c) s
/-- RNGK SEQ as a command of its own (12 R326). -/
def execRngkSeq (st : Sid) (c : Slot) (s : State) : Host.Outcome State Fault Refusal := issueRow rngSem st (asSub 0x6A 47 46 2 c) s

end Sys2Proof.Machine
end

