-- ==== Sys2Proof/Machine/Updf.lean ====
section
/-!
DEFINITION. UPDF (12 R314 to R317, 08 R235): its descriptor, its checks, its issue, and the update of one block.
-/

namespace Sys2Proof.Machine

/-! ### The descriptor (08 Table 8-23) -/

structure Upd where
  d : List Byte
deriving DecidableEq, Repr

def Upd.b (u : Upd) (i : Nat) : Nat := (byteAt u.d i).toNat
def Upd.rows (u : Upd) : Nat := rdLe u.d 0 2
def Upd.cols (u : Upd) : Nat := rdLe u.d 2 2
def Upd.gfmt (u : Upd) : Nat := u.b 4
def Upd.mom (u : Upd) : Bool := u.b 5 % 2 = 1
def Upd.decay (u : Upd) : Bool := u.b 5 / 2 % 2 = 1
def Upd.clip (u : Upd) : Bool := u.b 5 / 4 % 2 = 1
/-- An address field. -/
def Upd.at (u : Upd) (i : Nat) : Nat := rdLe u.d i 3
/-- A stride field, two's complement as the strides of 07 R178. -/
def Upd.str (u : Upd) (i : Nat) : Int := sgn 32 (rdLe u.d i 4)
def Upd.fp (u : Upd) (i : Nat) : Num := fp32 (BitVec.ofNat 32 (rdLe u.d i 4))
def Upd.nbc (u : Upd) : Nat := u.cols / 32
def Upd.nBlocks (u : Upd) : Nat := u.rows / 32 * u.nbc

/-- The SQ32 planes of the momentum and of the working copy as descriptors. -/
def Upd.sqPlane (u : Upd) (e st sd fmt : Nat) : Bsd :=
  ⟨u.at e, u.at sd, fmt, true, u.rows, u.cols, u.str st, 0, 0, true⟩
def Upd.momBsd (u : Upd) : Bsd := u.sqPlane 24 28 32 6
def Upd.workBsd (u : Upd) : Bsd := u.sqPlane 44 48 52 0x0A

/-- Extent of a plane of rows. -/
def rowExt (base : Nat) (str : Int) (rows len : Nat) : Int × Int :=
  let span := ((rows : Int) - 1) * str
  (base + min 0 span, base + max 0 span + len - 1)

/-- Every plane with its extent. -/
def Upd.extents (u : Upd) : List (Int × Int) :=
  [rowExt (u.at 8) (u.str 12) u.rows (4 * u.cols), rowExt (u.at 16) (u.str 20) u.rows (fmtBytes u.gfmt * u.cols),
   (u.at 36, u.at 36 + 128 * u.nBlocks - 1), (u.at 40, u.at 40 + 128 * u.nBlocks - 1), u.workBsd.elemExt, u.workBsd.sideExt] ++
  (if u.mom then [u.momBsd.elemExt, u.momBsd.sideExt] else [])

/-- The planes that UPDF writes. -/
def Upd.dsts (u : Upd) : List (Int × Int) := u.extents.take 1 ++ u.extents.drop 2

/-- Fields that hold an address, with [31:24] zero; planes and strides that are multiples of 64 B. -/
def Upd.addrs (u : Upd) : List Nat := [8, 16, 36, 40, 44, 52] ++ (if u.mom then [24, 32] else [])
def Upd.strides (u : Upd) : List Nat := [12, 20, 48] ++ (if u.mom then [28] else [])

/-! ### Checks and issue (08 R235) -/

def updAddr (t : Stream) (c : Slot) : Int := ((t.rdA (c.f 47 44)).toNat : Int) + sfld c.base 43 20
def updSch (c : Slot) : Nat := c.f 19 18

/-- The checks of UPDF: its schedule need not be loaded. Log entries 78, DEDUCED, and 79, DEDUCED. -/
def chkUpdf (s : State) (st : Sid) (c : Slot) (lw : LwInfo) : List Chk :=
  let a := updAddr (s.str st) c
  let u : Upd := ⟨s.peek (some st) a.toNat 128⟩
  let okDim := fun (n : Nat) => n % 32 = 0 && 32 ≤ n && n ≤ 4096
  encChks c 0 [(9, 0)] ++ [slotRange (c.f 17 11), chk 3 (outside a (a + 127)) 3, chk 4 (decide (a % 128 ≠ 0)) 4] ++
  (if outside a (a + 127) || a % 128 ≠ 0 || s.readWaits st lw a.toNat 128 || (s.badView (some st) a.toNat 128).isSome then [] else
    [chk 2 (decide (u.gfmt ≠ 0) && decide (u.gfmt ≠ 1) && decide (u.gfmt ≠ 8)) 5,
     chk 3 (decide (u.b 5 ≥ 8) || decide (u.b 6 ≠ 0) || decide (u.b 7 ≠ 0) || (u.d.drop 84).any (fun b => b ≠ 0) ||
       [8, 16, 24, 32, 36, 40, 44, 52].any fun i => u.b (i + 3) ≠ 0) 3,
     chk 3 (u.extents.any fun e => outside e.1 e.2) 3,
     chk 3 (u.dsts.any fun e => s.inShadow e.1 e.2) 3,
     chk 4 ((u.addrs.any fun i => u.at i % 64 ≠ 0) || u.strides.any fun i => u.str i % 64 ≠ 0) 4,
     chk 5 (!okDim u.rows || !okDim u.cols) 6]) ++
  [chk 6 ((s.physOf 2 255).isNone) 3]

/-- UPDF latches its descriptor, and lr, b1 and b2 behind it (12 R314, R331). -/
def runUpdf (s : State) (st : Sid) (c : Slot) (lw : LwInfo) : Res :=
  let t := s.str st
  let a := (updAddr t c).toNat
  if s.veFull then .stall 5 11
  else if s.readWaits st lw a 128 then .stall quietStall 0
  else match s.badView (some st) a 128 with
  | some w => .ok (((s.noteUncorr (some (st, c.tag)) w).abortIf st (s.csu st).tagNow 3 1).noteHalt st 0x0B w c.tag c.kind) []
  | none =>
    let x := s.sched (updSch c)
    let u : Upd := ⟨s.peek (some st) a 128⟩
    let tk := x.ctr.toNat
    let words := (upto 16).map fun i => BitVec.ofNat 64 (rdLe u.d (8 * i) 8)
    let coef := [mulF (u.fp 80) (x.mult tk), x.bias 36 tk, x.bias 40 tk].map fun v => (bits32 v).setWidth 64
    let s := s.touchView (some st) a 128
    let (s, trk) := s.bindCheck (c.f 17 11)
    let m : VeMem := { c := { c with ext := words ++ coef }, a := t.a, n := t.n, scale := 0, trk := trk, lw := s.here st
                       lwSlot := c.kind, acc := VeAcc.zero }
    .ok { s with vec := { s.vec with
      serial := s.vec.serial + 1
      ve := s.vec.ve ++ [{ mems := [m], vlen := s.vec.vlen.toNat, beat := 0, key := s.key 0, cs := (s.csu st).tagNow, pend := []
                           wr := u.extents, serial := s.vec.serial + 1 }] } } []

def updfSem : CmdSem :=
  ⟨fun c => [(1, c.f 47 44), (4, updSch c)] ++ (if bit c.base 10 then [(3, 0)] else []), noRegs, notW, chkUpdf, runUpdf⟩
/-- UPDF as a command of its own (12 R314). -/
def execUpdf (st : Sid) (c : Slot) (s : State) : Host.Outcome State Fault Refusal := issueRow updfSem st (asOpc 0x68 c) s

/-- The latched descriptor and coefficients of an UPDF. -/
def updOf (m : VeMem) : Upd := ⟨(upto 16).flatMap fun i => leBytes 8 (m.c.x i).toNat⟩
def updCoef (m : VeMem) (i : Nat) : Num := fp32 ((m.c.x (16 + i)).setWidth 32)

/-! ### One block (12 R314, R315) -/

/-- The fixed tree over values in ascending order. -/
def tree (l : List Num) : Num := (treeSum (l.zipIdx.map fun p => (p.2, p.1))).getD (.fin false 0)

def mat (f : Nat → Nat → Num) : List (List Num) := (upto 32).map fun i => (upto 32).map fun j => f i j
def matAt (x : List (List Num)) (i j : Nat) : Num := (x.getD i []).getD j (.fin false 0)
def listAt (x : List Num) (i : Nat) : Num := x.getD i (.fin false 0)
def column (x : List (List Num)) (j : Nat) : List Num := (upto 32).map fun i => matAt x i j

/-- What a block reads. -/
structure BlkIn where
  g : List (List Num)
  w : List (List Num)
  m : List (List Num)
  r : List Num
  c : List Num
deriving DecidableEq, Repr

/-- What a block writes, and its non-finite elements. -/
structure BlkOut where
  w : List (List Num)
  m : List (List Num)
  r : List Num
  c : List Num
  bad : Nat
deriving DecidableEq, Repr

/-- The sequence of R314 for one block. Each assignment is exact and rounds once; functions take FP32 operands. Log entry 78, DEDUCED. -/
def updBlock (u : Upd) (lr b1 b2 : Num) (x : BlkIn) : BlkOut :=
  let beta1 := u.fp 60
  let beta2 := u.fp 64
  let eps := u.fp 68
  let o1 := subF one beta1
  let o2 := subF one beta2
  let p5 := fpNear 1 32
  let q := mat fun i j => fmaF (matAt x.g i j) (matAt x.g i j) eps
  let r := (upto 32).map fun i => mulF (tree (q.getD i [])) p5
  let c := (upto 32).map fun j => mulF (tree (column q j)) p5
  let stat := fun (old new : Num) => r32 ((beta2.mul old).add (o2.mul new))
  let rr := (upto 32).map fun i => stat (listAt x.r i) (listAt r i)
  let cc := (upto 32).map fun j => stat (listAt x.c j) (listAt c j)
  let rb := rcpF (mulF (tree rr) p5)
  let v := mat fun i j => r32 ((((listAt rr i).mul (listAt cc j)).mul rb).mul b2)
  let zero := fun (n : Num) => n = Num.fin false 0
  let u0 := mat fun i j => if zero (matAt v i j) then .fin false 0 else mulF (matAt x.g i j) (rsqF (matAt v i j))
  let u1 := if !u.clip then u0 else
    let z := mulF (tree ((upto 32).map fun i => tree ((upto 32).map fun j => mulF (matAt u0 i j) (matAt u0 i j)))) (fpNear 1 1024)
    let f := if zero z then one else numMin one (mulF (u.fp 76) (rsqF z))
    mat fun i j => mulF (matAt u0 i j) f
  let m := if u.mom then mat fun i j => r32 ((beta1.mul (matAt x.m i j)).add (o1.mul (matAt u1 i j))) else x.m
  let u2 := if u.mom then mat fun i j => mulF (matAt m i j) b1 else u1
  let u3 := if u.decay then mat fun i j => fmaF (u.fp 72) (matAt x.w i j) (matAt u2 i j) else u2
  let w := mat fun i j => fmaF lr.neg (matAt u3 i j) (matAt x.w i j)
  let bad := ((upto 32).flatMap fun i => (upto 32).filter fun j =>
    [x.g, v, u3, w].any fun l => !(matAt l i j).isFin).length
  ⟨w, m, rr, cc, bad⟩

/-! ### Its planes -/

/-- Row `i` of block row `bi` of a plane of rows. -/
def planeRow (base : Nat) (str : Int) (bi i : Nat) : Nat := ((base : Int) + (32 * bi + i : Nat) * str).toNat

/-- Byte ranges that a block reads. -/
def Upd.reads (u : Upd) (bi bj : Nat) : List (Nat × Nat) :=
  let z := fmtBytes u.gfmt
  let k := bi * u.nbc + bj
  ((upto 32).flatMap fun i => [(planeRow (u.at 8) (u.str 12) bi i + 128 * bj, 128), (planeRow (u.at 16) (u.str 20) bi i + 32 * z * bj, 32 * z)]) ++
  [(u.at 36 + 128 * k, 128), (u.at 40 + 128 * k, 128)] ++
  (if u.mom then (upto 32).flatMap fun i =>
    [((u.momBsd.elemAddr (32 * bi + i) bj).toNat, 32), ((u.momBsd.sideAddr (32 * bi + i) bj).toNat, 1)] else [])

/-- A gradient value as FP32 (12 R315). -/
def gradNum (fmt code : Nat) : Num :=
  if fmt = 8 then r32 ((wordLedger (BitVec.ofNat 128 code)).value 1) else decodeElem fmt code

def State.updIn (s : State) (u : Upd) (bi bj : Nat) : BlkIn :=
  let rd := fun (a z : Nat) => s.peekLe (some .x) a z
  let f := fun (a : Nat) => fp32 (BitVec.ofNat 32 (rd a 4))
  let z := fmtBytes u.gfmt
  let k := bi * u.nbc + bj
  { g := mat fun i j => gradNum u.gfmt (rd (planeRow (u.at 16) (u.str 20) bi i + z * (32 * bj + j)) z)
    w := mat fun i j => f (planeRow (u.at 8) (u.str 12) bi i + 4 * (32 * bj + j))
    m := if u.mom then
        (upto 32).map fun i =>
          let row := (s.readBlk u.momBsd (32 * bi + i) bj).1
          (upto 32).map fun j => r32 (rowElem 6 row j).v
      else []
    r := (upto 32).map fun i => f (u.at 36 + 128 * k + 4 * i)
    c := (upto 32).map fun j => f (u.at 40 + 128 * k + 4 * j) }

def numBytes (l : List Num) : List Byte := l.flatMap fun v => leBytes 4 (bits32 v).toNat

/-- The writes of a block (address, bytes) and what quantizing counted. -/
def Upd.writes (u : Upd) (key : Key) (sr : Bool) (bi bj : Nat) (o : BlkOut) : List (Nat × List Byte) × Cnts :=
  let k := bi * u.nbc + bj
  let quant := fun (d : Bsd) (rnd : Nat → Nat → Rnd) (x : List (List Num)) =>
    let q := quantBlock d.fmt false rnd (x.map fun l => l.map some)
    (q.1.zipIdx.flatMap fun (row, i) => blkBytes d (32 * bi + i) bj row, q.2)
  let wk := quant u.workBsd (fun i j => srRnd sr key (rdLe u.d 56 4 + (32 * bi + i) * u.cols + 32 * bj + j)) o.w
  let mo := if u.mom then quant u.momBsd (fun _ _ => .rne) o.m else ([], {})
  (((upto 32).map fun i => (planeRow (u.at 8) (u.str 12) bi i + 128 * bj, numBytes (o.w.getD i []))) ++ mo.1 ++ wk.1 ++
   [(u.at 36 + 128 * k, numBytes o.r), (u.at 40 + 128 * k, numBytes o.c)],
   { (wk.2.add mo.2) with nonfin := o.bad })

end Sys2Proof.Machine
end

