-- ==== Sys2Proof/Machine/Beat.lean ====
section
/-!
DEFINITION. The beats of the VE and the results of the RDU (05 R103, R107, R110, R114 to R116, R118, R120 to R127, R129, R131,
R133): VE_BEAT and RED_RESULT_WRITE.
-/

namespace Sys2Proof.Machine

/-- A beat under way: the state with what it has written, the couplers (number, type, codes), the ECC words read, the
uncorrectable words that stop nothing (05 R123), the lowest uncorrectable word of an active lane with its command, a command
whose form is too short, the members done. -/
structure Beat where
  s : State
  k : List (Nat × Nat × List Nat)
  rd : List Nat
  idle : List Nat
  bad : Option (Nat × Slot)
  short : Option Slot
  mems : List VeMem
  outs : List RedOut
deriving DecidableEq, Repr

/-- What is fixed during a beat: its work, the beat width, its first element, its lanes inside VLEN, whether it is the last. -/
structure BeatCtx where
  w : VeWork
  b : Nat
  e0 : Nat
  n : Nat
  last : Bool
deriving DecidableEq, Repr

def VeWork.slots (w : VeWork) : List Slot := w.mems.map (·.c)
def VeWork.width (w : VeWork) : Nat :=
  match w.mems with
  | [m] =>
    if m.c.opc = 0x6A then 8192 / max 8 (fmtBits (selForm m.regs m.c (m.c.f 43 38) 0).ty) else beatOf w.slots
  | _ => beatOf w.slots

def VeWork.ctx (w : VeWork) : BeatCtx :=
  let b := w.width
  let e0 := w.beat * b
  ⟨w, b, e0, min b (w.vlen - e0), decide (w.vlen ≤ e0 + b)⟩

/-! ### Which lanes are active (05 R121, R122, R127) -/

/-- Log entry 34, DEDUCED. Log entry 104, DEDUCED. -/
def State.maskBit (s : State) (k lane : Nat) : Bool := if k = 0 then true else (tget (0 : BitVec 1024) s.vec.m k).getLsbD lane

/-- Bit `e` of a mask bitmap. -/
def State.bitmapBit (s : State) (f : Form) (e : Nat) : Bool := bit (s.spm.byte (s.viewAddr (some .x) (f.base.toNat + e / 8))) (e % 8)

/-- The entries of a region, the oldest first. -/
def State.regionFtq (s : State) (region : Nat) : List FtqEntry := s.arr.ftq.filter fun e => e.region = region

/-- The entry that holds element `e` of a command's FTQ operand; `hdrs` entries have been freed (05 R127). -/
def State.ftqFor (s : State) (m : VeMem) (region e : Nat) : Option FtqEntry :=
  if e / 1024 < m.acc.hdrs then none else (s.regionFtq region)[e / 1024 - m.acc.hdrs]?

def laneActive (s : State) (x : BeatCtx) (m : VeMem) (lane : Nat) : Bool :=
  let e := x.e0 + lane
  (if m.c.opc = 0x6A then true
   else if vMsk m.c = 8 then s.bitmapBit (compactForm m.regs (m.c.x (wBm m.c))) e else s.maskBit (vMsk m.c) lane) &&
  (ftqsOf m.c).all fun p => !bit p.2 63 || match s.ftqFor m p.1 e with
    | some q => (q.rowv >>> (e % 1024 / 32)) % 2 = 1 && (q.colv >>> (e % 32)) % 2 = 1
    | none => true

/-! ### Sources -/

/-- Row and column of element `e` of a descriptor (02 R37, R40). Log entry 39, DEDUCED. -/
def bsdPos (b : Bsd) (e : Nat) : Nat × Nat :=
  if b.sq then (e / 1024 / b.nb * 32 + e % 1024 / 32, e / 1024 % b.nb * 32 + e % 32) else (e / b.cols, e % b.cols)

/-- The element a lane takes from source i: VEXPD reads densely, a vector by row or column. -/
def srcIndex (x : BeatCtx) (m : VeMem) (i e : Nat) : Nat :=
  let sel := vSrc m.c i
  let shape := rowShape m.regs x.w.vlen x.w.slots m.c
  if sel = 0x18 then e % shape.1 else if sel = 0x19 then e / shape.1 else e

/-- The scratchpad bytes that hold element `e` of source i: (address, length) pairs. A vector's are read once (`Beat.loadVecs`). -/
def srcSpans (m : VeMem) (i e : Nat) : List (Nat × Nat) :=
  let sel := vSrc m.c i
  if isForm sel then
    let f := vForm m.regs m.c i
    [(f.addrN e, fmtBytes f.ty)]
  else if sel = 0x1A then [((vForm m.regs m.c i).base.toNat + e / 8, 1)]
  else if sel = 0x1C then
    let b := bsdAt m.regs m.c (wSrc m.c i)
    let (r, c) := bsdPos b e
    if !isBlockFmt b.fmt then [((b.eb + (r : Nat) * b.estr).toNat + c * fmtBytes b.fmt, fmtBytes b.fmt)]
    else if b.rows ≤ r || b.cols ≤ c then []
    else
      let w := fmtBits b.fmt
      let p := c % 32
      [((b.elemAddr r (c / 32)).toNat + w * p / 8, (w * p + w - 1) / 8 + 1 - w * p / 8), ((b.sideAddr r (c / 32)).toNat, b.ss)] ++
      (if b.sq then [((b.sideAddr (r / 32 * 32) (c / 32)).toNat, b.ss)] else [])
  else []

/-- VDQ: the decoded element times the tensor scale, rounded once (05 R116). -/
def State.vdqElem (s : State) (m : VeMem) (e : Nat) : Nat :=
  let b := bsdAt m.regs m.c (wSrc m.c 0)
  let (r, c) := bsdPos b e
  let v := if !isBlockFmt b.fmt then
      decodeElem b.fmt (s.peekLe (some .x) ((b.eb + (r : Nat) * b.estr).toNat + c * fmtBytes b.fmt) (fmtBytes b.fmt))
    else if b.rows ≤ r || b.cols ≤ c then .fin false 0
    else (rowElem b.fmt (s.readBlk b r (c / 32)).1 (c % 32)).v
  roundTo (vOt m.c) (v.mul (fp32 m.scale))

/-- The code of element `e` of source i. The spec leaves open a scalar of a type without a conversion, a coupler of another width or
outside this beat, an FTQ entry of another type: drawn from what the source holds. Log entry 5, DESIGN CHOICE. -/
def srcCode (s : State) (k : List (Nat × Nat × List Nat)) (x : BeatCtx) (m : VeMem) (i e : Nat) : Nat :=
  let sel := vSrc m.c i
  let t := srcTy m.c i
  if isK sel then
    match k.find? fun p => p.1 = sel with
    | some (_, t', l) =>
      if fmtBits t' = fmtBits t && decide (x.e0 ≤ e) && decide (e < x.e0 + x.n) then l.getD (e - x.e0) 0 else openCode t 0x100 (t :: t' :: e :: l)
    | none => openCode t 0x101 [t]
  else if scalSel sel then
    let v := scalBits m.regs m.c sel (wSrc m.c i)
    (scalarCode t v).getD (openCode t 0x102 [t, v.toNat])
  else if isVecSel sel then ((tget [] m.acc.vecs i).getD e (0, false)).1
  else if isForm sel then s.peekLe (some .x) ((vForm m.regs m.c i).addrN e) (fmtBytes t)
  else if isFtq sel then
    match s.ftqFor m (sel - 0x14) e with
    | some q => let v := q.vals.getD (e % 1024) 0; if outFmt q.fmt = t then v else openCode t 0x103 [t, q.fmt, v]
    | none => openCode t 0x104 [t]
  else if sel = 0x1A then b2n (s.bitmapBit (vForm m.regs m.c i) e)
  else if sel = 0x1C then s.vdqElem m e
  else 0

/-- Is an ECC word uncorrectable as the VE reads it? -/
def State.veBad (s : State) (w : Nat) : Bool := decide (s.spm.eccAt (s.viewAddr (some .x) (8 * w)) = .bad)

/-- Count uncorrectable words that hold no element of an active lane (05 R123). -/
def State.countIdle (s : State) (l : List Nat) : State :=
  l.foldl (fun s w => (s.bankCount (s.viewAddr (some .x) (8 * w) / 8)).noteAddr (8 * w)) s

/-- Reads of a command in a beat: `act` are the words of active lanes, `idle` those of other lanes; `vbad` and `vidle` are
uncorrectable words of its vectors. An uncorrectable word of an active lane fails the beat; one that holds none only counts
(05 R123). -/
def Beat.read (x : Beat) (c : Slot) (act idle : List (Nat × Nat)) (vbad vidle : List Nat) : Beat :=
  let aw := wordsOf act
  let iw := (wordsOf idle).filter fun w => !aw.contains w && x.s.veBad w
  { x with s := x.s.touchWords (some .x) aw, rd := x.rd ++ aw, idle := x.idle ++ iw ++ vidle
           bad := match x.bad with | some b => some b | none => (aw.filter x.s.veBad ++ vbad).min?.map fun w => (8 * w, c) }

/-- Sources a command takes lane by lane. -/
def laneSrcs (c : Slot) : Nat := if c.opc = 0x6A || c.opc = 0x51 then 0 else if c.opc = 0x5A then 1 else nSrc c.opc

/-- Element of each lane in the sources: VEXPD takes them densely over its active lanes. -/
def laneElems (x : BeatCtx) (m : VeMem) (act : List Bool) : List Nat :=
  if m.c.opc = 0x5D then
    (act.foldl (fun (a : Nat × List Nat) b => (a.1 + b2n b, a.2 ++ [a.1])) (m.acc.count, [])).2
  else (upto x.n).map (x.e0 + ·)

/-- Does VEXPD's form end before an active lane's element? -/
def expShort (m : VeMem) (act : List Bool) (es : List Nat) : Bool :=
  decide (m.c.opc = 0x5D) && isForm (vSrc m.c 0) && (act.zip es).any fun p => p.1 && decide ((vForm m.regs m.c 0).count ≤ p.2)

/-- The ECC words of a vector's element. -/
def vecWords (m : VeMem) (i e : Nat) : List Nat :=
  let f := vForm m.regs m.c i
  wordsOf [(f.addrN e, fmtBytes f.ty)]

/-- At its first beat a command reads its row and column vectors, each once (05 R126): the codes, and which are uncorrectable. -/
def Beat.loadVecs (b : Beat) (x : BeatCtx) (m : VeMem) : Beat × VeMem :=
  if x.e0 ≠ 0 || x.n = 0 then (b, m) else
  ((upto (laneSrcs m.c)).filter fun i => isVecSel (vSrc m.c i)).foldl (fun (q : Beat × VeMem) i =>
    let f := vForm m.regs m.c i
    let l := (upto f.s0).map fun e =>
      (q.1.s.peekLe (some .x) (f.addrN e) (fmtBytes f.ty), (vecWords m i e).any q.1.s.veBad)
    let ws := ((upto f.s0).flatMap (vecWords m i)).eraseDups
    ({ q.1 with s := q.1.s.touchWords (some .x) ws, rd := q.1.rd ++ ws },
     { q.2 with acc := { q.2.acc with vecs := tset [] q.2.acc.vecs i l } })) (b, m)

/-- Elements of source i that lie in tail lanes: inside the operand, behind VLEN, in the last beat. -/
def tailElems (x : BeatCtx) (m : VeMem) (i : Nat) : List Nat :=
  let sel := vSrc m.c i
  let room := if isForm sel then (vForm m.regs m.c i).count else if sel = 0x1A then (vForm m.regs m.c i).s0
    else if sel = 0x1C then bsdRoom (bsdAt m.regs m.c (wSrc m.c i)) else 0
  ((upto (x.b - x.n)).map (x.e0 + x.n + ·)).filter fun e => decide (e < room)

/-- Take the sources of a command: the codes by source and lane, 0 in inactive lanes. -/
def Beat.sources (b : Beat) (x : BeatCtx) (m : VeMem) (act : List Bool) (es : List Nat) : Beat × List (List Nat) :=
  let ns := laneSrcs m.c
  let lanes := act.zip es
  let spans := fun (on : Bool) => (upto ns).flatMap fun i =>
    (lanes.filter fun p => p.1 = on).flatMap fun p => srcSpans m i (srcIndex x m i p.2)
  let tail := if x.last && m.c.opc ≠ 0x5D then (upto ns).flatMap fun i => (tailElems x m i).flatMap fun e => srcSpans m i e else []
  let vecs := (upto ns).filter fun i => isVecSel (vSrc m.c i)
  let flag := fun (i e : Nat) => ((tget [] m.acc.vecs i).getD e (0, false)).2
  let vbad := vecs.flatMap fun i => (lanes.filter fun p => p.1 && flag i (srcIndex x m i p.2)).flatMap fun p => vecWords m i (srcIndex x m i p.2)
  let vidle := if x.last then (vecs.flatMap fun i => ((upto (vForm m.regs m.c i).s0).filter (flag i)).flatMap (vecWords m i)).eraseDups else []
  let bm := if m.c.opc ≠ 0x6A && vMsk m.c = 8 then
      [((compactForm m.regs (m.c.x (wBm m.c))).base.toNat + x.e0 / 8, (x.n + 7) / 8)] else []
  let map := if m.c.opc = 0x51 && vSrc m.c 0 = 0x1A then [((vForm m.regs m.c 0).base.toNat, (x.n + 7) / 8)] else []
  let b := b.read m.c (spans true ++ bm ++ map) (if m.c.opc = 0x5D then [] else spans false ++ tail)
    vbad (if vbad.isEmpty then vidle else [])
  (b, (upto ns).map fun i => lanes.map fun p => if p.1 then srcCode b.s b.k x m i (srcIndex x m i p.2) else 0)

/-! ### Destinations -/

/-- Write codes by lane to a coupler or a form (05 R122); MZ says nothing of the elements that VCPRS does not write (R125). A merged
lane of a coupler keeps its code, of whatever type: log entry 152, DESIGN CHOICE. -/
def Beat.put (b : Beat) (x : BeatCtx) (m : VeMem) (t : Nat) (act : List Bool) (codes : List Nat) : Beat :=
  let zero := m.c.opc ≠ 0x6A && m.c.opc ≠ 0x5C && vZero m.c
  let sel := if m.c.opc = 0x6A then m.c.f 43 38 else vDst m.c
  if isK sel then
    let old := match b.k.find? fun p => p.1 = sel with | some (_, _, l) => l | none => []
    let new := (act.zip codes).zipIdx.map fun ((on, v), i) => if on then v else if zero then 0 else old.getD i 0
    { b with k := (sel, t, new) :: b.k.filter fun p => p.1 ≠ sel }
  else
    let f := selForm m.regs m.c sel 0
    let z := fmtBytes t
    let l := ((act.zip codes).zipIdx.filter fun p => p.1.1 || zero).flatMap fun ((on, v), i) =>
      (leBytes z (if on then v else 0)).zipIdx.map fun (y, j) => (f.addrN (x.e0 + i) + j, y)
    { b with s := b.s.writePairs (some .x) x.w.cs l }

/-- Write bits by lane to a mask register or a mask bitmap (05 R121, R122). -/
def Beat.putBits (b : Beat) (x : BeatCtx) (m : VeMem) (act bits : List Bool) : Beat :=
  let new := ((act.zip bits).zipIdx.filter fun p => p.1.1 || vZero m.c).map fun ((on, v), i) => (i, on && v)
  if vDst m.c = 0x1A then
    let base := (vDstForm m.regs m.c).base.toNat
    let bytes := ((new.map fun p => (x.e0 + p.1) / 8).eraseDups).map fun k =>
      (base + k, new.foldl (fun (y : Byte) p =>
        if (x.e0 + p.1) / 8 = k then
          (if p.2 then y ||| (1#8 <<< ((x.e0 + p.1) % 8)) else y &&& ~~~(1#8 <<< ((x.e0 + p.1) % 8)))
        else y) (b.s.spm.byte (b.s.viewAddr (some .x) (base + k))))
    { b with s := b.s.writePairs (some .x) x.w.cs bytes }
  else
    let k := vDst m.c - 0x20
    let v := new.foldl (fun (y : BitVec 1024) p =>
      if p.2 then y ||| (1#1024 <<< p.1) else y &&& ~~~(1#1024 <<< p.1)) (tget 0 b.s.vec.m k)
    { b with s := { b.s with vec := { b.s.vec with m := tset 0 b.s.vec.m k v } } }

/-! ### Observations (04 R85) -/

def isProd (c : Slot) : Bool := c.opc = 0x57 || (c.opc = 0x50 && cvtProd (vOt c) (dstTy c))
/-- Does a command merge observations when it completes? Commands that write masks have no result values. -/
def observes (c : Slot) : Bool :=
  !isRed c && c.opc ≠ 0x6A && c.opc ≠ 0x4E && c.opc ≠ 0x51 && (isProd c || vTrk c ≠ 0x7F)

def VeAcc.see (a : VeAcc) (amax : W32) (k : Cnts) : VeAcc :=
  { a with amax := maxBits a.amax amax, cnts := a.cnts.add k, elems := a.elems + 1 }

def finBits (v : Num) : W32 := if v.isFin then bits32 v.abs else 0

/-- Observe one result (04 Table 4-3): its input, its code, what its production counted. A magnitude that FP32 does not hold is
rounded to it: log entry 150, DESIGN CHOICE. -/
def VeAcc.result (a : VeAcc) (c : Slot) (input code : Nat) (k : Cnts) : VeAcc :=
  if !observes c then a
  else if isProd c then a.see (finBits (laneNum (vOt c) input)) k
  else if dstTy c = 8 then
    a.see (finBits (r32 ((wordLedger (BitVec.ofNat 128 code)).value 1))) { nonfin := b2n (decide (fld (BitVec.ofNat 128 code) 6 5 ≠ 0)) }
  else
    let v := laneNum (dstTy c) code
    a.see (finBits v) (if c.opc = 0x5A then k else { nonfin := b2n (!v.isFin) })

/-- What a command that names no slot counts in the core-wide counters beside observations (04 R94). Log entry 108, DEDUCED. -/
def VeAcc.slotless (a : VeAcc) (c : Slot) (nf : Nat) : VeAcc := if observes c then a else { a with cnts := a.cnts.add { nonfin := nf } }

/-! ### The commands -/

/-- Linear index of an element for the generator (05 R115). Log entry 43, DEDUCED. -/
def srBase (c : Slot) : Nat := if vSr c then fld (c.x (wIdx c)) 31 0 else 0

/-- An elementwise command. -/
def Beat.lanes (b : Beat) (x : BeatCtx) (m : VeMem) (act : List Bool) (src : List (List Nat)) : Beat × VeMem :=
  let c := m.c
  let at' := fun (j i : Nat) => (src.getD j []).getD i 0
  let tA := scalBits m.regs c (vSrc c 1) (wSrc c 1)
  let tB := scalBits m.regs c (vSrc c 2) (wSrc c 2)
  let z := act.zipIdx.foldl (fun (q : List Nat × VeAcc) p =>
    if p.1 then
      let i := p.2
      let r := laneOp c m.scale tA tB (b.s.maskBit (vFn c) i) (srRnd (vSr c) x.w.key (x.e0 + i + srBase c)) (at' 0 i) (at' 1 i) (at' 2 i)
      let v := r.code.getD (openCode (dstTy c) c.opc [vOt c, vFn c, dstTy c, b2n (vSat c), at' 0 i, at' 1 i, at' 2 i])
      let (v, k) := nxLane c (isProd c) (!(laneNum (vOt c) (at' 0 i)).isFin) v r.cnts
      (q.1 ++ [v], (q.2.result c (at' 0 i) v k).slotless c (lxNonfin c (at' 0 i) (at' 1 i)))
    else (q.1 ++ [0], q.2)) ([], m.acc)
  (b.put x m (dstTy c) act z.1, { m with acc := z.2 })

/-- VCMP and VMSET. -/
def Beat.bits (b : Beat) (x : BeatCtx) (m : VeMem) (act : List Bool) (src : List (List Nat)) : Beat :=
  let c := m.c
  let bits := (upto x.n).map fun i =>
    if c.opc = 0x4E then vCmp (vOt c) (vFn c) ((src.getD 0 []).getD i 0) ((src.getD 1 []).getD i 0)
    else if vFn c = 0 then decide (i < (scalBits m.regs c (vSrc c 0) (wSrc c 0)).toNat)
    else b.s.bitmapBit (vForm m.regs c 0) i
  b.putBits x m act bits

/-- VCPRS: the active elements, after NX, go to consecutive elements of the destination (05 R124, R125). To a coupler, only the first beat
has a defined content, and the elements past the count stay. A form that cannot hold them all fails the beat. -/
def Beat.compress (b : Beat) (x : BeatCtx) (m : VeMem) (act : List Bool) (src : List Nat) : Beat × VeMem :=
  let t := vOt m.c
  let vals := (act.zip src).filterMap fun p => if p.1 then some (nxLane m.c false false p.2 {}).1 else none
  let acc := vals.foldl (fun (a : VeAcc) v => a.result m.c v v {}) m.acc
  if isK (vDst m.c) then
    let code := fun (i : Nat) => if x.e0 = 0 then vals.getD i 0 else openCode t 0x5C (x.e0 :: i :: m.acc.count :: vals)
    (b.put x m t ((upto x.n).map fun i => x.e0 ≠ 0 || decide (i < vals.length)) ((upto x.n).map code),
     { m with acc := { acc with count := acc.count + vals.length } })
  else
    let f := vDstForm m.regs m.c
    if f.count < m.acc.count + vals.length then ({ b with short := some m.c }, m) else
    let l := vals.zipIdx.flatMap fun (v, i) => (leBytes (fmtBytes t) v).zipIdx.map fun (y, j) => (f.addrN (m.acc.count + i) + j, y)
    ({ b with s := b.s.writePairs (some .x) x.w.cs l }, { m with acc := { acc with count := acc.count + vals.length } })

/-- One block of VQ: its rows are written unless no position is inside the edge (05 R114, 02 R38). `rows` starts at source
row `r`, block column `j`. The generator's index is the tensor's row-major one: log entry 151, DESIGN CHOICE. -/
def Beat.block (b : Beat) (x : BeatCtx) (m : VeMem) (d : Bsd) (r j : Nat) (rows : List (List (Option Num))) : Beat × VeMem :=
  if rows.all fun l => l.all fun v => v.isNone then (b, m)
  else
    let pad := rows.map fun l => l ++ List.replicate (32 - l.length) none
    let q := quantBlock d.fmt (decide (vFn m.c = 1))
      (fun i k => srRnd (vSr m.c) x.w.key ((r + i) * d.cols + 32 * j + k + srBase m.c)) pad
    let s := (q.1.zipIdx.flatMap fun (row, i) => blkBytes d (r + i) j row).foldl (fun (s : State) p => s.write (some .x) x.w.cs p.1 p.2) b.s
    ({ b with s := s }, { m with acc := { m.acc with cnts := m.acc.cnts.add q.2 } })

/-- Emit the blocks that the pending positions complete; `e` is the first pending element, `flush` the end of the command. -/
def Beat.blocks (x : BeatCtx) (d : Bsd) (flush : Bool) : Nat → Nat → Beat → VeMem → Beat × VeMem
  | 0, _, b, m => (b, m)
  | k + 1, e, b, m =>
    let len := if d.sq then 1024 else min 32 (d.cols - e % d.cols)
    let have' := m.acc.tile.length
    if have' = 0 || (have' < len && !flush) then (b, m)
    else
      let (r, c) := bsdPos d e
      let cells := m.acc.tile.take len
      let rows := if d.sq then (upto 32).map fun i => (cells.drop (32 * i)).take 32 else [cells]
      let (b, m) := b.block x m d r (c / 32) rows
      Beat.blocks x d flush k (e + len) b { m with acc := { m.acc with tile := m.acc.tile.drop len } }

/-- VQ (05 R114). -/
def Beat.quant (b : Beat) (x : BeatCtx) (m : VeMem) (act : List Bool) (src : List Nat) : Beat × VeMem :=
  let d := bsdAt m.regs m.c 0
  let t := vOt m.c
  let cells := (act.zip src).zipIdx.map fun ((on, v), i) =>
    let (r, c) := bsdPos d (x.e0 + i)
    if on && decide (r < d.rows) && decide (c < d.cols) then some v else none
  let acc := cells.foldl (fun (a : VeAcc) v => match v with | some v => a.see (finBits (laneNum t v)) {} | none => a) m.acc
  let first := x.e0 - m.acc.tile.length
  let tile := m.acc.tile ++ cells.map fun v => v.map fun v => (laneNum t v).divPos (fp32 m.scale).val
  Beat.blocks x d x.last (x.n + 64) first b { m with acc := { acc with tile := tile } }

/-- RNGK GEN (12 R325). -/
def Beat.gen (b : Beat) (x : BeatCtx) (m : VeMem) (act : List Bool) : Beat :=
  let t := (selForm m.regs m.c (m.c.f 43 38) 0).ty
  let sel := m.c.f 37 32
  let base := (scalBits m.regs m.c sel (selWords (m.c.f 43 38))).toNat
  let code := fun (i : Nat) =>
    let v := if x.w.key.seq then draw x.w.key 2 (x.w.key.ctr.toNat + x.e0 + i) else draw x.w.key 0 (base + x.e0 + i)
    v.toNat / 2 ^ (32 - fmtBits t)
  b.put x m t act ((upto x.n).map code)

/-! ### Reductions (05 R129 to R131) -/

/-- A ledger residue error of the RDU, or a result that carries one (05 R131). -/
def State.rduError (s : State) (cs : Option Nat) (tag : W16) : State :=
  let (s, loc) := s.freeWord
  (((s.setRf 0x130 1 1 1).fault 0x07 4 (some (.x, tag)) loc.toNat).raise evVeParity).numericTrip cs 5 0x7F

/-- A segment ends: its result goes to the vector or stays for the register. -/
def Beat.segEnd (b : Beat) (x : BeatCtx) (m : VeMem) (seg : Nat) : Beat × VeMem :=
  let g := m.acc.red
  let v := redResult m.c g
  let s := if g.led.resErr then b.s.rduError x.w.cs m.c.tag else b.s
  let s := if isN (vDst m.c) then s
    else s.write (some .x) x.w.cs ((vDstForm m.regs m.c).addrN seg) (leBytes (fmtBytes (dstTy m.c)) v)
  ({ b with s := s },
   { m with acc := { m.acc with count := v, red := { RedAcc.zero with nf := g.nf, inx := g.inx || redInx m.c g } } })

/-- The part of a beat that lies in one segment. -/
def Beat.segment (b : Beat) (x : BeatCtx) (m : VeMem) (act : List Bool) (src : List Nat) (seg : Nat) : Beat × VeMem :=
  let z := redSeg m.c
  let mine := fun (i : Nat) => z = 0 || (x.e0 + i) / z = seg
  let on := ((act.zip src).zipIdx.filter fun p => p.1.1 && mine p.2).map fun p => (p.2, p.1.2)
  let g := on.foldl (fun g p => redElem m.c g (if z = 0 then x.e0 + p.1 else (x.e0 + p.1) % z) p.2) m.acc.red
  let g := if m.c.opc = 0x60 && vFn m.c = 2 then redBeat g (on.map fun p => (p.1, redF32 (vOt m.c) p.2)) else g
  let m := { m with acc := { m.acc with red := g } }
  let stop := if z = 0 then x.w.vlen else min x.w.vlen ((seg + 1) * z)
  if stop ≤ x.e0 + x.n then b.segEnd x m seg else (b, m)

/-- A RED command in a beat; after its last segment the register results wait for RED_RESULT_WRITE. -/
def Beat.reduce (b : Beat) (x : BeatCtx) (m : VeMem) (act : List Bool) (src : List Nat) : Beat × VeMem :=
  let z := redSeg m.c
  let segs := if z = 0 || x.n = 0 then [0] else (upto ((x.e0 + x.n - 1) / z + 1 - x.e0 / z)).map (· + x.e0 / z)
  let (b, m) := segs.foldl (fun (q : Beat × VeMem) seg => q.1.segment x q.2 act src seg) (b, m)
  let regs := (if isN (vDst m.c) then [RegWr.mk 0 (vDst m.c - 8) m.acc.count] else []) ++
    (if redPv m.c then [RegWr.mk 2 (redPd m.c) (b2n m.acc.red.inx)] else [])
  let regs := regs.filter fun r => r.names x.w.pend
  let lone := decide (x.w.mems.length = 1)
  if x.last && !regs.isEmpty then
    ({ b with outs := b.outs ++ [⟨regs, m.c.ct && lone, x.w.cs, m.c.tag⟩] }, m)
  else (b, m)

/-- One command's part of a beat. A beat that has failed does nothing more. -/
def Beat.member (x : BeatCtx) (b : Beat) (m : VeMem) : Beat :=
  if b.bad.isSome || b.short.isSome then { b with mems := b.mems ++ [m] } else
  let act := (upto x.n).map fun i => laneActive b.s x m i
  let es := laneElems x m act
  let late := expShort m act es
  let (b, m) := b.loadVecs x m
  let act := if late then (act.zip es).map fun p => p.1 && decide (p.2 < (vForm m.regs m.c 0).count) else act
  let (b, src) := b.sources x m act es
  if b.bad.isSome then { b with mems := b.mems ++ [m] } else
  let a := src.getD 0 []
  let (b, m) :=
    if isRed m.c then b.reduce x m act a
    else if m.c.opc = 0x6A then (b.gen x m act, m)
    else if m.c.opc = 0x4E || m.c.opc = 0x51 then (b.bits x m act src, m)
    else if m.c.opc = 0x5C then b.compress x m act a
    else if m.c.opc = 0x57 then b.quant x m act a
    else
      let (b, m) := b.lanes x m act src
      (b, if m.c.opc = 0x5D then { m with acc := { m.acc with count := m.acc.count + (act.filter id).length } } else m)
  { b with mems := b.mems ++ [m], short := if late then some m.c else b.short }

/-! ### When a beat may run (05 R110, R127, 13 R340, 14 R363) -/

/-- Scratchpad extents that a command reads. -/
def memReads (m : VeMem) : List (Int × Int) :=
  let r := m.regs
  let ext := fun (f : Form) => (f.low, f.high + (max 1 (fmtBytes f.ty) : Nat) - 1)
  if m.c.opc = 0x6A then [] else if m.c.opc = 0x68 then (updOf m).extents else
  ((upto (if isRed m.c then 1 else 3)).flatMap fun i =>
    let sel := vSrc m.c i
    if isForm sel || isVecSel sel then [ext (vForm r m.c i)]
    else if sel = 0x1A then (let f := vForm r m.c i; [(f.base, f.base + (ceilDiv f.s0 8 : Nat))])
    else if sel = 0x1C then (let b := bsdAt r m.c (wSrc m.c i); [b.elemExt, b.sideExt])
    else []) ++
  (if vMsk m.c = 8 then (let f := compactForm r (m.c.x (wBm m.c)); [(f.base, f.base + (ceilDiv f.s0 8 : Nat))]) else [])

def meets (l : List (Int × Int)) (lo hi : Int) : Bool := l.any fun p => decide (p.1 ≤ hi) && decide (lo ≤ p.2)

/-- The Method R block that holds back the writes of a work. -/
def State.blockIn (s : State) (w : VeWork) : Option (Nat × Nat) :=
  w.wr.findSome? fun p => if p.2 < p.1 then none else s.writeBlock (some .x) w.cs p.1.toNat (p.2 - p.1 + 1).toNat

/-- Does a class-M access touch bytes that a work writes, or store to bytes that it reads? -/
def VeWork.touches (w : VeWork) (a : ScalAcc) : Bool :=
  a.addrs.any fun k => meets w.wr k k || (!a.isLoad && w.mems.any fun m => meets (memReads m) k k)

/-- Entries of each of its regions that a command's next beat needs (05 R127): those of its lanes, or of the elements that a
VEXPD without EDGE takes. -/
def State.ftqNeed (s : State) (x : BeatCtx) (m : VeMem) : Nat :=
  let last := if m.c.opc = 0x5D && !(ftqsOf m.c).any (fun p => bit p.2 63) then
      m.acc.count + ((upto x.n).filter fun i => laneActive s x m i).length
    else x.e0 + x.n
  ceilDiv last 1024 - m.acc.hdrs

/-- Does the front work wait, other than for a block's copy? The grant may hold it too (16 R412). -/
def State.veHeld (s : State) (w : VeWork) : Bool :=
  !s.granted ||
  (decide (s.sX.chain > 0) && decide (w.serial = s.vec.serial)) ||
  (s.cal.isOpen && !s.cal.swapped && decide (w.serial > s.cal.veMark)) ||
  (w.mems.any fun m => (ftqsOf m.c).any fun p => decide ((s.regionFtq p.1).length < s.ftqNeed w.ctx m)) ||
  (s.sX.scal.any fun a => decide (a.serial < w.serial) && w.touches a)

/-! ### VE_BEAT -/

/-- A coupler's bits as the latch holds them. -/
def packLanes (t : Nat) (l : List Nat) : BitVec 8192 :=
  BitVec.ofNat 8192 (l.foldr (fun v a => a * 2 ^ fmtBits t + v) 0)

/-- A coupler parity error in a lane (05 R120, 14 Table 14-4). -/
def State.couplerParity (s : State) (w : VeWork) (lanes : List Nat) : State :=
  if lanes.isEmpty || !(w.mems.any fun m => m.c.opc ≠ 0x6A && (vSels m.c).any isK) then s
  else
    let s := (s.setRf 0x130 0 0 1).raise evVeParity
    let tag := match w.mems with | m :: _ => m.c.tag | [] => 0
    let s := lanes.foldl (fun s l => (s.fault 0x06 3 (some (.x, tag)) l).wearParity 2 l) s
    s.numericTrip w.cs 5 0x7E

/-- A work's merges, its register writes and its tickets when it ends, whole or stopped. One that is stopped merges what the beats before
have observed: log entry 147, DESIGN CHOICE. -/
def State.endWork (s : State) (w : VeWork) (outs : List RedOut) (whole : Bool) : State :=
  let s := { s with vec := { s.vec with ve := s.vec.ve.drop 1, redq := s.vec.redq ++ outs } }
  w.mems.foldl (fun s m =>
    let s := if !observes m.c then s.numcAdd 4 (m.acc.cnts.nonfin + m.acc.red.nf)
      else if w.vlen ≠ 0 then s.merge m.trk w.cs m.acc.amax m.acc.cnts m.acc.elems else s
    let s := if whole && w.vlen ≠ 0 && (m.c.opc = 0x5C || m.c.opc = 0x5D) && w.pend.contains (0, vFn m.c) then s.wrRegs .x [⟨0, vFn m.c, m.acc.count⟩] else s
    let later := whole && isRed m.c && w.mems.length = 1 && !outs.isEmpty
    if m.c.ct && !later then s.ctTicket (if isRed m.c then 12 else 11) else s) s

/-- Free the oldest entry of each region that a command reads, and write its header where an operand asks (05 R127). -/
def Beat.freeEntry (b : Beat) (x : BeatCtx) (m : VeMem) : Beat × VeMem :=
  let ops := ftqsOf m.c
  let s := (ops.map (·.1)).eraseDups.foldl (fun (s : State) r =>
    match (s.regionFtq r).head? with
    | none => s
    | some q =>
      let args := [q.region, q.pass, q.sr, q.sc, q.fmt, q.rowv, q.colv, q.inxr, b2n q.nf, b2n q.reserr, b2n q.omm, b2n q.epar, b2n q.last]
      let hdr := (upto 16).map fun i => Config.sectionByte 0x100 args i
      let s := (ops.filter fun p => p.1 = r && bit p.2 62).foldl (fun (s : State) p =>
        s.write (some .x) x.w.cs ((ftqHdr m.regs p.2).toNat + 16 * m.acc.hdrs) hdr) s
      { s with arr := { s.arr with ftq := s.arr.ftq.erase q } }) b.s
  ({ b with s := s }, { m with acc := { m.acc with hdrs := m.acc.hdrs + 1 } })

/-- How many entries a command has read to their end after a beat. A VEXPD ends with the entry that holds its last element. Log
entry 31, DESIGN CHOICE. -/
def entriesRead (x : BeatCtx) (m : VeMem) : Nat :=
  if (ftqsOf m.c).isEmpty then 0
  else if m.c.opc = 0x5D then (if x.last then ceilDiv m.acc.count 1024 else m.acc.count / 1024)
  else (x.e0 + x.n) / 1024

/-- Free the FTQ entries that a beat ends (05 R127). -/
def Beat.takeEntry (b : Beat) (x : BeatCtx) : Beat :=
  b.mems.foldl (fun (b : Beat) m =>
    let z := (upto (entriesRead x m - m.acc.hdrs)).foldl (fun (q : Beat × VeMem) _ => q.1.freeEntry x q.2) (b, m)
    { z.1 with mems := z.1.mems ++ [z.2] }) { b with mems := [] }

/-- The address of a member's long word. -/
def VeWork.lwOf (w : VeWork) (c : Slot) : Nat := match w.mems.find? (·.c = c) with | some m => m.lw | none => 0

/-- Does a command write a part of its destination in this beat (17 Table 17-8)? A RED does where a segment ends, in its vector. -/
def beatWrites (x : BeatCtx) (m : VeMem) : Bool :=
  if isRed m.c then !isN (vDst m.c) && (x.last || decide (redSeg m.c ≠ 0 && x.e0 / redSeg m.c < (x.e0 + x.n) / redSeg m.c)) else true

/-- One beat of the front work (05 R107, R118, R123, R133). A beat in which an active lane's word is uncorrectable, or a form is too
short, writes nothing. -/
def State.veBeat (s : State) (w : VeWork) (kperr : List Nat) : State :=
  let x := w.ctx
  let b := w.mems.foldl (Beat.member x) { s := s, k := [], rd := [], idle := [], bad := none, short := none, mems := [], outs := [] }
  let failed := (s.touchWords (some .x) b.rd).countIdle b.idle
  match b.bad, b.short with
  | some (a, c), _ => (failed.spmHalt .x w.cs c.tag c.kind (w.lwOf c) a).endWork w [] false
  | none, some c => (failed.endWork w [] false).deferHalt .x 6 0 c.tag c.kind (w.lwOf c)
  | none, none =>
    let b := { b with s := b.s.countIdle b.idle }.takeEntry x
    let w := { w with mems := b.mems, beat := w.beat + 1 }
    let k := b.k.foldl (fun t (p : Nat × Nat × List Nat) => tset (0 : BitVec 8192) t (p.1 - 1) (packLanes p.2.1 p.2.2)) b.s.vec.k
    let s := ({ b.s with vec := { b.s.vec with k := k } }).couplerParity w kperr
    let s := if x.n ≠ 0 && w.mems.any (beatWrites x) then s.perf 6 1 else s
    if x.last then s.endWork w b.outs true
    else { s with vec := { s.vec with ve := w :: s.vec.ve.drop 1 } }

/-- VE_BEAT (05 R109). -/
def execVeBeat (kperr : List (BitVec 9)) (s : State) : Host.Outcome State Fault Refusal :=
  .next <| match s.vec.ve with
  | [] => s
  | w :: _ =>
    if s.veHeld w || (w.mems.any fun m => m.c.opc = 0x68) then s
    else
      match s.blockIn w with
      | some p => s.stallOn 18 (w.serial * 2 ^ 32 + w.beat) p
      | none => (s.asBeat fun s => s.veBeat w (kperr.map (·.toNat))).retryStores .x

/-- RED_RESULT_WRITE (05 R131): the oldest result reaches its registers. -/
def execRedResultWrite (resErr : Bool) (s : State) : Host.Outcome State Fault Refusal :=
  .next <| match s.vec.redq with
  | [] => s
  | r :: rest =>
    let s := ({ s with vec := { s.vec with redq := rest } }).wrRegs .x r.wr
    let s := if resErr then s.rduError r.cs r.tag else s
    if r.ct then s.ctTicket 12 else s

end Sys2Proof.Machine
end

