-- ==== Sys2Proof/Machine/Wipe.lean ====
section
/-!
DEFINITION. Host writes by the access codes of the register map (00 R12, R13), and the wipe (16 R399, R403, R404, R415).
-/

namespace Sys2Proof.Machine

/-! ### A write by access codes -/

/-- One field of a write: `denied` where the lifecycle state locks the RWL fields. -/
def Field.write (denied : Bool) (old v : W64) (f : Field) : W64 :=
  let x := fld v f.hi f.lo
  match f.acc with
  | .rw | .rws => putFld old f.hi f.lo x
  | .rwl => if denied then old else putFld old f.hi f.lo x
  | .w1c => old &&& ~~~ putFld 0 f.hi f.lo x
  | .w1s => old ||| putFld 0 f.hi f.lo x
  | .wzc => if x = 0 then putFld old f.hi f.lo 0 else old
  | .ro | .wo => old

/-- Are the RWL fields locked (00 R13)? -/
def State.rwlLocked (s : State) : Bool := decide (s.lcs ≥ 2)

/-- A host write to a register with no effect beyond its fields. A write to a locked RWL field sets DENIED. -/
def State.plainWrite (s : State) (off : Nat) (v : W64) : State :=
  let fs := regFields off
  let s := if s.rwlLocked && fs.any (fun f => f.acc = .rwl) then s.deny else s
  s.wr off (fs.foldl (Field.write s.rwlLocked · v) (s.rd off))

/-! ### Wipes -/

/-- What a wipe follows: a cold reset, a warm reset, a lifecycle change, a failed restore (13 R348). -/
inductive WipeCause where
  | cold | warm | lifecycle | restore
deriving DecidableEq, Repr

/-- Every field with access RWS or RWL, by its register's offset. -/
def keptFields : List (Nat × Nat × Nat) :=
  regMap.flatMap fun r =>
    let fs := r.fields.filter fun f => f.acc = .rws || f.acc = .rwl
    if fs.isEmpty then [] else (upto r.count).flatMap fun i => fs.map fun f => (r.base + r.stride * i, f.hi, f.lo)

/-- Fields kept by a wipe that is not cold: the place, the lifecycle state, UNLOCKFAILS, the level of pcp_pwr_gnt. -/
def keptWarm : List (Nat × Nat × Nat) := [(0x18, 31, 0), (8, 15, 13), (0x7008, 15, 8), (0x6008, 15, 12)]

/-- Fields kept by a wipe without a reset (16 R415, 15 Table 15-10): the port's and the stop's registers, the levels and the
readings of the power block, the capacities of the applied maps. -/
def keptLive : List (Nat × Nat × Nat) :=
  [(0x388, 63, 0), (0x3C0, 63, 0), (0x3C8, 63, 0), (0x6008, 23, 18), (0x6008, 11, 8), (0x6008, 2, 2), (0x6008, 0, 0),
   (0x2048, 15, 0), (0x280, 31, 16), (0x300, 31, 16)] ++ (upto 4).map fun n => (0x6040 + 8 * n, 63, 24)

def WipeCause.kept : WipeCause → List (Nat × Nat × Nat)
  | .cold => [(0x18, 31, 0)]
  | .warm => keptFields ++ keptWarm ++ [(0x1830, 31, 0)]
  | .lifecycle => keptFields ++ keptWarm ++ keptLive
  | .restore => keptFields ++ keptWarm ++ keptLive ++ [(0x1830, 31, 0), (0x1808, 39, 24), (0x1808, 6, 5), (8, 9, 8)] ++
      (upto 16).flatMap fun n => [(0x1100 + 0x20 * n, 63, 0), (0x1108 + 0x20 * n, 63, 0)]

/-- Does the core run on through the wipe: its clock, its link and its stop? -/
def WipeCause.live : WipeCause → Bool
  | .cold | .warm => false
  | .lifecycle | .restore => true

/-- Logical slots left without a physical slot are marked (04 R98). -/
def unavTrk (marks : List Nat) : Tbl Trk :=
  ((upto 64).filter fun n => decide (68 - marks.length ≤ n)).map fun n => (n, { Trk.zero with unav := true })

/-- Logical banks that a map leaves without a physical bank (06 R140). -/
def goneBanks (marks : List Nat) : List Nat := (upto 32).filter fun n => decide (34 - marks.length ≤ n)

/-- The links through a wipe that leaves the port up: each entry of the tw buffer is free again (15 R373). -/
def Fab.wipedLinks (f : Fab) : Tbl Link := if f.twbuf.isEmpty then f.links else tmod Link.zero f.links 3 fun l => { l with freed := l.freed + f.twbuf.length }

/-- The state in the first ac of a wipe: every memory zero, every register at its reset value but for what the cause keeps. -/
def State.wiped (s : State) (c : WipeCause) : State :=
  let csr := c.kept.foldl (fun t k => tset 0 t k.1 (putFld (tget 0 t k.1) k.2.1 k.2.2 (s.rf k.1 k.2.1 k.2.2))) (tset 0 csrReset 8 0)
  let applied := if c = .cold then [] else s.rep.applied
  let lose := fun (l : List Req) => l.map fun r => { r with dead := true }
  { State.reset with
    pending := s.pending, csr := csr, pins := s.pins, tp := s.tp, freeCount := s.freeCount
    spm := ⟨[], [], [], goneBanks (tget [] applied 3)⟩
    trk := unavTrk (tget [] applied 5)
    mer := if c.live then s.mer else Mer.reset
    rep := ⟨applied, []⟩
    arr := if c.live then { Arr.reset with passCnt := s.arr.passCnt, qc := s.arr.qc, qr := s.arr.qr } else Arr.reset
    fab := if c.live then ⟨s.fab.serial, [], lose s.fab.reads, lose s.fab.writes, s.fab.wipedLinks, [], [], s.fab.rr⟩ else State.reset.fab
    ring := if c.live then { s.ring with tr := [] } else ⟨[], [], []⟩
    cke := { Cke.reset with key := if c = .warm || c = .restore then s.cke.key else none } }

/-- Self-test 0x01: the core runs from the ACLK reference, whose cycle is as long as `multUsed` root cycles (14 Table 14-7). -/
def State.onReference (s : State) : State :=
  let k := s.pins.multUsed
  { s with pins := { s.pins with multUsed := 1, multWas := k }, mer := { s.mer with inc := s.mer.inc * k }.rebase none }

/-- The generator has locked again: the core runs from the root. -/
def State.offReference (s : State) : State :=
  let k := s.pins.multWas
  { s with pins := { s.pins with multUsed := k }, mer := { s.mer with inc := s.mer.inc / k }.rebase none }

/-- The wipe begins: WIPING, and RESET_DONE reads 0. -/
def State.beginWipe (s : State) (cause : Option Nat) : State :=
  let s := ((s.setRf 8 0 0 0).setRf 8 1 1 1).setRf 8 2 2 0
  match cause with
  | some k => s.setRf 8 9 8 k
  | none => s

/-- A wipe without a reset (16 R415, 13 R348). It ends a self-test, and with test 0x01 the run from the reference (R421). Log entry 99,
DEDUCED. -/
def State.liveWipe (s : State) (c : WipeCause) : State :=
  ((if s.bist = some 0x01 then s.offReference else s).wiped c).beginWipe (if c = .lifecycle then some 2 else none)

/-- Apply the maps of some classes at a reset, with what the banks and slots lose (06 R140, 04 R98). -/
def State.resetMaps (s : State) (classes : List Nat) : State :=
  let s := s.applyMaps classes
  { s with spm := { s.spm with gone := goneBanks (s.appliedMarks 3) }, trk := unavTrk (s.appliedMarks 5) }

end Sys2Proof.Machine
end

