-- ==== Sys2Proof/Machine/Section.lean ====
section
/-!
DEFINITION. The state section of a checkpoint (13 R338, R348, R349): how its items are laid out and read back. The items
stand in the order of 13 Table 13-1. Where a table of the spec gives an item's layout, it is that one; the others follow log
entry 7, DESIGN CHOICE.
-/

namespace Sys2Proof.Machine

/-! ### Fields in a row, each little-endian -/

def packF (l : List (Nat × Nat)) : List Byte := l.flatMap fun f => leBytes f.1 f.2

/-- The values of fields of given widths. -/
def unpackF (ws : List Nat) (b : List Byte) : List Nat :=
  (ws.foldl (fun (p : List Nat × List Byte) w => (p.1 ++ [leNat (p.2.take w)], p.2.drop w)) ([], b)).1

/-- Byte range of an item. -/
def part (b : List Byte) (off len : Nat) : List Byte := (b.drop off).take len

/-! ### Queue RAM and context records (06 Table 6-5) -/

def carBytes : Nat := 2048 * 1024

/-- Contexts whose entries the section holds: 56 and 57 are captured as empty (11 Table 11-8). -/
def State.queueEntries (s : State) : List (Nat × List Entry) :=
  (s.qsy.filter fun p => !(p.1 = 56 || p.1 = 57) && !p.2.entries.isEmpty).map fun p => (p.1, p.2.entries)

/-- The cars' data, entry by entry in the order of their contexts. -/
def State.queueCars (s : State) : List Byte := s.queueEntries.flatMap fun p => p.2.flatMap Entry.bytes

/-- The side-band of a context's entries: a byte with the length less 1, the mark of the last entry and three flags, then what the
flags announce: a ticket that is not the one expected, POISON bits, a remote sender that is not that of the entry before. -/
def sideBytes : Nat → Option (Nat × Nat) → List Entry → List Byte
  | _, _, [] => []
  | t, src, e :: r =>
    let map := (e.cars.zipIdx.map fun (k, i) => b2n k.poison * 2 ^ i).sum
    let jump := decide (e.tkt ≠ t)
    let marked := decide (map ≠ 0)
    let move := decide (e.src ≠ src)
    packF ([(1, e.cars.length - 1 + b2n r.isEmpty * 16 + b2n jump * 32 + b2n marked * 64 + b2n move * 128)] ++ (if jump then [(2, e.tkt)] else []) ++
      (if marked then [(2, map)] else []) ++
      (if move then (match e.src with | some (p, c) => [(2, c + 4096), (3, p)] | none => [(2, 0), (3, 0)]) else [])) ++
    sideBytes ((e.tkt + 1) % 65536) e.src r

/-- The side-band of the queue RAM: each context that has entries, and an end mark. -/
def State.queueSide (s : State) : List Byte :=
  (s.queueEntries.flatMap fun p => packF [(2, p.1)] ++ sideBytes (s.ctx p.1).et none p.2) ++ packF [(2, 0xFFFF)]

def State.ctxRecord (s : State) (n : Nat) : List Byte :=
  let w2 := if n = 56 || n = 57 then putFld (s.readW2 n) 15 0 0 else s.readW2 n
  packF [(8, (s.readW0 n).toNat), (8, (s.ctx n).w1.toNat), (8, w2.toNat), (8, (s.readW3 n).toNat)]

/-- A context's entries read back from the side-band and the cars' data, and the bytes after them. -/
def readEntries : Nat → Nat → Option (Nat × Nat) → List Byte → List Byte → List Entry × List Byte × List Byte
  | 0, _, _, side, cars => ([], side, cars)
  | k + 1, t, src, side, cars =>
    let f := BitVec.ofNat 8 (rdLe side 0 1)
    let n := fld f 3 0 + 1
    let side := side.drop 1
    let (t, side) := if bit f 5 then (rdLe side 0 2, side.drop 2) else (t, side)
    let (map, side) := if bit f 6 then (rdLe side 0 2, side.drop 2) else (0, side)
    let (src, side) :=
      if bit f 7 then (if rdLe side 0 2 ≥ 4096 then some (rdLe side 2 3, rdLe side 0 2 % 4096) else none, side.drop 5) else (src, side)
    let e : Entry :=
      { tkt := t, cars := (upto n).map fun i => ⟨BitVec.ofNat 512 (leNat (part cars (64 * i) 64)), map.testBit i, .good⟩, src := src, cs := none, sent := none }
    let cars := cars.drop (64 * n)
    if bit f 4 then ([e], side, cars)
    else
      let (l, side, cars) := readEntries k ((t + 1) % 65536) src side cars
      (e :: l, side, cars)

/-- The queue RAM's entries by their context; `et` is a context's expected ticket. -/
def readQueues (et : Nat → Nat) : Nat → List Byte → List Byte → Tbl (List Entry)
  | 0, _, _ => []
  | k + 1, side, cars =>
    let n := rdLe side 0 2
    if n ≥ 4096 then []
    else
      let (l, side, cars) := readEntries 32768 (et n) none (side.drop 2) cars
      (n, l) :: readQueues et k side cars

/-- Entries without those whose ticket an earlier one holds (06 R150). -/
def oncePerTicket (l : List Entry) : List Entry := l.foldl (fun r e => if r.any fun x => x.tkt = e.tkt then r else r ++ [e]) []

def readCtx (entries : List Entry) (rec' : List Byte) : Ctx :=
  let w := unpackF [8, 8, 8, 8] rec'
  let w2 := BitVec.ofNat 64 (w.getD 2 0)
  let w3 := BitVec.ofNat 64 (w.getD 3 0)
  { Ctx.zero with
    w0 := BitVec.ofNat 64 (w.getD 0 0), w1 := BitVec.ofNat 64 (w.getD 1 0), credit := fld w2 63 48, nt := fld w2 47 32, et := fld w2 31 16
    ordflt := bit w3 7, poison := bit w3 6, reject := bit w3 5, entries := oncePerTicket entries }

/-! ### Tracker records (04 Table 4-4) -/

def bitsNat (l : List Bool) : Nat := (l.zipIdx.map fun (b, i) => if b then 2 ^ i else 0).sum

def Trk.record (t : Trk) : List Byte :=
  packF ([(8, t.scfg.toNat), (4, t.cur.toNat), (4, t.next.toNat), (4, t.amax.toNat)] ++
    ((upto 16).map fun i => (4, (t.alm.getD i 0).toNat)) ++
    [(1, min t.alm.length 16 + bitsNat [t.has, t.bound, t.wide] * 32)] ++ ((upto 5).map fun i => (6, t.cnt.getD i 0)) ++
    [(1, bitsNat (t.sat.take 5) + bitsNat [t.tripped, t.perr, t.unav] * 32)] ++ ((upto 3).map fun i => (3, t.ep.getD i 0)) ++
    [(1, t.clean % 16), (2, 0)])

/-- A record read back; UNAVAILABLE follows this core's own map (04 R101). Its parity is good as read: log entry 149, DESIGN
CHOICE. -/
def readTrk (b : List Byte) (unav : Bool) : Trk :=
  let v := unpackF ([8, 4, 4, 4] ++ List.replicate 16 4 ++ [1] ++ List.replicate 5 6 ++ [1] ++ List.replicate 3 3 ++ [1]) b
  let g := fun i => v.getD i 0
  let f0 := BitVec.ofNat 8 (g 20)
  let f1 := BitVec.ofNat 8 (g 26)
  { scfg := BitVec.ofNat 64 (g 0), cur := BitVec.ofNat 32 (g 1), next := BitVec.ofNat 32 (g 2), amax := BitVec.ofNat 32 (g 3)
    alm := (upto (min 16 (fld f0 4 0))).map fun i => BitVec.ofNat 32 (g (4 + i)), has := bit f0 5, bound := bit f0 6 && !unav, wide := bit f0 7
    cnt := (upto 5).map fun i => g (21 + i), sat := (upto 5).map fun i => bit f1 i, tripped := bit f1 5, perr := bit f1 6, bad := false
    unav := unav, ep := (upto 3).map fun i => g (27 + i), clean := g 30 % 16 }

/-! ### Scalar state of a stream (07 Table 7-1) -/

def stCode : StState → Nat
  | .idle => 0 | .running => 1 | .stopping => 2 | .stopped => 3 | .halted => 4 | .resetting => 5

def loopFields (l : LoopLvl) : List (Nat × Nat) :=
  [(4, l.start), (4, l.fin), (4, l.lc.toNat), (1, min l.steps.length 4)] ++
  (upto 4).flatMap fun i => let p := l.steps.getD i (0, 0); [(1, p.1), (8, (p.2 % 2 ^ 64).toNat)]

def loopWidths : List Nat := [4, 4, 4, 1, 1, 8, 1, 8, 1, 8, 1, 8]

def LoopLvl.zero : LoopLvl := ⟨0, 0, 0, []⟩

def State.scalarFields (s : State) (st : Sid) : List (Nat × Nat) :=
  let t := s.str st
  let x := st = .x
  ((upto 16).map fun i => (8, (t.rdA i).toNat)) ++ ((upto 8).map fun i => (4, (t.rdN i).toNat)) ++
  [(1, bitsNat ((upto 8).map t.rdP)), (1, min t.loops.length 4), (8, t.cc.toNat), (4, t.pc.toNat), (1, stCode t.st)] ++
  ((upto 4).flatMap fun i => loopFields (t.loops.getD i LoopLvl.zero)) ++
  [(4, if x then s.vec.vlen.toNat else 0)] ++
  ((upto 8).map fun i => (128, if !x then 0 else if i = 0 then 2 ^ 1024 - 1 else (tget 0 s.vec.m i).toNat)) ++
  ((upto 4).map fun i => (8, (s.rd (haltBase st + 8 * i)).toNat))

def scalarWidths : List Nat :=
  List.replicate 16 8 ++ List.replicate 8 4 ++ [1, 1, 8, 4, 1] ++ loopWidths ++ loopWidths ++ loopWidths ++ loopWidths ++ [4] ++
  List.replicate 8 128

def scalarSize : Nat := 4096

def padEnd (n : Nat) (l : List Byte) : List Byte := l.take n ++ List.replicate (n - l.length) 0

/-- A stream's scalar state read back; it becomes STOPPED (13 R349). -/
def readStream (v : List Nat) : Stream :=
  let g := fun i => v.getD i 0
  let p := BitVec.ofNat 8 (g 24)
  let lvl := fun i =>
    let b := 29 + 12 * i
    (⟨g b, g (b + 1), BitVec.ofNat 32 (g (b + 2)), (upto (min 4 (g (b + 3)))).map fun j => (g (b + 4 + 2 * j) % 16, sgn 64 (g (b + 5 + 2 * j)))⟩ : LoopLvl)
  { Stream.reset with
    a := (upto 16).foldl (fun t i => tset 0 t i (BitVec.ofNat 48 (g i))) []
    n := (upto 8).foldl (fun t i => tset 0 t i (BitVec.ofNat 32 (g (16 + i)))) []
    p := (upto 8).foldl (fun t i => tset false t i (decide (i ≠ 0) && bit p i)) []
    loops := (upto (min 4 (g 25))).map lvl, cc := BitVec.ofNat 64 (g 26), pc := BitVec.ofNat 17 (g 27), st := .stopped }

/-- VLEN and the masks read back. -/
def readVec (v : List Nat) (old : Vec) : Vec :=
  let g := fun i => v.getD i 0
  { old with
    vlen := BitVec.ofNat 21 (g 77)
    m := (upto 7).foldl (fun t i => tset 0 t (i + 1) (BitVec.ofNat 1024 (g (79 + i)))) [] }

/-! ### The other items -/

def csCode : CsState → Nat | .idle => 0 | .opened => 1 | .doomed => 2 | .deciding => 3 | .rollback => 4
def codeCs : Nat → CsState | 1 => .opened | 2 => .doomed | 3 => .deciding | 4 => .rollback | _ => .idle

def optFields (o : Option Nat) : List (Nat × Nat) := match o with | some v => [(1, 1), (1, v)] | none => [(1, 0), (1, 0)]

def BarCtx.record (b : BarCtx) : List Byte :=
  packF ([(8, b.w0.toNat), (8, b.w1.toNat), (1, b.o), (1, b.ga), (1, b.gx)] ++ optFields b.lastA ++ optFields b.lastX ++ [(9, 0)])

def readBar (b : List Byte) : BarCtx :=
  let v := unpackF [8, 8, 1, 1, 1, 1, 1, 1, 1] b
  let g := fun i => v.getD i 0
  let o := fun i => if g i % 2 = 1 then some (g (i + 1)) else none
  { BarCtx.zero with w0 := BitVec.ofNat 64 (g 0), w1 := BitVec.ofNat 64 (g 1), o := g 2, ga := g 3, gx := g 4, lastA := o 5, lastX := o 7 }

def Sched.bytes (x : Sched) : List Byte := padEnd 64 x.record ++ packF [(4, b2n x.loaded), (4, x.ctr.toNat)]
def readSched (b : List Byte) : Sched :=
  let v := unpackF [4, 4] (b.drop 64)
  let loaded := decide (v.getD 0 0 % 2 = 1)
  ⟨if loaded then b.take 64 else [], loaded, BitVec.ofNat 32 (v.getD 1 0)⟩

def Key.bytes (k : Key) : List Byte :=
  packF [(8, k.seed.toNat), (4, k.stream.toNat), (4, k.step.toNat), (4, b2n k.seq), (4, k.ctr.toNat)]
def readKey (b : List Byte) : Key :=
  let v := unpackF [8, 4, 4, 4, 4] b
  ⟨BitVec.ofNat 64 (v.getD 0 0), BitVec.ofNat 32 (v.getD 1 0), BitVec.ofNat 32 (v.getD 2 0), decide (v.getD 3 0 % 2 = 1), BitVec.ofNat 32 (v.getD 4 0)⟩

/-- The running bank's digest (09 R242). -/
def State.runDigest (s : State) : List Byte := (upto 6).flatMap fun i => leBytes 8 (s.rd (bankInfo s.runBank + 0x20 + 8 * i)).toNat

/-! ### The section as a whole -/

def trkOff : Nat := carBytes + 4096 * 32
def strOff : Nat := trkOff + 64 * 128 + 64
def csOff : Nat := strOff + 2 * scalarSize
def barOff : Nat := csOff + 64
def orrOff : Nat := barOff + 1024
def keyOff : Nat := orrOff + 288
def digOff : Nat := keyOff + 96

/-- The state section of 13 Table 13-1. Its first item is the data of the queue RAM's cars; their side-band, to which the table gives no
item, stands in the padding. Log entry 7, DESIGN CHOICE. -/
def State.section' (s : State) : List Byte :=
  let body :=
    padEnd carBytes s.queueCars ++ ((upto 4096).flatMap s.ctxRecord) ++
    ((upto 64).flatMap fun n => (s.trkAt n).record) ++ ((upto 8).flatMap fun i => leBytes 8 (if i < 6 then (s.rd (0x9800 + 8 * i)).toNat else 0)) ++
    padEnd scalarSize (packF (s.scalarFields .a)) ++ padEnd scalarSize (packF (s.scalarFields .x)) ++
    padEnd 64 (packF [(2, s.rf 0x1448 15 0), (1, csCode s.cA.st), (1, csCode s.cX.st)]) ++
    ((upto 16).flatMap fun n => (s.bar n).record) ++ ((upto 64).flatMap fun i => leBytes 8 (tget 0 s.bars.child i).toNat) ++
    ((upto 4).flatMap fun n => (tget Sched.zero s.orr n).bytes) ++ ((upto 4).flatMap fun n => (tget Key.zero s.keys n).bytes) ++
    s.runDigest ++ leBytes 4 s.vec.vlen.toNat ++ s.queueSide
  padEnd sectionSize body

/-- Write the section into its homes (13 R348); with `resume` the scalar state too (R349). -/
def State.putSection (s : State) (b : List Byte) (resume : Bool) : State :=
  let queues := readQueues (fun n => rdLe b (carBytes + 32 * n + 18) 2) 4096 (b.drop (digOff + 52)) (part b 0 carBytes)
  let trk := (upto 64).foldl (fun t n => tset Trk.zero t n (readTrk (part b (trkOff + 128 * n) 128) (s.trkAt n).unav)) []
  let cs := unpackF [2, 1, 1] (part b csOff 64)
  let s := (upto 6).foldl (fun s i => s.wr (0x9800 + 8 * i) (BitVec.ofNat 64 (leNat (part b (trkOff + 8192 + 8 * i) 8)))) s
  let s := s.setRf 0x1448 15 0 (cs.getD 0 0)
  let s := { s with
    qsy := (upto 4096).foldl (fun t n => tset Ctx.zero t n (readCtx (tget [] queues n) (part b (carBytes + 32 * n) 32))) []
    trk := trk
    cA := { Csu.reset with st := codeCs (cs.getD 1 0) }, cX := { Csu.reset with st := codeCs (cs.getD 2 0) }
    bars := { ctx := (upto 16).foldl (fun t n => tset BarCtx.zero t n (readBar (part b (barOff + 32 * n) 32))) []
              child := (upto 64).foldl (fun t i => tset 0 t i (BitVec.ofNat 64 (leNat (part b (barOff + 512 + 8 * i) 8)))) [] }
    orr := (upto 4).foldl (fun t n => tset Sched.zero t n (readSched (part b (orrOff + 72 * n) 72))) []
    keys := (upto 4).foldl (fun t n => tset Key.zero t n (readKey (part b (keyOff + 24 * n) 24))) [] }
  if !resume then s else
  let va := unpackF scalarWidths (part b strOff scalarSize)
  let vx := unpackF scalarWidths (part b (strOff + scalarSize) scalarSize)
  { s with sA := readStream va, sX := readStream vx, vec := readVec vx s.vec }

end Sys2Proof.Machine
end

