-- ==== Sys2Proof/Machine/Update.lean ====
section
/-!
DEFINITION. UPDF_BLOCK_DONE (12 R314 to R317, 08 R214) and the service of class-M scratchpad accesses (07 R176, 05 R110).
-/

namespace Sys2Proof.Machine

/-- The next block of the front UPDF: it reads its planes, updates them, and at the last block the command ends. Its 1,024 elements
are 4 destination beats of 32-bit lanes. Log entry 141, DEDUCED. One that is stopped merges what the blocks before have observed:
log entry 147, DESIGN CHOICE. -/
def State.updStep (s : State) (w : VeWork) (m : VeMem) : State :=
  let u := updOf m
  let bi := w.beat / u.nbc
  let bj := w.beat % u.nbc
  let words := wordsOf (u.reads bi bj)
  let s := s.touchWords (some .x) words
  match words.find? fun k => s.spm.eccAt (s.viewAddr (some .x) (8 * k)) = .bad with
  | some k =>
    let s := { s with vec := { s.vec with ve := s.vec.ve.drop 1 } }
    let s := (s.spmHalt .x w.cs m.c.tag m.c.kind m.lw (8 * k)).merge m.trk w.cs 0 m.acc.cnts m.acc.elems
    if m.c.ct then s.ctTicket 11 else s
  | none =>
    let o := updBlock u (updCoef m 0) (updCoef m 1) (updCoef m 2) (s.updIn u bi bj)
    let z := u.writes w.key (bit m.c.base 10) bi bj o
    let s := z.1.foldl (fun (s : State) p => s.write (some .x) w.cs p.1 p.2) s
    let s := s.perf 6 4
    let m := { m with acc := { m.acc with cnts := m.acc.cnts.add z.2, elems := m.acc.elems + (if u.mom then 2048 else 1024) } }
    if w.beat + 1 < u.nBlocks then
      { s with vec := { s.vec with ve := { w with mems := [m], beat := w.beat + 1 } :: s.vec.ve.drop 1 } }
    else
      let s := { s with vec := { s.vec with ve := s.vec.ve.drop 1 } }
      let s := s.merge m.trk w.cs 0 m.acc.cnts m.acc.elems
      if m.c.ct then s.ctTicket 11 else s

/-- UPDF_BLOCK_DONE (08 R214). -/
def execUpdfBlockDone (s : State) : Host.Outcome State Fault Refusal :=
  .next <| match s.vec.ve with
  | w :: _ =>
    match w.mems with
    | [m] =>
      if m.c.opc ≠ 0x68 || s.veHeld w then s
      else
        match s.blockIn w with
        | some p => s.stallOn 18 (w.serial * 2 ^ 32 + w.beat) p
        | none => (s.asBeat fun s => s.updStep w m).retryStores .x
    | _ => s
  | [] => s

/-! ### Class-M accesses -/

/-- Did a LOAD of the orrery find its record uncorrectable as it issued? Its addresses name the failing word. -/
def ScalAcc.lost (a : ScalAcc) : Bool := decide (a.kind = 4) && a.bytes.isEmpty

/-- Is an access held behind an earlier VE command that touches its bytes (05 R110)? -/
def State.accHeld (s : State) (st : Sid) (a : ScalAcc) : Bool :=
  decide (st = .x) && s.vec.ve.any fun w => decide (w.serial ≤ a.serial) && w.touches a

/-- The effect of a load's bytes on its destination. -/
def State.accLoad (s : State) (st : Sid) (a : ScalAcc) (bs : List Byte) : State :=
  match a.kind with
  | 0 => s.wrRegs st [⟨0, a.idx, leNat bs⟩]
  | 1 => s.wrRegs st [⟨1, a.idx, leNat bs + a.add.toNat⟩]
  | 3 =>
    { s with keys := tmod Key.zero s.keys a.idx fun k =>
        { k with seed := BitVec.ofNat 64 (rdLe bs 0 8), stream := BitVec.ofNat 32 (rdLe bs 8 4), step := BitVec.ofNat 32 (rdLe bs 12 4), seq := false } }
  | 5 => s
  | _ => s.setSched a.idx ⟨bs, true, BitVec.ofNat 32 (rdLe bs 4 4)⟩

/-- SCRATCHPAD_SCALAR_ACCESS (07 R176): the oldest access of a stream is served. An uncorrectable word halts the stream and
leaves the destination as it was; the record names the lowest one (06 R137). -/
def execScratchpadScalarAccess (st : Sid) (s : State) : Host.Outcome State Fault Refusal :=
  .next <| match (s.str st).scal with
  | [] => s
  | a :: rest =>
    let lo := a.addrs.headD 0
    if s.accHeld st a then s
    else match (if a.isLoad then none else s.writeBlock (some st) a.cs lo a.addrs.length) with
    | some p => s.stallOn (sidNat st) (a.serial * 2 ^ 32 + lo) p
    | none =>
      let s := s.modStr st fun t => { t with scal := rest }
      let s :=
        if !a.isLoad then s.writePairs (some st) a.cs (a.addrs.zip a.bytes)
        else match (if a.lost then a.addrs.head? else (a.addrs.filter fun k => s.spm.eccAt (s.viewAddr (some st) k) = .bad).min?) with
        | some k => s.spmHalt st a.cs a.tag a.slot a.lw (k / 8 * 8)
        | none =>
          let s := s.touchWords (some st) (wordsOf (a.addrs.map fun k => (k, 1)))
          s.accLoad st a (if a.bytes.isEmpty then a.addrs.map fun k => s.spm.byte (s.viewAddr (some st) k) else a.bytes)
      s.retryStores st

end Sys2Proof.Machine
end

