-- ==== Sys2Proof/Machine/Checkpoint.lean ====
section
/-!
DEFINITION. Checkpoints: the stop, the background copy and its end, restore, the host's writes (13 R333 to R352).
-/

namespace Sys2Proof.Machine

/-! ### The stop (13 R336, R345, Table 13-6) -/

/-- A stop that does not start: the error, SKIPPED and the event. -/
def State.skipStop (s : State) (err : Nat) : State := ((s.setRf 0x1808 39 32 err).incRf 0x1808 23 16).raise evCkptFail

/-- A CKPT_STOP fires: false where it sets NOACT. Log entry 85, DEDUCED. -/
def State.fireStop (s : State) (ct : Bool) : State × Bool :=
  if s.cstate = 1 || s.cstate = 2 then (s.skipStop 0x0A, false)
  else if s.cke.key.isNone then (s.skipStop 2, false)
  else if s.rf 0x1830 31 0 = 0xFFFFFFFF then (s.skipStop 3, false)
  else
    let s := (s.setRf 0x1808 2 0 1).ckeDrop
    ({ s with cke := { s.cke with ct := ct, tick := s.now, resumable := s.cA.st = .idle && s.cX.st = .idle, poisoned := false
                                  sealed := false, recap := false, late := [], staged := [], blocks := [], urgent := [], stalls := [], trailer := false
                                  dlast := s.cke.dirty, dirty := [] } }, true)

/-- Has every command and request issued before the tick ended, queue messages among them (06 R160), every open chain (07 R444), and
every unit merged (13 R336, 04 R100)? -/
def State.quiesced (s : State) : Bool :=
  decide (s.sA.chain = 0) && decide (s.sX.chain = 0) && s.unacked.isEmpty &&
  s.vec.ve.isEmpty && s.vec.redq.isEmpty && s.arr.waiting.isEmpty && s.arr.running.isEmpty && s.sA.scal.isEmpty && s.sX.scal.isEmpty &&
  !(s.feedOpen fun _ => true) && (s.fab.reads ++ s.fab.writes).all fun r => r.dead

/-- Is the stop's least length over (13 R336, step 5)? -/
def State.stopOver (s : State) : Bool :=
  s.mer.st = .unlocked || decide (s.cke.tick.toNat + 1000 * s.rf 0x1838 15 0 ≤ s.now.toNat)

/-- A 128-byte unit of the scratchpad as the engine reads it: its bytes, whether it is uncorrectable (13 R346). -/
def State.ckeUnit (s : State) (a : Nat) : State × List Byte × Bool :=
  match s.badView none a 128 with
  | some w => (s.noteUncorr none w, s.peek none a 128, true)
  | none => (s.touchView none a 128, s.peek none a 128, false)

def State.ckeUnits (s : State) (l : List Nat) : State × List (List Byte × Bool) :=
  l.foldl (fun (p : State × List (List Byte × Bool)) a => let r := p.1.ckeUnit a; (r.1, p.2 ++ [r.2])) (s, [])

/-- Poison met by this checkpoint. -/
def State.notePoison (s : State) (units : List (List Byte × Bool)) : State :=
  if units.any (·.2) then ({ s with cke := { s.cke with poisoned := true } }).setRf 0x1808 7 7 1 else s

/-- Write a record into the staging area, at the place that it has in the half area. Log entry 86, DESIGN CHOICE. -/
def State.stage (s : State) (r : CkRec) (u : List (List Byte × Bool)) : State :=
  let b := s.sealData r u
  { s with cke := { s.cke with staged := s.cke.staged ++ [(r.pos, b.length)] } }.ckeWrite (s.stageBase + r.pos) b

/-- Seal one record of the scratchpad image into the staging area. -/
def State.stageImage (s : State) (r : CkRec) : State :=
  let (s, u) := s.ckeUnits ((s.imageUnits.drop (r.off / 128)).take (r.len / 128))
  (s.notePoison u).stage r u

/-- The units of one record of the state section. -/
def sectionUnits (b : List Byte) (r : CkRec) : List (List Byte × Bool) := (upto (r.len / 128)).map fun i => (part b (r.off + 128 * i) 128, false)

/-- Seal one record of the state section. -/
def State.stageSection (b : List Byte) (s : State) (r : CkRec) : State := s.stage r (sectionUnits b r)

/-- Reading every car that the section captures: one whose check fails is captured poisoned (06 R141). -/
def State.readQueueRam (s : State) : State :=
  s.qsy.foldl (fun s p => if p.1 = 56 || p.1 = 57 then s else
    p.2.entries.zipIdx.foldl (fun s (e, i) =>
      let (s, e, _) := s.readCars none e
      s.modCtx p.1 fun c => { c with entries := c.entries.set i e }) s) s

/-- Steps 2 and 3 of a stop (13 R336): EPOCH, the key, the section and the image; from now on the Method R blocks hold writes back.
A tracker is captured with no parity check: log entry 149, DESIGN CHOICE. -/
def State.sealStop (s : State) : State :=
  let s := s.readQueueRam
  let epoch := s.rf 0x1830 31 0 + 1
  let blocks := (s.liveRegions.filter (·.late)).flatMap fun r => (upto (ceilDiv r.size blockSize)).map fun b => (r.n, b)
  let s := { s.setRf 0x1830 31 0 epoch with
    cke := { s.cke with latched := s.cke.key.getD 0, epoch := epoch, sealed := true, blocks := blocks
                        resumable := s.cke.resumable && decide (s.sA.st ≠ StState.halted) && decide (s.sX.st ≠ StState.halted) } }
  let recs := s.ckLayout.1
  let b := s.section'
  let s := (recs.filter (·.kind = 1)).foldl (State.stageSection b) s
  let s := (recs.filter (·.kind = 2)).foldl State.stageImage s
  { s with cke := { s.cke with late := recs.filter fun r => r.kind = 3 && !(s.region r.region).late } }

/-- The section is sealed again, in place, with a stream that has halted since (13 Table 13-6). Log entry 146, DEDUCED. -/
def State.recapture (s : State) : State :=
  let b := s.section'
  (s.ckLayout.1.filter (·.kind = 1)).foldl (fun s r => s.ckeWrite (s.stageBase + r.pos) (s.sealData r (sectionUnits b r)))
    { s with cke := { s.cke with recap := false } }

/-! ### The engine's reads (13 R336, R339, R340, R342) -/

/-- Read a record of a fabric region. -/
def State.readRegion (s : State) (r : CkRec) (block : Option (Nat × Nat)) : State :=
  s.ckeRead (.region r block) ((s.region r.region).base + r.off) (r.len / 128)

/-- A Method R block is copied: nothing waits for it any more. -/
def State.blockDone (s : State) (p : Nat × Nat) : State :=
  { s with cke := { s.cke with blocks := s.cke.blocks.filter (· ≠ p), urgent := s.cke.urgent.filter (· ≠ p) } }.blocksFree

/-- A finished read: a staged record goes out as it is, a region's record is sealed first. -/
def State.readDone (s : State) (j : CkeJob) : State :=
  let s := { s with cke := { s.cke with job := none } }
  match j.what with
  | .staged pos len => s.ckeSend pos ((j.units.flatMap fun u => bytesOf u.data 128).take len)
  | .region r block =>
    let u := j.units.map fun u => (bytesOf u.data 128, u.poison)
    let s := s.notePoison u
    let s := s.ckeSend r.pos (s.sealData r u)
    match block with
    | some p => s.blockDone p
    | none => s
  | _ => s

/-- What the engine does by itself in a checkpoint: it ends a read whose data has come, seals a stop that is quiesced, and reads
the next record of step 4. -/
def State.ckeRun (s : State) : State :=
  if s.cstate ≠ 1 && s.cstate ≠ 2 then s else
  let s := match s.cke.job with
    | some j => if j.got.length ≥ j.want then s.readDone j else s
    | none => s
  if s.cstate ≠ 1 then s
  else if !s.cke.sealed then (if s.quiesced then s.sealStop else s)
  else if s.cke.recap then s.recapture
  else match s.cke.job, s.cke.late with
    | none, r :: rest => { s with cke := { s.cke with late := rest } }.readRegion r none
    | _, _ => s

/-- CKPT_RESUME (13 R336): steps 1 to 4 and STOPLEN have ended. -/
def execCkptResume (_io : Unit) (s : State) : Host.Outcome State Fault Refusal :=
  .next <| if s.cstate = 1 && s.cke.sealed && !s.cke.recap && s.cke.late.isEmpty && !s.ckeBusy && s.stopOver then
    ((s.setRf 0x1808 2 0 2).stopEnded.hurryTodo).allChans State.chanRun
  else s

/-- Copy one Method R block to the half area. -/
def State.copyBlock (s : State) (p : Nat × Nat) : State :=
  let g := s.region p.1
  match s.ckLayout.1.find? fun r => r.kind = 3 && r.region = p.1 && r.off = blockSize * p.2 with
  | none => s
  | some r =>
    if g.fab then s.readRegion r (some p)
    else
      let (s, u) := s.ckeUnits ((upto (r.len / 128)).map fun i => g.base + r.off + 128 * i)
      let s := s.notePoison u
      (s.ckeSend r.pos (s.sealData r u)).blockDone p

/-- CKPT_BLOCK_COPY (13 R340, R342): a block that a write or a commit waits on, else a staged record, else the next block. -/
def execCkptBlockCopy (_io : Unit) (s : State) : Host.Outcome State Fault Refusal :=
  .next <| if s.cstate ≠ 2 || s.cke.job.isSome then s else
  let s := [Sid.a, .x].foldl (fun s st => if (s.csu st).st = .deciding then s.hurryAll st else s) s
  match s.cke.urgent, s.cke.staged, s.cke.blocks with
  | p :: _, _, _ => s.copyBlock p
  | [], (pos, n) :: r, _ => ({ s with cke := { s.cke with staged := r } }).ckeRead (.staged pos n) (s.stageBase + pos) (n / 128)
  | [], [], p :: _ => s.copyBlock p
  | [], [], [] => s

/-- CKPT_DONE (13 R342): the trailer is acknowledged. -/
def execCkptDone (s : State) : Host.Outcome State Fault Refusal :=
  .next <| if s.cstate = 2 && s.cke.trailer && !s.ckeBusy then (s.setRf 0x1808 2 0 3).raise evCkptDone else s

/-! ### Restore (13 R348 to R350) -/

/-- A record opened: its header's fields and its plaintext. -/
structure Opened where
  kind : Nat
  last : Bool
  region : Nat
  off : Nat
  len : Nat
  seq : Nat
  plain : List Byte
deriving DecidableEq, Repr

/-- Open a record: it, or the error of 13 Table 13-4. -/
def State.openRec (s : State) (b : List Byte) : Opened ⊕ Nat :=
  match s.cke.key with
  | none => .inr 2
  | some k =>
    let g := fun i n => rdLe b i n
    let kind := g 5 1
    let len := g 24 4
    if g 0 4 ≠ 0x314B4F43 || g 4 1 ≠ 1 then .inr 6
    else match gcmOpen (bytesOf k 32) (ckIv (g 8 3) (g 12 4) (g 28 4)) (b.take 64) (part b 64 (len + (if kind = 4 then 16 else 80))) with
      | none => .inr 5
      | some plain =>
        if g 8 3 ≠ s.rf 0x1840 23 0 || g 12 4 ≠ s.rf 0x1840 55 24 then .inr 7
        else .inl ⟨kind, decide (g 6 1 / 2 % 2 = 1), g 7 1, g 16 8, len, g 28 4, plain⟩

/-- The records of one section in their order, up to its last: an error or 0, pieces (offset, data, poison bits), the rest. -/
def State.readRun (s : State) (kind region : Nat) : Option Nat → Nat → List (List Byte) → Nat × List (Nat × List Byte × Nat) × List (List Byte)
  | _, _, [] => (6, [], [])
  | seq, off, b :: rest =>
    match s.openRec b with
    | .inr e => (e, [], rest)
    | .inl r =>
      if r.kind ≠ kind || r.region ≠ region || r.off ≠ off || seq.any (fun q => q ≠ r.seq) then (6, [], rest)
      else
        let piece := (off, r.plain.take r.len, leNat (r.plain.drop r.len))
        if r.last then (0, [piece], rest)
        else
          let (e, l, t) := s.readRun kind region (some (r.seq + 1)) (off + r.len) rest
          (e, piece :: l, t)

/-- Write restored pieces into the scratchpad: `addr` gives the address of a unit of the section; a marked unit is poisoned. -/
def State.putPieces (s : State) (addr : Nat → Option Nat) (l : List (Nat × List Byte × Nat)) : State :=
  l.foldl (fun s (off, data, map) =>
    (upto (data.length / 128)).foldl (fun s i =>
      match addr (off / 128 + i) with
      | some a => s.poke a (part data (128 * i) 128) (decide (map / 2 ^ i % 2 = 1))
      | none => s) s) s

/-- Write restored pieces to the fabric; a marked unit leaves poisoned (13 R346, R348). -/
def State.sendPieces (s : State) (base : Nat) (l : List (Nat × List Byte × Nat)) : State :=
  l.foldl (fun s (off, data, map) =>
    (upto (data.length / 128)).foldl (fun s i =>
      s.addReq ⟨0, base + off + 128 * i, ckeCh, 0, i, 0, false, some ⟨BitVec.ofNat 1024 (leNat (part data (128 * i) 128)), map.testBit i⟩⟩) s) s

/-- The restore fails: the cause, the last region written, and a wipe. Log entry 87, DEDUCED. -/
def State.restoreFail (s : State) (err det : Nat) : State :=
  (((s.setRf 0x1808 39 32 err).setRf 0x1808 31 24 det).setRf 0x1808 6 5 3).liveWipe .restore

/-- RESUME is refused (13 R349). -/
def State.restoreRefuse (s : State) (err : Nat) : State := (s.setRf 0x1808 39 32 err).setRf 0x1808 6 5 3

/-- Cut the half area after its trailer slot into records: each is as long as its header says (13 R344, R347). -/
def cutRecords : Nat → List Byte → List (List Byte)
  | 0, _ => []
  | k + 1, b => if b.isEmpty then [] else let n := recSize (rdLe b 24 4); b.take n :: cutRecords k (b.drop n)

/-- The records of a section among those of the half area. -/
def pickRecords (kind region : Nat) (l : List (List Byte)) : List (List Byte) :=
  l.filter fun b => rdLe b 5 1 = kind && rdLe b 7 1 = region
/-- SEQ of the first record of a region: one past the last of the record before it in the half area. -/
def firstSeq (kind region : Nat) (l : List (List Byte)) : Option Nat :=
  (l.findIdx? fun b => rdLe b 5 1 = kind && rdLe b 7 1 = region).map (· + 1)

/-- Does a write of the engine still await its response? -/
def State.ckeWriting (s : State) : Bool := (s.fab.todo ++ s.fab.writes).any fun r => r.ch = ckeCh && !r.dead

/-- The entries with RV = 1, none of which is restored yet. -/
def State.rvEntries (s : State) : List (Nat × Bool) := ((upto 64).filter fun n => s.rb (0x1A00 + 0x18 * n) 60).map fun n => (n, false)

/-- The next step of the regions' restore (13 R348, step 2): an entry's records are authenticated before any of it is written, the next
entry follows once its writes are acknowledged, and LASTERR's detail names the last one written. -/
def State.restoreNext (s : State) (records : List (List Byte)) : State :=
  match s.cke.todo with
  | [] => { s with cke := { s.cke with regions := true } }
  | (n, true) :: rest => if s.ckeWriting then s else { s with cke := { s.cke with todo := rest } }.setRf 0x1808 31 24 n
  | (n, false) :: rest =>
    let w0 := s.rd (0x1A00 + 0x18 * n)
    let src := fld w0 59 54
    let dst := fld (s.rd (0x1A08 + 0x18 * n)) 63 28 * 4096
    let (e, l, _) := s.readRun 3 src (firstSeq 3 src records) 0 (pickRecords 3 src records)
    if e ≠ 0 then s.restoreFail e (s.rf 0x1808 31 24)
    else
      let s := { s with cke := { s.cke with todo := (n, true) :: rest } }
      if bit w0 62 then s.sendPieces dst l
      else s.putPieces (fun u => if dst + 128 * u < spmSize then some (dst + 128 * u) else none) l

/-- RESTORE (13 R348): a host write starts the sequence with the trailer; descriptors in flight end (06 Table 6-8). -/
def State.startRestore (s : State) : State :=
  if s.sA.st ≠ .idle || s.sX.st ≠ .idle || s.cstate = 1 || s.cstate = 2 then s.setRf 0x1808 9 9 1
  else if s.cke.key.isNone then s.restoreRefuse 2
  else
    let s := (s.abandonDma.setRf 0x1808 6 5 1).ckeDrop
    { s with cke := { s.cke with regions := false } }.ckeRead .trailer (s.rf 0x1848 47 7 * 128) (recSize 64 / 128)

def execRestore (s : State) : Host.Outcome State Fault Refusal := .next (s.atHost 0x1800 State.startRestore)

/-- The trailer opened (13 R348, step 1): its data, or the error. -/
def State.openTrailer (s : State) (j : CkeJob) : List Byte ⊕ Nat :=
  match s.openRec (j.units.flatMap fun u => bytesOf u.data 128) with
  | .inr e => .inr e
  | .inl t => if t.kind ≠ 4 || t.seq ≠ 0 then .inr 6 else .inl t.plain

/-- The trailer has come: the rest of the half area that it names is read. Log entry 86, DESIGN CHOICE. -/
def State.restoreTrailer (s : State) (j : CkeJob) : State :=
  match s.openTrailer j with
  | .inr e => s.restoreFail e (s.rf 0x1808 31 24)
  | .inl plain =>
    if s.rb 0x1850 2 && !(byteAt plain 10).getLsbD 0 then (s.restoreRefuse 9).ckeDrop
    else { s with cke := { s.cke with todo := s.rvEntries } }.ckeRead (.area (rdLe plain 10 1)) (s.rf 0x1848 47 7 * 128 + 1024) ((rdLe plain 4 6 - 1024) / 128)

def CkeJob.records (j : CkeJob) : List (List Byte) := cutRecords j.want (j.units.flatMap fun u => bytesOf u.data 128)

/-- What the engine does by itself in a restore: the trailer, then the regions once the half area has come; a read given up is a
record missing. -/
def State.restoreRun (s : State) : State :=
  if s.rf 0x1808 6 5 ≠ 1 then s else
  match s.cke.job with
  | none => s.restoreFail 6 (s.rf 0x1808 31 24)
  | some j =>
    if j.got.length < j.want || s.cke.regions then s
    else match j.what with
    | .trailer => s.restoreTrailer j
    | .area _ => s.restoreNext j.records
    | _ => s

/-- RESTORE_DONE (13 R348, R349): the image and the state section follow the regions, whose writes are acknowledged. -/
def execRestoreDone (_trailer _records : Unit) (s : State) : Host.Outcome State Fault Refusal :=
  .next <| match s.cke.job with
  | none => s
  | some j =>
    if s.rf 0x1808 6 5 ≠ 1 || !s.cke.regions || s.ckeWriting then s else
    let records := j.records
    let det := s.rf 0x1808 31 24
    let flags := match j.what with | .area f => f | _ => 0
    let resume := s.rb 0x1850 2
    let state := s.rb 0x1850 0
    let (e, img, _) := if s.rb 0x1850 1 && flags / 4 % 2 = 1 then s.readRun 2 0 (some 36) 0 (pickRecords 2 0 records) else (0, [], [])
    if e ≠ 0 then s.restoreFail e det
    else
      let (e, sec, _) := if state then s.readRun 1 0 (some 1) 0 (pickRecords 1 0 records) else (0, [], [])
      let body := sec.flatMap fun p => p.2.1
      if e ≠ 0 then s.restoreFail e det
      else if state && resume && part body digOff 48 ≠ s.runDigest then (s.restoreRefuse 8).ckeDrop
      else
        let units := s.imageUnits
        let s := s.putPieces (fun u => units[u]?) img
        let s := if state then { s.putSection body resume with cke := { s.cke with rngCheck := true } } else s
        s.ckeDrop.setRf 0x1808 6 5 2

/-! ### The host's writes -/

/-- ABANDON (13 R352, Table 13-3). -/
def State.abandonCkpt (s : State) : State := if s.cstate = 2 then s.ckeFail 4 else s
def execAbandon (s : State) : Host.Outcome State Fault Refusal := .next (s.atHost 0x1800 State.abandonCkpt)

/-- OVERRIDE (13 R335): only in DEBUG-OPEN. -/
def State.setOverride (s : State) (v : Bool) : State :=
  if !v then s.setRf 0x1800 8 8 0
  else if s.lcs = 3 then s.setRf 0x1800 8 8 1
  else (s.setRf 0x1800 8 8 0).deny
def execOverride (v : Bool) (s : State) : Host.Outcome State Fault Refusal := .next (s.atHost 0x1800 fun s => s.setOverride v)

/-- A write of CKE.CTRL as a whole. -/
def State.ckeCtrlWrite (s : State) (v : W64) : State :=
  let s := (s.setOverride (bit v 8)).setRf 0x1800 2 2 (fld v 2 2)
  let s := if bit v 1 then s.startRestore else s
  if bit v 0 then s.abandonCkpt else s

/-- The registers that a running checkpoint protects (13 R334): PARTNER, PDEST, PSIZE, LBASE, REGn. -/
def isCkeConfig (off : Nat) : Bool :=
  off = 0x1810 || off = 0x1818 || off = 0x1820 || off = 0x1828 || (decide (0x1A00 ≤ off) && decide (off < 0x2000))

/-- CKE_CONFIG_WRITE (13 R334). -/
def State.ckeConfig (s : State) (off : Nat) (v : W64) : State :=
  if s.cstate = 1 || s.cstate = 2 then s.setRf 0x1808 9 9 1 else s.plainWrite off v
def execCkeConfigWrite (off : W16) (data : W64) (s : State) : Host.Outcome State Fault Refusal :=
  let o := off.toNat / 8 * 8
  .next <| if isCkeConfig o then s.atHost o fun s => s.ckeConfig o data else s

end Sys2Proof.Machine
end

