-- ==== Sys2Proof/Machine/Calib.lean ====
section
/-!
DEFINITION. Calibration windows and sector trials (14 R363, R364), self-test (R366 to R368).
-/

namespace Sys2Proof.Machine

/-! ### The window (14 R363) -/

def calSect (n : Nat) : Nat := 0x5890 + 8 * n

/-- Does a running self-test isolate something of a sector (14 Table 14-7)? -/
def State.sectIsolated (s : State) (n : Nat) : Bool :=
  match s.bist with
  | some t => t = 2 + n || t = 6 + n || t = 0x0A + n || t = 0x0E
  | none => false

/-- The next trial from sector `k` on: none where no sector is left or the trial would end after the window (14 R364). -/
def State.nextTrial (s : State) (k : Nat) : State :=
  let fits := decide (s.now.toNat + 1000 * s.rf 0x5880 31 16 ≤ s.cal.fin.toNat)
  let sect := match (upto 4).find? fun n => decide (k ≤ n) && s.rb 0x5880 n with
    | some n => if fits then n else 4
    | none => 4
  { s with cal := { s.cal with sector := sect, tested := s.sectIsolated sect } }

/-- A window opens at the local tick. The drain and the swap are skipped where LIVEPEND is 0. -/
def State.openCal (s : State) (us : Nat) : State :=
  let s := { s with cal := ⟨true, !s.livePend, s.now, BitVec.ofNat 64 (s.now.toNat + 1000 * us), 4, s.arr.passCnt, s.vec.serial, false⟩ }
  if s.cal.swapped then s.nextTrial 0 else s

/-- Has all work issued before the window ended (14 R363, step 2)? -/
def State.calDrained (s : State) : Bool :=
  (s.arr.waiting ++ s.arr.running).all (fun p => decide (p.num > s.cal.passMark)) &&
  s.vec.ve.all (fun w => decide (w.serial > s.cal.veMark)) && s.vec.redq.isEmpty

/-- CAL_SWAP (14 R363): the column, row and lane maps apply; during a stop a later window waits (R369). -/
def execCalSwap (s : State) : Host.Outcome State Fault Refusal :=
  .next <| if s.cal.isOpen && !s.cal.swapped && s.calDrained && !(s.cstate = 1 && decide (s.cke.tick.toNat ≤ s.cal.start.toNat)) then
    let s := ((s.applyMaps [0, 1, 2]).clearArrayWear).raiseCause evRepair 5
    ({ s with cal := { s.cal with swapped := true } }).nextTrial 0
  else s

/-- Is a sector held at threshold 15 by a failed detector or canary set (14 R368)? -/
def State.sectHeld (s : State) (n : Nat) : Bool := s.pins.dead.contains (2 + n) || s.pins.dead.contains (0x100 + n)

/-- CAL_TRIAL_END (14 R364): accepted, failed, inconclusive or skewed. A self-test that isolated the sector at any time of the
trial makes it inconclusive, whatever was compared (Table 14-9). -/
def execCalTrialEnd (comparisons : Nat) (mismatch skewed : Bool) (s : State) : Host.Outcome State Fault Refusal :=
  let n := s.cal.sector
  .next <| if s.cal.isOpen && decide (n < 4) then
    let o := calSect n
    let cth := s.rf o 3 0
    let s :=
      if s.cal.tested then (s.incRf o 63 48).setRf o 6 4 3
      else if mismatch then ((s.setRf o 3 0 (min 15 (cth + s.rf 0x5880 15 8))).incRf o 47 32).setRf o 6 4 2
      else if skewed then s.setRf o 6 4 4
      else if decide (comparisons < s.rf 0x5880 47 32) || cth = 0 then (s.incRf o 63 48).setRf o 6 4 3
      else (if s.sectHeld n then s else s.setRf o 3 0 (cth - 1)).setRf o 6 4 1
    s.nextTrial (n + 1)
  else s

/-- CAL_WINDOW_RELEASE (14 R363): the outriders resume sampling. -/
def execCalWindowRelease (s : State) : Host.Outcome State Fault Refusal :=
  .next <| if s.cal.isOpen && s.cal.swapped && (s.mer.st = .unlocked || decide (s.cal.fin.toNat ≤ s.now.toNat)) then
    { s with cal := Cal.reset }
  else s

/-! ### Self-test (14 R366 to R368) -/

def Stream.atRest (t : Stream) : Bool := t.st = .idle || t.st = .halted || t.st = .stopped

/-- The conditions of a test (14 Table 14-7); false for a number that the table does not have. Log entry 90, DEDUCED. -/
def State.bistOk (s : State) (t : Nat) : Bool :=
  let rest := s.sA.atRest && s.sX.atRest && ((upto 16).all fun ch => (s.flight ch).isEmpty) && (s.cstate = 0 || s.cstate = 3)
  let slots := (upto 16).all fun n => !s.rb (0x1108 + 0x20 * n) 0 || decide ((s.rd (0x1100 + 0x20 * n)).toNat > s.now.toNat + 20000)
  if t = 0x01 then rest
  else if decide (0x02 ≤ t) && decide (t ≤ 0x0E) then true
  else if t = 0x0F then rest && slots
  else if decide (0x10 ≤ t) && decide (t ≤ 0x15) then rest && s.cA.st = .idle && s.cX.st = .idle
  else false

/-- A write of BIST.CTRL with START: a refused one changes nothing but REFUSED. -/
def State.startBist (s : State) (t : Nat) : State :=
  if s.bist.isSome || !s.bistOk t then s.setRf 0x5808 4 4 1
  else
    let s := s.setRf 0x5800 5 0 t
    let s := { s with bist := some t }.setRf 0x5808 0 0 1
    let s := { s with cal := { s.cal with tested := s.cal.tested || (decide (s.cal.sector < 4) && s.sectIsolated s.cal.sector) } }
    if t = 0x0F then { s with mer := { Mer.reset with inc := s.mer.inc } }
    else if t = 0x01 then s.onReference
    else s

/-- BIST_START (14 R366). -/
def execBistStart (test : BitVec 6) (s : State) : Host.Outcome State Fault Refusal :=
  .next (s.atHost 0x5800 fun s => s.startBist test.toNat)

/-- A stream back in IDLE with the state of 07 Table 7-1. -/
def State.idleStream (s : State) (st : Sid) : State :=
  let s := (s.withdraw st).modStr st fun _ => Stream.reset
  let s := s.settleSwitch.clearHalt st
  match st with
  | .a => s
  | .x => { s with vec := { s.vec with vlen := 0, m := [], k := [] } }

/-- What a test re-initialises when it ends (14 R367). -/
def State.bistWipe (s : State) (t : Nat) : State :=
  let s := if decide (0x10 ≤ t) then (s.idleStream .a).idleStream .x else s
  if t = 0x10 then { s with spm := { s.spm with mem := [], ecc := [], wb := [] } }
  else if t = 0x11 then { s with qsy := [], bars := ⟨[], s.bars.child⟩, fab := { s.fab with asm := [] } }
  else if t = 0x12 then ({ s with imem := ⟨[], [], []⟩ }.setRf 0x280 63 62 0).setRf 0x300 63 62 0
  else if t = 0x13 then
    let s := (upto 64).foldl (fun s n => s.wr (0x4000 + 8 * n) 0) s
    { s with arr := { s.arr with west := [], north := [], waiting := [], running := [], ftq := [], live := [], shadow := [], drain := [] }
             trk := unavTrk (s.appliedMarks 5), vec := { s.vec with k := [] } }
  else if t = 0x14 then { s with arr := { s.arr with waiting := [], running := [], live := [], shadow := [], drain := [] } }
  else s

/-- A unit's number in BIST.RESULT (14 Table 14-8). -/
def resultUnit (f : FailedUnit) : Nat := if f.cls = 0 || f.cls = 1 || f.cls = 2 || f.cls = 4 || f.cls = 5 then wselOf f.cls f.unit else f.unit

def sectOff (n : Nat) : Nat := 0x6040 + 8 * n

/-- A failed thermal sensor reports the highest reading of the other sectors plus 10 °C (14 R368). -/
def State.showHottest (s : State) (n : Nat) : State :=
  let t := fun k => sgn 12 (s.rf (sectOff k) 63 52)
  match ((upto 4).filter (· ≠ n)).map t with
  | x :: r => s.setRf (sectOff n) 63 52 (BitVec.ofInt 12 (r.foldl max x + 80)).toNat
  | [] => s

/-- A block without a spare has failed (14 R368). A failed generator leaves the core on the reference. -/
def State.blockDead (s : State) (t : Nat) (f : FailedUnit) : State :=
  let mark := fun (s : State) (k : Nat) => if s.pins.dead.contains k then s else { s with pins := { s.pins with dead := s.pins.dead ++ [k] } }
  if t = 0x0F then { mark s 0x0F with mer := { Mer.reset with inc := s.mer.inc } }
  else if decide (0x02 ≤ t) && decide (t ≤ 0x05) then (mark s t).setRf (calSect (t - 2)) 3 0 15
  else if t = 0x0E && decide (f.unit < 4) then (mark s (0x100 + f.unit)).setRf (calSect f.unit) 3 0 15
  else if decide (0x06 ≤ t) && decide (t ≤ 0x09) then (mark s t).showHottest (t - 6)
  else mark s t

/-- BIST_DONE (14 R366 to R368): `fails` are the failing units, the first one first; `time` is the duration in mt. -/
def execBistDone (fails : List FailedUnit) (time : W32) (s : State) : Host.Outcome State Fault Refusal :=
  .next <| match s.bist with
  | none => s
  | some t =>
    let s := { s with bist := none }.bistWipe t
    let s := if t = 0x01 && fails.isEmpty then s.offReference else s
    let s := fails.foldl (fun s f => if f.cls ≤ 8 then s.markUnit f.cls f.unit else s.blockDead t f) s
    let o := 0x5808
    let s := (((s.setRf o 23 16 (min 255 fails.length)).setRf o 15 8 t).setRf o 3 2 (if fails.isEmpty then 2 else 1)).setRf o 1 0 2
    let s := s.wr 0x5810 (BitVec.ofNat 64 ((match fails with | f :: _ => resultUnit f % 65536 | [] => 0) * 2 ^ 32 + time.toNat))
    s.raise evBistDone

end Sys2Proof.Machine
end

