-- ==== Sys2Proof/Machine/Meridian.lean ====
section
/-!
DEFINITION. The meridian: updates and lock states (10 R262 to R266, R446), targets (R268, R269), event slots (R270 to R272,
08 R234), the commands MWAIT and MARM (08 R233).
-/

namespace Sys2Proof.Machine

def merTarget (n : Nat) : Nat := 0x1100 + 0x20 * n
def merCtrl (n : Nat) : Nat := 0x1108 + 0x20 * n

/-! ### Lock states (10 Table 10-2) -/

/-- The increment for one root cycle at the nominal rate, in units of 2^-32 mt: the root is the multiplier times 100 MHz
(16 R405). Log entry 72, DESIGN CHOICE. -/
def State.nominalInc (s : State) : Nat := 10 * 2 ^ 32 / s.pins.multUsed

/-- The estimate of the system meridian that an update gives, in 1/16 mt (10 R262). -/
def State.merEst (s : State) (tick : W64) (age : Nat) : Int := (tick.toNat * 16 + age : Nat) + sgn 16 (s.rf 0x1010 15 0)
/-- e of an update (10 R266): the estimate less the local count, in 1/16 mt. Log entry 71, DEDUCED. -/
def State.merErr (s : State) (tick : W64) (age : Nat) : Int := s.merEst tick age - (s.mer.count.toNat / 2 ^ 28 : Nat)

def State.modMer (s : State) (f : Mer → Mer) : State := { s with mer := f s.mer }

/-- Root cycles over which a rate measured in steps of 1/16 mt is good to 2 in 10^6. -/
def learnMin : Nat := 2 ^ 17

/-- The least and the greatest increment that two estimates, each good to 1/16 mt, allow over the root cycles between them. -/
def incLeast (est b : Int) (cyc : Nat) : Nat := ((est - b - 2) * 2 ^ 28 / (cyc : Int)).toNat
def incMost (est b : Int) (cyc : Nat) : Nat := (-(-((est - b + 2) * 2 ^ 28) / (cyc : Int))).toNat

/-- An increment moved into an interval, inside 1/1024 of the nominal rate. -/
def State.incWithin (s : State) (lo hi inc : Nat) : Nat :=
  let nom := s.nominalInc
  max (nom - nom / 1024) (min (nom + nom / 1024) (max lo (min hi inc)))

/-- The lock loop at an accepted update (10 R263, R264, R267). The estimates since the first one of the measurement bound the increment,
closer as it grows longer, and the increment moves into the interval that they leave: from `learnMin` on, and in a lock that has not
come so far yet from the second bound on, so that no single estimate moves it. Where no increment agrees with all of them, the
reference has changed, and the measurement begins at the update before; where the last two estimates themselves do not agree with the
increment, they break off, and it begins at this one. A forward step or a slew starts it again too. Log entry 72, DESIGN CHOICE. -/
def State.discipline (s : State) (est : Int) (fresh : Bool) : State :=
  let m := s.mer
  match (if fresh then none else m.base), m.last with
  | some b, some l =>
    let lo := max m.lo (incLeast est b m.cyc)
    let hi := min m.hi (incMost est b m.cyc)
    let told := { m with last := some est.toNat, since := 0, lo := lo, hi := hi, young := m.young && decide (m.cyc < learnMin) }
    let agree := decide (incLeast est l m.since ≤ m.inc) && decide (m.inc ≤ incMost est l m.since)
    { s with mer :=
        if m.cyc = 0 ∨ m.since = 0 then m
        else if lo ≤ hi then (if learnMin ≤ m.cyc ∨ (m.young && decide (m.hi < incTop)) = true then { told with inc := s.incWithin lo hi m.inc } else told)
        else if agree then { m.rebase m.last with cyc := m.since, last := some est.toNat }
        else m.rebase (some est.toNat) }
  | _, _ => s.modMer fun m => m.rebase (some est.toNat)

/-- Back to LOCKED, with `e` trimmed away or stepped over. -/
def State.merLock (s : State) (e : Int) (told : Bool) : State :=
  let s :=
    if e > 64 then
      ((s.modMer fun m => { m with st := .locked, slewing := false, slew := 0, trim := 0
                                   count := m.count + BitVec.ofNat 96 (e.toNat * 2 ^ 28) }).incRf 0x1020 15 0).raiseCause evMeridianSync 1
    else s.modMer fun m => { m with st := .locked, slewing := false, slew := 0, trim := e * 2 ^ 28 }
  if told then s.raiseCause evMeridianSync 0 else s

/-- A slew of |e| begins, or replaces the running one (10 R446). -/
def State.merSlew (s : State) (e : Int) : State :=
  s.modMer fun m => { m with st := .holdover, slewing := true, slew := (-e).toNat * 2 ^ 28, trim := 0 }

/-- An update reaches the meridian unit. Log entry 92, DEDUCED. -/
def State.merUpdate (s : State) (tick : W64) (age : Nat) : State :=
  if s.pins.dead.contains 0x0F || s.bist = some 0x0F then s else
  let e := s.merErr tick age
  let est := s.merEst tick age
  let s := s.wr 0x1018 (BitVec.ofNat 64 ((e % 2 ^ 32).toNat))
  match s.mer.st with
  | .unlocked =>
    (s.modMer fun _ => { Mer.reset with st := .locked, count := BitVec.ofInt 96 (e * 2 ^ 28), inc := s.nominalInc, base := some est.toNat, last := some est.toNat }).raiseCause
      evMeridianSync 0
  | .locked =>
    if e.natAbs > 16000000 then s.incRf 0x1020 31 16
    else if e < -64 then ((s.merSlew e).discipline est true).raise evMeridianHoldover
    else (s.merLock e false).discipline est (decide (e > 64))
  | .holdover =>
    if e.natAbs > 16000000 then s.incRf 0x1020 31 16
    else if s.mer.slewing then
      (if e < -16 then (s.merSlew e).discipline est true else (s.merLock e true).discipline est (decide (e > 64)))
    else if e < -64 then ((s.merSlew e).discipline est true).raise evMeridianHoldover
    else (s.merLock e true).discipline est (decide (e > 64))

/-- HOLDOVER_TIMEOUT (10 Table 10-2): 10 µs without an accepted update. -/
def execHoldoverTimeout (s : State) : Host.Outcome State Fault Refusal :=
  .next <| if s.mer.st = .locked then
    ((s.modMer fun m => { m with st := .holdover, trim := 0 }).incRf 0x1020 47 32).raise evMeridianHoldover
  else s

/-- SLEW_END (10 R446): the slew's last root cycle, in which what is left of its amount is at most one half increment; the count then
runs at the disciplined increment. At any other moment the slew goes on. Log entry 73, DEDUCED. -/
def execSlewEnd (s : State) : Host.Outcome State Fault Refusal :=
  .next <| if s.mer.slewing && decide (s.mer.slew ≤ s.mer.inc / 2) then s.modMer fun m => { m with count := m.count + BitVec.ofNat 96 m.slew, slew := 0 } else s

/-! ### Event slots -/

/-- A slot is armed with a target and the fields of its CTRL word; FIRED clears, LATEF says whether it is due already. -/
def State.armSlot (s : State) (n : Nat) (tg : W64) (fields : W64) : State :=
  let late := decide (s.mer.st ≠ .unlocked) && decide (tg.toNat ≤ s.now.toNat)
  let noact := s.rf (merCtrl n) 3 3
  let w := putFld (putFld (putFld (putFld fields 0 0 1) 1 1 (b2n late)) 2 2 0) 3 3 noact
  let s := ((s.wr (merTarget n) tg).wr (merCtrl n) w)
  if fld fields 9 7 = 2 then s.wr 0x1888 (BitVec.ofNat 64 s.stopEst) else s

/-- Is PARAM out of range for an action (08 Table 8-22)? -/
def paramBad (act param : Nat) : Bool := if act = 3 then decide (param = 0) else decide (param ≠ 0)

/-- Does the partner share the core's feed (13 R335)? -/
def State.sameFeed (s : State) : Bool := !s.rb 0x1800 8 && decide (s.rf 0x1810 7 0 = s.rf 0x18 31 24)

/-- The action of a slot; false where it starts none (10 R271). -/
def State.slotAction (s : State) (act param strm : Nat) (ct : Bool) : State × Bool :=
  match act with
  | 1 => s.switchEvent
  | 2 => s.fireStop ct
  | 3 => if s.cal.isOpen then (s, false) else (s.openCal param, true)
  | 4 =>
    let o := otherSid (natSid strm)
    if (s.str o).st = .idle || (s.str o).st = .stopped then s.startStream o else (s, false)
  | _ => (s, true)

/-- Is an armed slot due? Log entry 106, DESIGN CHOICE. -/
def State.slotDue (s : State) (n : Nat) : Bool := s.rb (merCtrl n) 0 && s.isDue (s.rd (merTarget n))

/-- A due slot fires: its event, its action, its ticket (10 R271, R272). -/
def State.fireSlot (s : State) (k : Nat) : State :=
  if !s.slotDue k then s else
  let o := merCtrl k
  let w := s.rd o
  let s := (s.setRf o 0 0 0).setRf o 2 2 1
  let s := if bit w 10 then s.raise evMerEvent else s
  let (s, ok) := s.slotAction (fld w 9 7) (fld w 31 16) (fld w 12 12) (bit w 11)
  let s := s.setRf o 3 3 (b2n !ok)
  if bit w 11 && !(fld w 9 7 = 2 && ok) then s.ctTicket (if fld w 9 7 = 2 then 13 else 14) else s

/-- MER_SLOT_FIRE (10 R269, R271, R272): the lowest due slot fires. -/
def execMerSlotFire (n : BitVec 4) (s : State) : Host.Outcome State Fault Refusal :=
  .next (if (upto n.toNat).any s.slotDue then s else s.fireSlot n.toNat)

/-- A host target strictly before the count sets LATE while the count runs (10 R268). -/
def State.hostLate (s : State) (tg : W64) : State := if s.mer.st = .unlocked then s else s.lateMark tg

/-- MER_SLOT_CTRL_WRITE (10 R270): the host arms or disarms a slot. A slot that is due fires before it is disarmed, after those below
it, and a disarming write changes nothing in a free slot (Table 10-4). Log entry 74, DEDUCED. -/
def State.slotCtrlWrite (s : State) (n : Nat) (v : W64) : State :=
  let act := fld v 9 7
  let fields := putFld (putFld (putFld v 63 32 0) 15 13 0) 6 1 0
  if !bit v 0 then
    if !s.rb (merCtrl n) 0 then s
    else if s.slotDue n then (upto (n + 1)).foldl State.fireSlot s
    else s.wr (merCtrl n) (putFld fields 3 1 (s.rf (merCtrl n) 3 1))
  else if decide (act ≥ 5) || paramBad act (fld v 31 16) then s.setRf 0x1000 5 5 1
  else if act = 2 && !s.ckValid then s.setRf 0x1000 5 5 1
  else if act = 2 && s.sameFeed then (s.setRf 0x1000 5 5 1).setRf 0x1808 8 8 1
  else
    let tg := s.rd (merTarget n)
    (s.hostLate tg).armSlot n tg fields

def execMerSlotCtrlWrite (n : BitVec 4) (data : W64) (s : State) : Host.Outcome State Fault Refusal :=
  .next (s.atHost (merCtrl n.toNat) fun s => s.slotCtrlWrite n.toNat data)

/-! ### MWAIT and MARM (08 R233, R234) -/

def chkMwait (s : State) (st : Sid) (c : Slot) : List Chk :=
  let mt := c.f 47 42
  encChks c (mtWords mt) [(41, 0)] ++ mtChks s (s.str st) c mt 0

def runMwait (s : State) (st : Sid) (c : Slot) : Res :=
  if s.mer.st = .unlocked then .stall lockStall 0
  else
    let tg := mtTarget s (s.str st) c (c.f 47 42) 0
    .wait (s.lateMark tg) (.due tg) []

def mwaitSem : CmdSem := ⟨fun c => mtRegs (c.f 47 42), noRegs, isWc, fun s st c _ => chkMwait s st c, fun s st c _ => runMwait s st c⟩

/-- MWAIT as a command of its own (08 R233). -/
def execMwait (st : Sid) (c : Slot) (s : State) : Host.Outcome State Fault Refusal := issueRow mwaitSem st (asOpc 0x2C c) s

/-- MWAIT_DUE (10 R269): the target falls due, and the stream goes on. -/
def execMwaitDue (st : Sid) (s : State) : Host.Outcome State Fault Refusal :=
  .next <| match (s.str st).wait with
  | some w =>
    match w.kind with
    | .due tg => if s.isDue tg && decide (s.cstate ≠ 1) then s.finishWait st [] else s
    | _ => s
  | none => s

def marmSlot (c : Slot) : Nat := c.f 47 44
def marmAct (c : Slot) : Nat := c.f 37 35

def chkMarm (s : State) (st : Sid) (c : Slot) : List Chk :=
  let mt := c.f 43 38
  encChks c (mtWords mt) [(17, 0)] ++
  [chk 1 (decide (marmAct c ≥ 5)) 3, chk 1 (paramBad (marmAct c) (c.f 33 18)) 3] ++ mtChks s (s.str st) c mt 0 ++
  [chk 6 (s.rb (merCtrl (marmSlot c)) 0) 3, chk 6 (marmAct c = 2 && !s.ckValid) 3, chk 6 (marmAct c = 2 && s.sameFeed) 0x14]

def runMarm (s : State) (st : Sid) (c : Slot) : Res :=
  if s.mer.st = .unlocked then .stall lockStall 0
  else
    let tg := mtTarget s (s.str st) c (c.f 43 38) 0
    let w := BitVec.ofNat 64 (c.f 33 18 * 2 ^ 16 + sidNat st * 2 ^ 12 + b2n c.ct * 2 ^ 11 + c.f 34 34 * 2 ^ 10 + marmAct c * 2 ^ 7)
    .ok ((s.lateMark tg).armSlot (marmSlot c) tg w) []

def marmSem : CmdSem := ⟨fun c => mtRegs (c.f 43 38), noRegs, notW, fun s st c _ => chkMarm s st c, fun s st c _ => runMarm s st c⟩

/-- MARM as a command of its own (08 R233, R234). -/
def execMarm (st : Sid) (c : Slot) (s : State) : Host.Outcome State Fault Refusal := issueRow marmSem st (asOpc 0x2D c) s

end Sys2Proof.Machine
end

