-- ==== Sys2Proof/Machine/Power.lean ====
section
/-!
DEFINITION. The power block: governor levels, the VDD_C request, droop, canaries, lockstep (16 R406 to R413).
-/

namespace Sys2Proof.Machine

/-- PWR_GNT_CHANGE (16 R412): the level of pcp_pwr_gnt, while the ports are the core's (15 R397). -/
def execPwrGntChange (level : BitVec 4) (s : State) : Host.Outcome State Fault Refusal :=
  .next (if s.tp.testMode then s else s.setRf 0x6008 15 12 level.toNat)

/-- Does the power block work: after RESET_DONE (01 R17), its ports not taken by the wrapper (15 R397)? -/
def State.powerOn (s : State) : Bool := s.rb 8 0 && !s.tp.testMode

/-- The level that passes of a format pair need, by the pair's products per cell (18 Table 18-4): BF16 10, FP8 11, FP4 12, TRN
and INT2 13. Log entry 137, DESIGN CHOICE. -/
def pairLevel (w n : Option Feed) : Nat :=
  match w, n with
  | some w, some n => match pairP (feedFmt w) (feedFmt n) with
    | some 8 => 13
    | some 4 => 12
    | some 2 => 11
    | _ => 10
  | _, _ => 10

/-- The levels of the array passes that run and wait. -/
def State.passLevels (s : State) : List Nat :=
  (s.arr.running.map fun p => pairLevel p.west p.north) ++
  s.arr.waiting.map fun p => pairLevel (s.feedAt false (p.c.f 27 26)) (s.feedAt true (p.c.f 25 24))

/-- The level that the issued work needs (16 R411, 18 Table 18-4): the highest of its array passes, VE work and idling. -/
def State.workLevel (s : State) : Nat := s.passLevels.foldl max (if s.vec.ve.isEmpty then 3 else 6)

/-- Is the activity one of the rows of 18 Table 18-4: idle, VE work only, passes of one level, or FP4 passes with VE work? Any other
mixture is bounded by the row of the worst case only. Log entry 137, DESIGN CHOICE. -/
def State.tableRow (s : State) : Bool :=
  s.passLevels.isEmpty || (s.passLevels.all (· = s.workLevel) && (s.vec.ve.isEmpty || decide (s.workLevel = 12)))

/-- Does a unit spin (01 R26): a stream at a queue, a ticket, a barrier or an MWAIT (one that waits for lock too), or a DMA channel at a
queue context? -/
def State.spins (s : State) : Bool :=
  [s.sA, s.sX].any (fun t => t.wait.isSome || t.lockWait) || s.chans.any fun p => p.2.any (·.waiting)

/-- The least and the greatest level that pcp_pwr_req moves toward (16 R411): the work's, or up to the worst case where the work is no
row of the table, capped by LIMIT; a waiting unit does not lower it (01 R26). Log entry 137, DESIGN CHOICE. -/
def State.pwrLow (s : State) : Nat :=
  min (s.rf 0x6000 11 8) (if s.spins then max s.workLevel (s.rf 0x6008 11 8) else s.workLevel)
def State.pwrHigh (s : State) : Nat := if s.tableRow then s.pwrLow else s.rf 0x6000 11 8

/-- PWR_REQ_STEP (16 R411): pcp_pwr_req moves by one step toward a level between the two. -/
def execPwrReqStep (level : BitVec 4) (s : State) : Host.Outcome State Fault Refusal :=
  let r := s.rf 0x6008 11 8
  let k := level.toNat
  .next <| if s.powerOn && ((k = r + 1 && decide (r < s.pwrHigh)) || (k + 1 = r && decide (s.pwrLow < r))) then s.setRf 0x6008 11 8 k else s

/-- The code that pcp_vddc_req moves to (16 R410); the test of the canary lines holds every threshold at 15 (14 Table 14-7). -/
def State.vddcTarget (s : State) : Nat :=
  let cth := fun n => if s.bist = some 0x0E then 15 else s.rf (calSect n) 3 0
  min 0x3C (s.rf 0x6000 19 14 + 2 * max (max (cth 0) (cth 1)) (max (cth 2) (cth 3)))

/-- VDDC_REQ_STEP (16 R410): one step toward the target, after RESET_DONE. -/
def execVddcReqStep (s : State) : Host.Outcome State Fault Refusal :=
  let v := s.rf 0x6008 23 18
  let t := s.vddcTarget
  .next <| if !s.powerOn then s
    else if v < t then s.setRf 0x6008 23 18 (v + 1)
    else if t < v then s.setRf 0x6008 23 18 (v - 1)
    else s

/-- Does the root run, in a wipe too, with the ports the core's (15 R371, R397)? -/
def State.rootRuns (s : State) : Bool := s.pins.aclkLocked && !s.pins.coldLow && !s.pins.warmLow && !s.tp.testMode

/-- pcp_droop_warn falls once no sector trips and 8 ac have passed since the last trip ended (16 R413), unless the wrapper has the
port (15 R397). -/
def State.settleDroop (s : State) : State :=
  if s.rb 0x6008 2 && s.pins.tripping.isEmpty && s.pins.droopAc = 0 && !s.tp.testMode then s.setRf 0x6008 2 2 0 else s

/-- DROOP_TRIP (16 R413, Table 16-8): pcp_droop_warn rises. -/
def execDroopTrip (sec : BitVec 2) (s : State) : Host.Outcome State Fault Refusal :=
  let n := sec.toNat
  .next <| if !s.rootRuns || s.pins.tripping.contains n then s
    else { ((s.incRf (sectOff n) 15 0).setRf 0x6008 2 2 1) with pins := { s.pins with tripping := s.pins.tripping ++ [n] } }

/-- DROOP_TRIP_END (16 R413): the sector no longer trips; the warning holds for 8 ac more. -/
def execDroopTripEnd (sec : BitVec 2) (s : State) : Host.Outcome State Fault Refusal :=
  .next <| if !s.rootRuns || !s.pins.tripping.contains sec.toNat then s
    else { s with pins := { s.pins with tripping := s.pins.tripping.filter (· ≠ sec.toNat), droopAc := 8 } }

/-- STR of a sector: its stretched cycles of the last 256 root cycles (16 R406). -/
def State.strOf (s : State) (n : Nat) : Nat := (s.pins.stretched.filter fun p => p.1 = n).length

/-- Stretch the cycle of a sector (0 to 3) or of the guard strip (4); in lockstep every sector stretches with it (16 R406, R408). -/
def State.stretch (s : State) (n : Nat) : State :=
  let who := ((if s.rb 0x6008 0 then upto 4 else []) ++ [n]).dedup.filter fun k => !s.pins.stretched.contains (k, 0)
  { s with pins := { s.pins with stretched := s.pins.stretched ++ who.map fun k => (k, 0) } }

/-- CANARY_STRETCH (16 R406): the next cycle of a sector or of the guard strip lasts two root periods, in a wipe too (Table 16-8). Log
entry 102, DEDUCED. -/
def execCanaryStretch (strip : BitVec 3) (s : State) : Host.Outcome State Fault Refusal :=
  .next (if strip.toNat > 4 || !s.rootRuns then s else s.stretch strip.toNat)

/-- Does a sector stretch one cycle in 8, its droop detector under test (14 Table 14-7), or that or its canary set failed (R368)? It
does in a cycle when none of its last 7 was stretched. Log entry 140, DESIGN CHOICE. -/
def State.eighthDue (s : State) (n : Nat) : Bool :=
  (decide (s.bist = some (2 + n)) || s.sectHeld n) && !s.pins.stretched.any fun p => decide (p.1 = n) && decide (p.2 < 8)

/-- One root cycle of the stretchers: a tripping sector stretches on every cycle (16 R413), one under test or failed on each eighth (14
R366, R368), a cycle in which any stretches counts (17 R432), and those of the last 256 root cycles stay (16 R406). -/
def State.stretchTick (s : State) : State :=
  let s := (s.pins.tripping ++ (upto 4).filter s.eighthDue).foldl State.stretch s
  let s := if s.pins.stretched.any fun p => p.2 = 0 then s.perf 15 1 else s
  let s := { s with pins := { s.pins with droopAc := s.pins.droopAc - 1 } }.settleDroop
  if s.pins.stretched.isEmpty then s
  else { s with pins := { s.pins with stretched := (s.pins.stretched.map fun p => (p.1, p.2 + 1)).filter fun p => decide (p.2 < 256) } }

/-! ### Lockstep (16 R407, R408) -/

def spread (l : List Int) : Int :=
  match l with
  | x :: r => r.foldl max x - r.foldl min x
  | [] => 0

/-- Does a spread of what SECT.n report pass its limit (16 R407)? -/
def State.pastLimits (s : State) : Bool :=
  let q := fun (f : Nat → Int) => spread ((upto 4).map f)
  decide (q (fun n => sgn 12 (s.rf (sectOff n) 63 52)) > 160) || decide (q (fun n => (s.rf (sectOff n) 47 36 : Nat)) > 35) ||
  decide (q (fun n => (s.strOf n : Nat)) > 16)

/-- The sensors' readings in SECT.n: a sensor under test holds its reading (14 Table 14-7), a failed one reports the highest of the
others plus 10 °C (R368). -/
def State.putReadings (s : State) (l : List SectReading) : State :=
  let s := l.zipIdx.foldl (fun s (r, n) =>
    if n ≥ 4 then s else
    let s := if s.bist = some (6 + n) then s else s.setRf (sectOff n) 63 52 r.temp.toNat
    if s.bist = some (0x0A + n) then s else s.setRf (sectOff n) 47 36 r.vmeas.toNat) s
  ((upto 4).filter fun n => s.pins.dead.contains (6 + n)).foldl State.showHottest s

/-- LOCKSTEP_ENTER (16 R408): the readings of the four sectors; where a spread passes its limit, the stretchers couple. -/
def execLockstepEnter (sectors : List SectReading) (s : State) : Host.Outcome State Fault Refusal :=
  .next <| if sectors.length ≠ 4 || !s.rb 8 0 then s else
    let s := s.putReadings sectors
    if s.rb 0x6008 0 || !s.pastLimits then s
    else (((s.setRf 0x6008 0 0 1).setRf 0x6008 1 1 1).incRf 0x6008 47 32).raise evSectorSkew

/-- LOCKSTEP_EXIT (16 R408): every spread has stayed within its limit for 1 ms. -/
def execLockstepExit (s : State) : Host.Outcome State Fault Refusal := .next (if s.pastLimits then s else s.setRf 0x6008 0 0 0)

end Sys2Proof.Machine
end

