-- ==== Sys2Proof/Machine/Reset.lean ====
section
/-!
DEFINITION. Cold and warm reset, the end of a wipe (16 R399 to R404), lifecycle changes (R414 to R417), key deliveries
(15 R393).
-/

namespace Sys2Proof.Machine

def modPins (s : State) (f : Pins → Pins) : State := { s with pins := f s.pins }

/-! ### Cold and warm reset -/

/-- What both resets do when they assert: the outputs take their reset values, the state is lost but for what the cause keeps. Log entry 98, DEDUCED. -/
def State.assertReset (s : State) (c : WipeCause) : State :=
  let s := s.wiped c
  let s := modPins s fun p => { p with stopReady := false, fpUp := false, kpAck := false, kpErr := false, tripping := [], stretched := [], droopAc := 0, unlockAc := false }
  (s.setRf 0x388 0 0 0).setRf 8 9 8 (if c = .cold then 0 else 1)

/-- COLD_RESET_ASSERT (16 R400). -/
def execColdResetAssert (s : State) : Host.Outcome State Fault Refusal :=
  let s := s.assertReset .cold
  .next { modPins s fun p => { p with coldLow := true, aclkLocked := false, dead := [], multUsed := 14, multWas := 14 } with tp := { s.tp with testMode := false, out := none } }

/-- COLD_RESET_RELEASE (16 R400, 15 R392): the straps are latched, the generator starts. -/
def execColdResetRelease (straps : Straps) (s : State) : Host.Outcome State Fault Refusal :=
  .next <| if s.pins.coldLow then
    let s := modPins s fun p => { p with coldLow := false }
    s.wr 0x18 (BitVec.ofNat 64 (straps.feed.toNat * 2 ^ 24 + straps.pkg.toNat * 2 ^ 8 + straps.die.toNat * 64 + straps.core.toNat))
  else s

/-- The maps of every class apply, and the wipe begins (16 R401, R403). -/
def State.startWipe (s : State) : State :=
  let s := (s.resetMaps [0, 1, 2, 3, 4, 5, 6, 7, 8]).beginWipe none
  modPins s fun p => { p with stopReady := !s.tp.testMode }

/-- ACLK_LOCK (16 R400, R401): the generator locks at the multiplier of PWR.CFG, and the wipe begins. -/
def execAclkLock (s : State) : Host.Outcome State Fault Refusal :=
  .next <| if !s.pins.aclkLocked && !s.pins.coldLow && !s.pins.warmLow then
    (modPins s fun p => { p with aclkLocked := true, multUsed := if p.dead.contains 1 then 1 else s.rf 0x6000 23 20 }).startWipe
  else s

/-- WARM_RESET_ASSERT (16 R401). -/
def State.warmAssert (s : State) : State := modPins (s.assertReset .warm) fun p => { p with warmLow := true }
def execWarmResetAssert (s : State) : Host.Outcome State Fault Refusal :=
  .next (if s.pins.coldLow then modPins s fun p => { p with warmLow := true } else s.warmAssert)

/-- WARM_RESET_RELEASE (16 R401): the generator relocks first where MULT has changed. -/
def State.warmRelease (s : State) : State :=
  if !s.pins.warmLow then s else
  let s := modPins s fun p => { p with warmLow := false }
  if !s.pins.aclkLocked then s
  else if s.pins.multUsed ≠ s.rf 0x6000 23 20 && !s.pins.dead.contains 1 then modPins s fun p => { p with aclkLocked := false }
  else s.startWipe
def execWarmResetRelease (s : State) : Host.Outcome State Fault Refusal :=
  .next (if s.pins.coldLow then modPins s fun p => { p with warmLow := false } else s.warmRelease)

/-- ID_RESET_KEY (16 R399): 0xA5 acts as pcp_warm_rst_n held low for 1 µs, in which the bypass cell closes. Log entry 100, DEDUCED. -/
def State.resetKey (s : State) (key : Nat) : State :=
  if key = 0xA5 then modPins s.warmAssert.warmRelease fun p => { p with bypassClosed := true } else s
def execIdResetKey (key : Byte) (s : State) : Host.Outcome State Fault Refusal := .next (s.atHost 0x10 fun s => s.resetKey key.toNat)

/-- May a unit that failed its verify twice be mapped out (16 R404)? -/
def State.mappable (s : State) (f : FailedUnit) : Bool := decide (f.cls ≤ 8) && s.rb 0x5000 0

/-- WIPE_COMPLETE (16 R403, R404): `fails` are the units with a word that failed verify twice. Each that can be is marked, several columns and
rows too, and its class's map applies; the wipe goes on where each was, else WIPEFAIL sets. With none, RESET_DONE rises, and after a reset fp_up. -/
def execWipeComplete (fails : List FailedUnit) (s : State) : Host.Outcome State Fault Refusal :=
  .next <| if !s.rb 8 1 then s
  else if fails.isEmpty then
    let s := (s.setRf 8 1 1 0).setRf 8 0 0 1
    if s.rf 0x388 1 0 ≠ 0 || s.tp.testMode then s
    else (modPins s fun p => { p with fpUp := true }).setRf 0x388 0 0 1
  else
    let s := fails.foldl (fun s f => if s.mappable f then s.setMark f.cls f.unit else s) s
    let marked := fun (f : FailedUnit) => s.mappable f && (s.marks f.cls).contains f.unit
    let s := s.resetMaps ((fails.filter marked).map (·.cls)).dedup
    if fails.all marked then s else (s.setRf 8 1 1 0).setRf 8 2 2 1

/-! ### Lifecycle (16 R415 to R417) -/

def State.reqErr (s : State) : State := s.setRf 0x7008 1 1 1

/-- Enter a lifecycle state, with its wipe. -/
def State.enterLcs (s : State) (n : Nat) : State := (s.setRf 8 15 13 n).liveWipe .lifecycle

/-- A request of LC.CTRL (16 Table 16-5). RETIRED in the ac of an unlock shares its wipe (Table 16-8). Log entry 101, DEDUCED. -/
def State.lcReq (s : State) (req confirm : Nat) : State :=
  if s.pins.unlockAc && req = 4 && confirm = 0xC3 && s.lcs = 3 then s.setRf 8 15 13 4
  else if s.rb 8 1 then s.reqErr
  else if req = 1 && s.lcs = 0 then s.enterLcs 1
  else if req = 2 && s.lcs = 1 then s.enterLcs 2
  else if req = 3 && s.lcs = 2 && decide (s.rf 0x7008 15 8 < 3) then s.setRf 0x7008 2 2 1
  else if req = 4 && decide (s.lcs < 4) && confirm = 0xC3 then s.enterLcs 4
  else s.reqErr

/-- LC_PROVISION (16 R415). -/
def execLcProvision (s : State) : Host.Outcome State Fault Refusal := .next (s.atHost 0x7000 fun s => s.lcReq 1 0)
/-- LC_SECURE (16 R415). -/
def execLcSecure (s : State) : Host.Outcome State Fault Refusal := .next (s.atHost 0x7000 fun s => s.lcReq 2 0)
/-- LC_UNLOCK (16 R417). -/
def execLcUnlock (s : State) : Host.Outcome State Fault Refusal := .next (s.atHost 0x7000 fun s => s.lcReq 3 0)
/-- LC_RETIRE (16 R415). -/
def execLcRetire (confirm : Byte) (s : State) : Host.Outcome State Fault Refusal :=
  .next (s.atHost 0x7000 fun s => s.lcReq 4 confirm.toNat)

/-- A mismatch or a timeout ends the wait for a token (16 R417). -/
def State.unlockFail (s : State) : State := ((s.setRf 0x7008 2 2 0).setRf 0x7008 3 3 1).incRf 0x7008 15 8

/-- UNLOCK_TIMEOUT (16 R417). -/
def execUnlockTimeout (s : State) : Host.Outcome State Fault Refusal := .next (if s.rb 0x7008 2 then s.unlockFail else s)

/-! ### Key deliveries (15 R393) -/

def hashBytes (s : State) : List Byte := (upto 6).flatMap fun i => leBytes 8 (s.rd (0x7010 + 8 * i)).toNat

/-- Does a token match (16 R417)? -/
def State.tokenOk (s : State) (words : List W64) : Bool :=
  let h := hashBytes s
  h.any (· ≠ 0) && decide (sha384 ((words.flatMap fun w => leBytes 8 w.toNat) ++ leBytes 3 s.place) = h)

/-- Log entry 96, DEDUCED. -/
def State.keyAck (s : State) : State := modPins s fun p => { p with kpAck := true, kpErr := false }
def State.keyErr (s : State) : State := (modPins s fun p => { p with kpAck := false, kpErr := true }).setRf 0x7008 4 4 1

/-- A reset holds the core, from its assertion to RESET_DONE: its port is neither up nor taken down. -/
def State.inReset (s : State) : Bool := s.pins.coldLow || s.pins.warmLow || !s.pins.aclkLocked || (!s.rb 8 0 && decide (s.rf 0x388 1 0 = 0))

/-- KEY_DELIVERY (15 R393): the words up to kp_last, while the key port is the core's (R397). -/
def execKeyDelivery (kind : BitVec 2) (words : List W64) (s : State) : Host.Outcome State Fault Refusal :=
  .next <| if s.inReset || s.tp.testMode then s
  else if words.length ≠ 4 || kind.toNat ≥ 2 || s.lcs = 4 then s.keyErr
  else if kind = 0 then
    let k : BitVec 256 := BitVec.ofNat 256 (leNat (words.flatMap fun w => leBytes 8 w.toNat))
    (({ s with cke := { s.cke with key := some k, keyed := true } }).setRf 0x1830 31 0 0).keyAck
  else if s.rb 0x7008 2 then (if s.tokenOk words then modPins (s.enterLcs 3) fun p => { p with unlockAc := true } else s.unlockFail).keyAck
  else s.keyAck

end Sys2Proof.Machine
end

