-- ==== Sys2Proof/Machine/Ring.lean ====
section
/-!
DEFINITION. The ring stop and the bypass cell (15 R385 to R391), time updates as they pass (10 R262).
-/

namespace Sys2Proof.Machine

/-! ### Packets (15 Tables 15-6, 15-7) -/

def pkType (h : W64) : Nat := fld h 63 60
def pkDest (h : W64) : Nat := fld h 59 54
def pkSrc (h : W64) : Nat := fld h 53 48
def pkTag (h : W64) : Nat := fld h 47 40
def pkOff (h : W64) : Nat := fld h 31 16

/-- CRC of a packet: header bits [63:16], then every word from bit 63 down (15 R385). -/
def packetCrc (h : W64) (ws : List W64) : W16 := crc16 (bitsDown h 63 16 ++ ws.flatMap fun w => bitsDown w 63 0)
def sealPacket (h : W64) (ws : List W64) : List W64 := putFld h 15 0 (packetCrc h ws).toNat :: ws
def packetOk (h : W64) (ws : List W64) : Bool := decide ((packetCrc h ws).toNat = fld h 15 0)

/-- The core's number on the ring: the core field of its place. -/
def State.stopNo (s : State) : Nat := s.rf 0x18 5 0

def State.ringOut (s : State) (p : List W64) : State := { s with ring := { s.ring with out := s.ring.out ++ [p] } }

/-- Does the stop take part in the ring? -/
def State.stopOpen (s : State) : Bool := s.pins.stopReady && !s.pins.bypassClosed

/-- Log entry 94, DEDUCED. -/
def State.crcErr (s : State) : State := s.incRf 0x3C8 31 16

/-- AGE of a TIME packet with some time added, saturating. -/
def agedTime (h : W64) (add : Nat) : W64 := putFld h 35 16 (min 0xFFFFF (fld h 35 16 + add))

/-- TIME (15 R387, 10 R262, R266): the packet goes on with the stop's delay and `waited` cycles in the insertion buffer
added, and the update disciplines the meridian. -/
def execTime (hdr tick : W64) (waited : Nat) (s : State) : Host.Outcome State Fault Refusal :=
  .next <| if !s.stopOpen || pkType hdr ≠ 4 then s
  else if !packetOk hdr [tick] then s.crcErr.ringOut [hdr, tick]
  else
    let s := s.ringOut (sealPacket (agedTime hdr (s.rf 0x3C0 7 0 + waited * s.rf 0x3C0 15 8)) [tick])
    s.merUpdate tick (fld hdr 35 16)

/-- Does a packet of these words end at this stop? -/
def State.isMine (s : State) (h : W64) : Bool := (pkType h = 1 || pkType h = 2) && decide (pkDest h = s.stopNo)

/-- RING_FORWARD (15 R385 to R387): any other packet goes on unchanged. A failed CRC counts, and a failed packet addressed to this
core is removed. -/
def execRingForward (words : List W64) (s : State) : Host.Outcome State Fault Refusal :=
  .next <| match words with
  | [] => s
  | h :: ws =>
    if !s.stopOpen || s.isMine h || pkType h = 4 then s
    else
      if packetOk h ws then s.ringOut words
      else if pkDest h = s.stopNo then s.crcErr
      else s.crcErr.ringOut words

/-- EVENT (15 R388): the packet of the oldest source that became pending. -/
def execEvent (s : State) : Host.Outcome State Fault Refusal :=
  .next <| match s.ring.ev with
  | src :: r =>
    if !s.stopOpen then s
    else
      let h := BitVec.ofNat 64 (6 * 2 ^ 60 + s.rf 0x3C0 29 24 * 2 ^ 54 + s.stopNo * 2 ^ 48 + src * 2 ^ 16)
      ({ s with ring := { s.ring with ev := r } }).ringOut (sealPacket h [])
  | [] => s

/-- TRACE (15 R388): a packet leaves the trace buffer, behind every EVENT. -/
def execTrace (s : State) : Host.Outcome State Fault Refusal :=
  .next <| match s.ring.tr, s.ring.ev with
  | (h :: ws) :: r, [] =>
    if !s.stopOpen then s
    else
      let h := putFld (putFld h 59 54 (s.rf 0x3C0 23 18)) 53 48 s.stopNo
      ({ s with ring := { s.ring with tr := r } }).ringOut (sealPacket h ws)
  | _, _ => s

/-! ### The bypass cell (15 R389 to R391) -/

/-- BYPASS_CLOSE (15 R389). -/
def execBypassClose (s : State) : Host.Outcome State Fault Refusal :=
  .next <| if s.pins.stopReady then s else modPins s fun p => { p with bypassClosed := true }

/-- BYPASS_OPEN (15 R391). -/
def execBypassOpen (s : State) : Host.Outcome State Fault Refusal :=
  .next <| if s.pins.stopReady then modPins s fun p => { p with bypassClosed := false } else s

/-- A response to a CSR request (15 Tables 15-6, 15-7): `data` for a read with STATUS OK. -/
def csrResponse (h : W64) (self status : Nat) (data : Option W64) : List W64 :=
  let ws := data.toList
  sealPacket (BitVec.ofNat 64 (3 * 2 ^ 60 + pkSrc h * 2 ^ 54 + self * 2 ^ 48 + pkTag h * 2 ^ 40 + ws.length * 2 ^ 36 +
    status * 2 ^ 32 + pkOff h * 2 ^ 16)) ws

/-- BYPASS_CSR_REQUEST (15 R390): the closed cell answers ABSENT; a write's data word is blanked. -/
def execBypassCsrRequest (hdr _data : W64) (s : State) : Host.Outcome State Fault Refusal :=
  .next <| if s.pins.bypassClosed && s.isMine hdr then s.ringOut (csrResponse hdr s.stopNo 1 none) else s

/-- BYPASS_FORWARD (15 R390): every other word passes the closed cell's register stage. -/
def execBypassForward (ageAdd : Byte) (words : List W64) (s : State) : Host.Outcome State Fault Refusal :=
  .next <| match words with
  | [] => s
  | h :: ws =>
    if !s.pins.bypassClosed || s.isMine h then s
    else if pkType h = 4 then s.ringOut (sealPacket (agedTime h ageAdd.toNat) ws)
    else s.ringOut words

end Sys2Proof.Machine
end

