-- ==== Sys2Proof/Machine/HostPort.lean ====
section
/-!
DEFINITION. Host accesses to the window (00 R12 to R15, 15 R386, 17 R422 to R436): what each register reads, what each write
does, the rows of the registers that have one, CSR_RD and CSR_WR.
-/

namespace Sys2Proof.Machine

/-! ### Writes with an effect of their own -/

/-- STRM.CTRL (07 R204): the highest action acts, the others set IGN. -/
def State.strmCtrlWrite (s : State) (st : Sid) (v : W64) : State :=
  let s := s.setRf (strmBase st) 8 8 (fld v 8 8)
  let n := b2n (bit v 0) + b2n (bit v 1) + b2n (bit v 2) + b2n (bit v 3)
  let s :=
    if bit v 3 then s.resetStream st
    else if bit v 2 then s.haltStream st
    else if bit v 1 then s.stopStream st
    else if bit v 0 then (s.startStream st).1
    else s
  if n > 1 then s.ignore st else s

/-- CSU.SHADOWn (11 R301). -/
def State.shadowWrite (s : State) (st : Sid) (v : W64) : State :=
  let o := 0x1400 + 8 * sidNat st
  let p := 0x1400 + 8 * sidNat (otherSid st)
  let base := fld v 23 12
  let size := fld v 44 32
  let pb := s.rf p 23 12
  let ps := s.rf p 44 32
  if s.cA.st ≠ .idle || s.cX.st ≠ .idle || decide (base + size > 4096) || decide (size + ps > 1024) ||
     (decide (size ≠ 0) && decide (ps ≠ 0) && decide (base < pb + ps) && decide (pb < base + size)) then s.setRf 0x1418 11 11 1
  else s.plainWrite o v

/-- Is a round of a vote group undecided at this core (11 R290)? -/
def State.roundOpen (s : State) (vg : Nat) : Bool := !(s.openRounds vg).isEmpty

/-- Does a group's range cover a child entry? The range wraps as the entries that it tells do. -/
def State.vgCovers (s : State) (vg i : Nat) : Bool :=
  (upto (fld (vgW0 s vg) 46 40)).any fun k => decide ((fld (vgW0 s vg) 52 47 + k) % 64 = i)

/-- CSU.VGn and CSU.VCHILDi (11 R290). -/
def State.vgWrite (s : State) (off : Nat) (v : W64) : State :=
  let hit :=
    if off < 0x1600 then s.roundOpen ((off - 0x1500) / 16)
    else
      let i := (off - 0x1600) / 8
      (upto 16).any fun n => s.roundOpen n && s.vgCovers n i
  if hit then s.setRf 0x1418 11 11 1 else s.plainWrite off v

def isVgReg (off : Nat) : Bool := decide (0x1500 ≤ off) && decide (off < 0x1800)

/-- The repair record (14 R361). -/
def isRecord (off : Nat) : Bool := (decide (0x5020 ≤ off) && decide (off < 0x5098)) || (decide (0x5100 ≤ off) && decide (off < 0x5200))
def State.recordWrite (s : State) (off : Nat) (v : W64) : State := if s.lcs = 4 then s.deny else s.plainWrite off v

/-- DBG.MODE (09 R256, 16 Table 16-4). -/
def State.modeWrite (s : State) (v : W64) : State :=
  let m := fld v 1 0
  if (decide (m ≠ 0) && decide (s.lcs = 4)) || ((m = 1 || m = 2) && decide (s.lcs = 2)) then s.deny else s.setRf 0x8080 1 0 m

/-- EV.TEST (17 R426). -/
def State.testEvents (s : State) (v : W64) : State := (upto 32).foldl (fun s i => if bit v i then s.raise i else s) s

/-- PERF.CTRL.CLEAR (17 R432). -/
def State.clearPerf (s : State) : State := (upto 16).foldl (fun s n => s.wr (0x9100 + 8 * n) 0) (s.wr 0x9008 0)

/-- SPM.ECCCNT word k (17 R428). -/
def State.eccCntWrite (s : State) (k : Nat) (v : W64) : State :=
  let s' := s.plainWrite (0x180 + 8 * k) v
  let bank := s.rf 0x148 23 0 / 128 % 32
  let zero := fun (h : Nat) => decide (fld v (32 * h + 15) (32 * h) = 0)
  if s.rb 0x148 63 && ((bank = 2 * k && zero 0) || (bank = 2 * k + 1 && zero 1)) then s'.setRf 0x148 63 63 0 else s'

/-- A valid index of REP.WSEL (14 Table 14-8). -/
def wselOk (i : Nat) : Bool :=
  decide (i ≤ 0x83) || (decide (0x100 ≤ i) && decide (i ≤ 0x183)) || (decide (0x200 ≤ i) && decide (i ≤ 0x307)) ||
  (decide (0x380 ≤ i) && decide (i ≤ 0x3C3)) || (decide (0x3D0 ≤ i) && decide (i ≤ 0x3E0))

def State.wearWrite (s : State) (v : W64) : State :=
  let i := s.rf 0x5200 9 0
  if wselOk i then { s with rep := { s.rep with wear := tmod ⟨0, none, false⟩ s.rep.wear i fun w => { w with count := fld v 15 0 } } } else s

/-- A tracker slot's window (17 R431): a 1 to SAT clears it. -/
def State.trkWrite (s : State) (off : Nat) (v : W64) : State :=
  let n := (off - 0x3000) / 0x40
  let r := (off - 0x3000) % 0x40
  if r ≥ 0x18 && bit v 63 then s.modTrk n fun t => { t with sat := t.sat.set ((r - 0x18) / 8) false } else s

/-- IMEM.CTRL.SWITCH (09 R244). In the ac in which an IMEM_SWITCH event fires the event applies first, and the write is refused (Table 9-11). -/
def State.switchWrite (s : State) : State :=
  if (upto 16).any fun n => s.slotDue n && decide (s.rf (merCtrl n) 9 7 = 1) then ((upto 16).foldl State.fireSlot s).setRf 0x208 1 1 1
  else s.hostSwitch

/-- Every write, by its offset. -/
def State.hostWrite (s : State) (off : Nat) (v : W64) : State :=
  if off = 0x10 then s.resetKey (fld v 7 0)
  else if off = 0x120 then s.testEvents v
  else if off = 0x158 then s.barWrite false v
  else if off = 0x160 then s.barWrite true v
  else if 0x180 ≤ off && off < 0x200 then s.eccCntWrite ((off - 0x180) / 8) v
  else if off = 0x200 then (if bit v 0 then s.switchWrite else s)
  else if off = 0x220 then s.haddrWrite v
  else if off = 0x238 then s.htagWrite v
  else if off = 0x400 then s.strmCtrlWrite .a v
  else if off = 0x500 then s.strmCtrlWrite .x v
  else if 0x1100 ≤ off && off < 0x1300 && off % 0x20 = 8 then s.slotCtrlWrite ((off - 0x1100) / 0x20) v
  else if off = 0x1400 then s.shadowWrite .a v
  else if off = 0x1408 then s.shadowWrite .x v
  else if isVgReg off then s.vgWrite off v
  else if off = 0x1800 then s.ckeCtrlWrite v
  else if isCkeConfig off then s.ckeConfig off v
  else if off = 0x2008 then s.writeW0 (s.rf 0x2000 11 0) v
  else if off = 0x2010 then s.writeW1 (s.rf 0x2000 11 0) v
  else if off = 0x2018 && ctxUnusable (s.rf 0x2000 11 0) then s.qsyDeny 0
  else if off = 0x2020 then s.writeW3 (s.rf 0x2000 11 0) v
  else if 0x3000 ≤ off && off < 0x4000 then s.trkWrite off v
  else if off = 0x4200 then s.postAckWrite v
  else if isRecord off then s.recordWrite off v
  else if off = 0x5208 then s.wearWrite v
  else if off = 0x5800 then (if bit v 8 then s.startBist (fld v 5 0) else s.plainWrite off v)
  else if 0x5890 ≤ off && off < 0x58B0 then
    let n := (off - 0x5890) / 8
    let s := s.plainWrite off v
    if s.sectHeld n then s.setRf off 3 0 15 else s
  else if off = 0x6000 then s.plainWrite off (if fld v 23 20 < 8 then putFld v 23 20 (s.rf off 23 20) else v)
  else if off = 0x7000 then s.lcReq (fld v 2 0) (fld v 15 8)
  else if off = 0x8080 then s.modeWrite v
  else if off = 0x9000 then
    let s := s.plainWrite off v
    if bit v 0 then s.clearPerf else s
  else s.plainWrite off v

/-! ### Reads -/

/-- REP.STATUS (14 Table 14-8). Log entry 91, DEDUCED. -/
def State.repStatus (s : State) : W64 :=
  let sp := fun c => spareCount c - (s.marks c).length
  BitVec.ofNat 64 (sp 0 * 2 ^ 37 + sp 1 * 2 ^ 34 + sp 2 * 2 ^ 30 + sp 3 * 2 ^ 28 + sp 4 * 2 ^ 27 + sp 5 * 2 ^ 24 + sp 6 * 2 ^ 18 +
    sp 7 * 2 ^ 13 + sp 8 * 2 ^ 8 + b2n (s.rb 0x5010 3) * 8 + b2n s.arrPend * 4 + b2n s.resetPend * 2 + b2n s.livePend)

/-- REP.CRC (14 R361). -/
def State.repCrc (s : State) : W32 :=
  let offs := ((upto 15).map fun i => 0x5020 + 8 * i) ++ (upto 32).map fun i => 0x5100 + 8 * i
  crc32 (offs.flatMap fun o => leBytes 8 (s.rd o).toNat)

def merCode : MerState → Nat | .unlocked => 0 | .locked => 1 | .holdover => 2

/-- A register of a tracker slot (17 Table 17-7), with no parity check: log entry 149, DESIGN CHOICE. -/
def State.trkRead (s : State) (off : Nat) : W64 :=
  let t := s.trkAt ((off - 0x3000) / 0x40)
  match (off - 0x3000) % 0x40 with
  | 0 => t.scfg
  | 8 => BitVec.ofNat 64 (t.next.toNat * 2 ^ 32 + t.cur.toNat)
  | 0x10 => BitVec.ofNat 64 (t.amax.toNat * 2 ^ 32 + t.status)
  | r => BitVec.ofNat 64 (b2n (t.sat.getD ((r - 0x18) / 8) false) * 2 ^ 63 + t.cnt.getD ((r - 0x18) / 8) 0)

/-- The bits that a read of a register shows: none of a reserved or a WO field (00 R12, R14), none where no register is defined (R15). -/
def readMask (off : Nat) : W64 := (regFields off).foldl (fun w f => if f.acc = .wo then w else putFld w f.hi f.lo (2 ^ 64 - 1)) 0
/-- A stored register as a read shows it. -/
def State.shown (s : State) (off : Nat) : W64 := s.rd off &&& readMask off

/-- A register of a stream's control block that is no stored word (07 Tables 7-11, 7-12). -/
def State.strmRead (s : State) (st : Sid) (r : Nat) : W64 :=
  let t := s.str st
  if r = 8 then putFld (putFld (s.shown (strmBase st + 8)) 2 0 (stCode t.st)) 23 21 t.loops.length
  else if r = 0x18 then BitVec.ofNat 64 t.pc.toNat
  else if r = 0x20 then t.cc
  else if 0x28 ≤ r && r ≤ 0x40 then BitVec.ofNat 64 (t.lcn ((r - 0x28) / 8)).toNat
  else s.shown (strmBase st + r)

/-- What a read of an aligned offset returns (00 R12, R14, R15). Log entry 77, DEDUCED. Log entry 95, DEDUCED. -/
def State.hostRead (s : State) (off : Nat) : W64 :=
  if off = 0x158 then s.barRead false
  else if off = 0x160 then s.barRead true
  else if off = 0x3A0 then
    BitVec.ofNat 64 ((s.fab.writes.filter fun r => !r.dead).length * 2 ^ 16 + (s.fab.reads.filter fun r => !r.dead).length)
  else if 0x400 ≤ off && off < 0x500 then s.strmRead .a (off - 0x400)
  else if 0x500 ≤ off && off < 0x600 then s.strmRead .x (off - 0x500)
  else if off = 0x1000 then putFld (putFld (s.shown off) 1 0 (merCode s.mer.st)) 6 6 (b2n s.mer.slewing)
  else if off = 0x1008 then s.now
  else if off = 0x1418 then putFld (putFld (s.shown off) 2 0 (csCode s.cA.st)) 6 4 (csCode s.cX.st)
  else if off = 0x1430 then BitVec.ofNat 64 (if s.cA.st = .idle then 0 else s.cA.log.length + s.cA.left)
  else if off = 0x1438 then BitVec.ofNat 64 (if s.cX.st = .idle then 0 else s.cX.log.length + s.cX.left)
  else if off = 0x1808 then putFld (putFld (s.shown off) 11 11 (b2n s.cke.key.isSome)) 10 10 (b2n s.ckValid)
  else if off = 0x1880 then BitVec.ofNat 64 s.ckNeed
  else if 0x1A00 ≤ off && off < 0x2000 && (off - 0x1A00) % 0x18 = 0x10 then
    BitVec.ofNat 64 (tget 0 (if s.rb 0x1800 2 then s.cke.dlast else s.cke.dirty) ((off - 0x1A00) / 0x18))
  else if off = 0x2008 then s.readW0 (s.rf 0x2000 11 0)
  else if off = 0x2010 then (if ctxUnusable (s.rf 0x2000 11 0) then 0 else (s.ctx (s.rf 0x2000 11 0)).w1)
  else if off = 0x2018 then s.readW2 (s.rf 0x2000 11 0)
  else if off = 0x2020 then s.readW3 (s.rf 0x2000 11 0)
  else if off = 0x2068 then BitVec.ofNat 64 s.minSum
  else if 0x3000 ≤ off && off < 0x4000 then s.trkRead off
  else if 0x6040 ≤ off && off < 0x6060 then putFld (s.shown off) 31 24 (min 255 (s.strOf ((off - 0x6040) / 8)))
  else if off = 0x4210 then BitVec.ofNat 64 (bitsNat ((upto 64).map fun n => s.rb (postOff n) 63))
  else if off = 0x5010 then s.repStatus
  else if off = 0x5018 then BitVec.ofNat 64 s.repCrc.toNat
  else if off = 0x5208 then
    (if wselOk (s.rf 0x5200 9 0) then
      let w := tget ⟨0, none, false⟩ s.rep.wear (s.rf 0x5200 9 0)
      BitVec.ofNat 64 (b2n w.diff * 2 ^ 25 + w.last.getD 0 * 2 ^ 16 + w.count)
    else 0)
  else s.shown off

/-! ### Rows of single registers -/

/-- IMEM_SWITCH (09 R244). -/
def execImemSwitch (s : State) : Host.Outcome State Fault Refusal := .next (s.atHost 0x200 State.switchWrite)
/-- IMEM_HTAG_WRITE (09 R243). -/
def execImemHtagWrite (data : W64) (s : State) : Host.Outcome State Fault Refusal := .next (s.atHost 0x238 fun s => s.htagWrite data)
/-- IMEM_HADDR_WRITE (09 R243). -/
def execImemHaddrWrite (data : W64) (s : State) : Host.Outcome State Fault Refusal := .next (s.atHost 0x220 fun s => s.haddrWrite data)
/-- POST_ACK (07 R194). -/
def execPostAck (data : W64) (s : State) : Host.Outcome State Fault Refusal := .next (s.atHost 0x4200 fun s => s.postAckWrite data)
/-- QCTX_W0_WRITE (06 R143 to R148). -/
def execQctxW0Write (data : W64) (s : State) : Host.Outcome State Fault Refusal :=
  .next (s.atHost 0x2008 fun s => s.writeW0 (s.rf 0x2000 11 0) data)
/-- CSU_SHADOW_WRITE (11 R301). -/
def execCsuShadowWrite (n : Sid) (data : W64) (s : State) : Host.Outcome State Fault Refusal :=
  .next (s.atHost (0x1400 + 8 * sidNat n) fun s => s.shadowWrite n data)
/-- CSU_VG_WRITE (11 R290). -/
def execCsuVgWrite (off : W16) (data : W64) (s : State) : Host.Outcome State Fault Refusal :=
  let o := off.toNat / 8 * 8
  .next (if isVgReg o then s.atHost o fun s => s.vgWrite o data else s)
/-- BAR_WRITE (17 R429). -/
def execBarWrite (w1 : Bool) (data : W64) (s : State) : Host.Outcome State Fault Refusal :=
  .next (s.atHost (if w1 then 0x160 else 0x158) fun s => s.barWrite w1 data)
/-- REP_RECORD_WRITE (14 R361). -/
def execRepRecordWrite (off : W16) (data : W64) (s : State) : Host.Outcome State Fault Refusal :=
  let o := off.toNat / 8 * 8
  .next (if isRecord o then s.atHost o fun s => s.recordWrite o data else s)
/-- DBG_MODE_WRITE (09 R256). -/
def execDbgModeWrite (data : W64) (s : State) : Host.Outcome State Fault Refusal := .next (s.atHost 0x8080 fun s => s.modeWrite data)
/-- EV_TEST_WRITE (17 R426). -/
def execEvTestWrite (data : W64) (s : State) : Host.Outcome State Fault Refusal := .next (s.atHost 0x120 fun s => s.testEvents data)
/-- PERF_CLEAR (17 R432). -/
def execPerfClear (s : State) : Host.Outcome State Fault Refusal := .next (s.atHost 0x9000 State.clearPerf)
/-- SPM_ECCCNT_WRITE (17 R428). -/
def execSpmEcccntWrite (n : BitVec 4) (data : W64) (s : State) : Host.Outcome State Fault Refusal :=
  .next (s.atHost (0x180 + 8 * n.toNat) fun s => s.eccCntWrite n.toNat data)
/-- PERF_COUNTER_WRAP (17 R432): the counter counts on past 2^48 - 1 to 0. -/
def execPerfCounterWrap (n : BitVec 4) (s : State) : Host.Outcome State Fault Refusal :=
  .next (s.perf n.toNat (2 ^ 48 - s.rf (0x9100 + 8 * n.toNat) 47 0))
/-- REGISTER_WRITE (00 R12). -/
def execRegisterWrite (off : W16) (data : W64) (s : State) : Host.Outcome State Fault Refusal :=
  let o := off.toNat / 8 * 8
  .next (s.atHost o fun s => s.hostWrite o data)

/-! ### CSR packets (15 R386) -/

/-- The aligned offset of a request. -/
def reqOff (h : W64) : Nat := pkOff h / 8 * 8
/-- CSR_RD (15 R386). -/
def execCsrRd (hdr : W64) (s : State) : Host.Outcome State Fault Refusal :=
  .next <| if !s.stopOpen || pkType hdr ≠ 1 || !s.isMine hdr then s
  else if !packetOk hdr [] then s.crcErr
  else if s.notReady (reqOff hdr) then (s.incRf 0x3C8 15 0).ringOut (csrResponse hdr s.stopNo 2 none)
  else s.ringOut (csrResponse hdr s.stopNo 0 (some (s.hostRead (reqOff hdr))))

/-- CSR_WR (15 R386). -/
def execCsrWr (hdr data : W64) (s : State) : Host.Outcome State Fault Refusal :=
  .next <| if !s.stopOpen || pkType hdr ≠ 2 || !s.isMine hdr then s
  else if !packetOk hdr [data] then s.crcErr
  else if s.notReady (reqOff hdr) then (s.incRf 0x3C8 15 0).ringOut (csrResponse hdr s.stopNo 2 none)
  else
    let s := s.hostWrite (reqOff hdr) data
    if s.stopOpen then s.ringOut (csrResponse hdr s.stopNo 0 none) else s

end Sys2Proof.Machine
end

