-- ==== Sys2Proof/Machine/TestPort.lean ====
section
/-!
DEFINITION. The wrapper serial port: the WIR, WBY, the WBR, MX_ID and the IEEE 1687 network (15 R395 to R397, 17 Table 17-9).
-/

namespace Sys2Proof.Machine

/-- Load the WIR, which TEST.STATUS.WIR reads. Log entry 97, DEDUCED. -/
def State.loadWir (s : State) (code : Nat) : State := s.setRf 0xF000 5 0 code

/-- The first cells of pcp_pwr_req, behind the fabric port and the ring, and of the straps and the key port (15 Table 15-2). -/
def cellPower : Nat := 4384
def cellStraps : Nat := cellPower + 15
def cellKeys : Nat := cellStraps + 32

/-- The reset values of the outputs, cell by cell (15 Table 15-2): 0 but for pcp_vddc_req, 0x3F. -/
def safeCells : BitVec wbrCells := BitVec.ofNat wbrCells (0x3F * 2 ^ (cellPower + 9))

/-- Put a signal of `w` bits at its cells. -/
def putCells (v : BitVec wbrCells) (f : Nat × Nat × Nat) : BitVec wbrCells :=
  (v &&& ~~~ BitVec.ofNat wbrCells ((2 ^ f.2.1 - 1) * 2 ^ f.1)) ||| BitVec.ofNat wbrCells (f.2.2 % 2 ^ f.2.1 * 2 ^ f.1)

/-- The outputs whose level the state holds: first cell, width, level. While a reset is low, each is at its reset value (15 R371). -/
def State.outLevels (s : State) : List (Nat × Nat × Nat) :=
  let own := [(0, 1, b2n s.pins.fpUp), (cellPower - 1, 1, b2n s.pins.stopReady), (cellPower, 4, s.rf 0x6008 11 8), (cellPower + 8, 1, s.rf 0x6008 2 2),
    (cellPower + 9, 6, s.rf 0x6008 23 18), (cellKeys + 68, 1, b2n s.pins.kpAck), (cellKeys + 69, 1, b2n s.pins.kpErr),
    (cellKeys + 70, 4, bitsNat ((upto 4).map s.evLine))]
  if s.pins.coldLow || s.pins.warmLow then own.map fun f => (f.1, f.2.1, safeCells.toNat >>> f.1)
  else match s.tp.out with
    | some w => own.map fun f => (f.1, f.2.1, w.toNat >>> f.1)
    | none => own

/-- The inputs whose level the state holds. -/
def State.inLevels (s : State) : List (Nat × Nat × Nat) :=
  [(cellPower + 4, 4, s.rf 0x6008 15 12), (cellStraps, 16, s.rf 0x18 23 8), (cellStraps + 16, 2, s.rf 0x18 7 6), (cellStraps + 18, 6, s.rf 0x18 5 0),
   (cellStraps + 24, 8, s.rf 0x18 31 24)]

/-- A capture of the boundary register: the levels at the ports; those of the signals that the state does not hold are a free value. -/
def State.captureWbr (s : State) : State :=
  let v := (s.outLevels ++ s.inLevels).foldl putCells (BitVec.ofNat wbrCells (Config.portLevels s.freeCount))
  { s with tp := { s.tp with wbr := v }, freeCount := s.freeCount + 1 }

/-- What the wrapper drives at the ports under an instruction: the boundary register in WS_EXTEST, what it held at the update in
WS_CLAMP, the reset values in WS_SAFE (15 Table 15-8). -/
def State.drivePorts (s : State) (code : Nat) : State :=
  let out := if code = 1 || code = 3 then some s.tp.wbr else if code = 4 then some safeCells else none
  { s with tp := { s.tp with out := out } }

/-- The functional ports leave the core, until a cold reset (15 R397). -/
def State.takePorts (s : State) : State :=
  let s := (modPins s fun p => { p with stopReady := false, fpUp := false }).setRf 0x388 0 0 0
  { s with tp := { s.tp with testMode := true } }

/-- Is an update of WS_INTEST_SCAN or MX_IJTAG refused (15 R396)? -/
def State.scanDenied (s : State) : Bool := s.lcs = 2 || s.lcs = 4

/-- The refused update: WS_BYPASS, the lifecycle-denied status, one more in DENIES (15 R396, 17 Table 17-9). -/
def State.scanDeny (s : State) : State := (s.loadWir 0).deny.incRf 0xF000 31 16

def State.intestUpdate (s : State) : State := if s.scanDenied then s.scanDeny else (s.loadWir 5).takePorts
def State.ijtagUpdate (s : State) : State := if s.scanDenied then s.scanDeny else s.loadWir 0x11

/-- A WIR update, by its code (15 Table 15-8); every code that the table does not list acts as WS_BYPASS, and
TEST.STATUS.WIR reads what was updated. -/
def State.wirUpdate (s : State) (code : Nat) : State :=
  let s := s.drivePorts code
  if code = 1 || code = 3 || code = 4 then (s.loadWir code).takePorts
  else if code = 5 then s.intestUpdate
  else if code = 0x11 then s.ijtagUpdate
  else s.loadWir code

/-- TP_RESET (15 R395). -/
def execTpReset (s : State) : Host.Outcome State Fault Refusal := .next ((s.drivePorts 0).loadWir 0)
/-- WS_BYPASS (15 R395). -/
def execWsBypass (s : State) : Host.Outcome State Fault Refusal := .next (s.wirUpdate 0)
/-- WS_EXTEST (15 R397). -/
def execWsExtest (s : State) : Host.Outcome State Fault Refusal := .next (s.wirUpdate 1)
/-- WS_PRELOAD (15 R395). -/
def execWsPreload (s : State) : Host.Outcome State Fault Refusal := .next (s.wirUpdate 2)
/-- WS_CLAMP (15 R397). -/
def execWsClamp (s : State) : Host.Outcome State Fault Refusal := .next (s.wirUpdate 3)
/-- WS_SAFE (15 R397). -/
def execWsSafe (s : State) : Host.Outcome State Fault Refusal := .next (s.wirUpdate 4)
/-- WS_INTEST_SCAN (15 R396, R397). -/
def execWsIntestScan (s : State) : Host.Outcome State Fault Refusal := .next (s.wirUpdate 5)
/-- MX_ID (15 R395). -/
def execMxId (s : State) : Host.Outcome State Fault Refusal := .next (s.wirUpdate 0x10)
/-- MX_IJTAG (15 R396). -/
def execMxIjtag (s : State) : Host.Outcome State Fault Refusal := .next (s.wirUpdate 0x11)

/-! ### Shifts (15 R395, R396) -/

/-- Bits of a number, the lowest first, and back. -/
def bitList (n w : Nat) : List Bool := (upto w).map fun i => n.testBit i
def bitVal (l : List Bool) : Nat := l.foldr (fun b n => b2n b + 2 * n) 0

/-- Shift bits through a register: what leaves it, and what it holds then. -/
def shiftThrough (reg bits : List Bool) : List Bool × List Bool := ((reg ++ bits).take bits.length, (reg ++ bits).drop bits.length)

/-- As many free bits as a shift of `n` bits brings out. -/
def State.freeBits (s : State) : Nat → State × List Bool
  | 0 => (s, [])
  | n + 1 =>
    let (s, w) := s.freeWord
    let (s, l) := s.freeBits n
    (s, bit w 0 :: l)

/-- The registers that the instruments of the IEEE 1687 network mirror: sensors and canary lines, the BIST controller,
the repair record, the wear counts (15 R396). -/
def isInstrument (off : Nat) : Bool :=
  isRecord off || decide (off = 0x5200) || decide (off = 0x5208) || decide (off = 0x5800) || decide (off = 0x5808) || decide (off = 0x5810) ||
  (decide (0x5890 ≤ off) && decide (off < 0x58B0)) || (decide (0x6040 ≤ off) && decide (off < 0x6060))

/-- A shift and update of the IEEE 1687 network. The ICL lies outside the spec: which instrument the bits reach, and with
which value, are free values. The instrument obeys the rules of the field it mirrors. Log entry 9, DESIGN CHOICE. -/
def State.ijtagShift (s : State) (bits : List Bool) : State :=
  let (s, out) := s.freeBits bits.length
  let s := { s with tp := { s.tp with shift := out } }
  let off := Config.ijtagOffset bits
  if isInstrument off then s.hostWrite off (Config.ijtagData bits) else s

/-- A shift of the wrapper's registers: `wir` shifts the WIR and updates it, else the register that the WIR selects. The boundary
register captures the ports' levels before it shifts. Log entry 97, DEDUCED. -/
def State.serialShift (s : State) (wir : Bool) (bits : List Bool) : State :=
    let code := s.rf 0xF000 5 0
    if wir then
      let (out, reg) := shiftThrough (bitList code 6) bits
      ({ s with tp := { s.tp with shift := out } }).wirUpdate (bitVal reg)
    else if code = 1 || code = 2 then
      let s := s.captureWbr
      let (out, reg) := shiftThrough (bitList s.tp.wbr.toNat wbrCells) bits
      { s with tp := { s.tp with wbr := BitVec.ofNat wbrCells (bitVal reg), shift := out } }.drivePorts code
    else if code = 5 then
      let (s, out) := s.freeBits bits.length
      { s with tp := { s.tp with shift := out } }
    else if code = 0x10 then { s with tp := { s.tp with shift := (shiftThrough (bitList (s.rf 0 63 32) 32) bits).1 } }
    else if code = 0x11 then s.ijtagShift bits
    else
      let (out, reg) := shiftThrough [s.tp.wby] bits
      { s with tp := { s.tp with wby := reg.getD 0 false, shift := out } }

/-- WRAPPER_SERIAL_SHIFT (15 R395): `bits` in the order of shifting. While a reset is low, tp_wso holds 0 (R371). Log entry 142,
DEDUCED. -/
def execWrapperSerialShift (wir : Bool) (bits : List Bool) (s : State) : Host.Outcome State Fault Refusal :=
  let t := s.serialShift wir bits
  .next (if s.pins.coldLow || s.pins.warmLow then { t with tp := { t.tp with shift := bits.map fun _ => false } } else t)

end Sys2Proof.Machine
end

