-- ==== Sys2Proof/Machine/LongWord.lean ====
section
/-!
DEFINITION. Long words as the running bank holds them (09 R248 to R251, R246): fetch, structure, the issue of a whole word.
-/

namespace Sys2Proof.Machine

/-- The meaning of an opcode that its slot kind admits (08). `ms` and `bad` serve a VCHAIN. -/
def cmdOf (ms : List (Slot × Nat)) (bad : List (Nat × Chk)) (c : Slot) : CmdSem :=
  match c.opc with
  | 0x01 => sliSem | 0x02 => smovSem | 0x03 => saddSem | 0x04 => ssubSem | 0x05 => smulSem | 0x06 => sandSem
  | 0x07 => sorSem | 0x08 => sxorSem | 0x09 => sshlSem | 0x0A => sshrSem | 0x0B => sshraSem | 0x0C => scmpSem
  | 0x0D => splSem | 0x0E => sldSem | 0x0F => sstSem
  | 0x10 => loopSem | 0x11 => lexitSem | 0x12 => brSem | 0x13 => brpSem | 0x14 => brcSem
  | 0x19 => brkSem | 0x1F => haltSem
  | 0x20 => qpushSem | 0x21 => qpopSem | 0x22 => qwaitSem | 0x24 => dmapSem | 0x25 => dmardSem
  | 0x28 => cbeginSem | 0x29 => ccommitSem | 0x2A => cvoteSem | 0x2B => cabortSem
  | 0x2C => mwaitSem | 0x2D => marmSem | 0x2E => barrSem | 0x2F => postSem
  | 0x30 => ttfSem | 0x31 => mxpSem
  | 0x5E => vsetlSem | 0x5F => vchainSem ms bad
  | 0x68 => updfSem | 0x69 => orbSem | 0x6A => rngSem
  | o => if 0x38 ≤ o && o ≤ 0x3E then stkSem else vecSem

/-! ### Fetch -/

/-- The row of the running bank at a byte address. Log entry 65, DEDUCED. -/
def State.rowKey (s : State) (st : Sid) (a : Nat) : Nat := s.bankOf st * 8192 + a / 16 % 8192

/-- A long word as fetched: its units' rows, its header, its 64-bit words, its occupied slots and their count of words. -/
structure LongWord where
  addr : Nat
  keys : List Nat
  hdr : W64
  words : List W64
  slots : List Slot
  total : Nat
deriving DecidableEq, Repr

/-- The slots from word `i` on, with their kinds and tags (09 R248, R250). -/
def parseSlots (words : List W64) (tags : List W16) : Nat → Nat → List Nat → List Slot × Nat
  | i, _, [] => ([], i)
  | i, j, k :: r =>
    let b := words.getD i 0
    let n := fld b 51 48
    let q := parseSlots words tags (i + 1 + n) (j + 1) r
    (⟨k, tags.getD j 0, b, (upto n).map fun e => words.getD (i + 1 + e) 0⟩ :: q.1, q.2)

/-- The long word at an address: its first unit's header says how many units it has. -/
def State.readLw (s : State) (st : Sid) (a : Nat) : LongWord :=
  let row := fun (i : Nat) => tget 0 s.imem.rows (s.rowKey st (a + 16 * i))
  let hdr := BitVec.ofNat 64 (fld (row 0) 63 0)
  let units := upto (fld hdr 63 60 + 1)
  let words := units.flatMap fun i => [BitVec.ofNat 64 (fld (row i) 63 0), BitVec.ofNat 64 (fld (row i) 127 64)]
  let tags := units.flatMap fun i => [BitVec.ofNat 16 (fld (row i) 143 128), BitVec.ofNat 16 (fld (row i) 159 144)]
  let q := parseSlots words tags 1 0 ((upto 8).filter fun k => bit hdr (48 + k))
  ⟨a, units.map fun i => s.rowKey st (a + 16 * i), hdr, words, q.1, q.2⟩

def LongWord.info (w : LongWord) : LwInfo := ⟨w.addr, 16 * w.keys.length, 0, 0⟩

/-- The checks of a word as a whole (09 R251, items 1 to 3), with the slot that fails where there is one. `solo`: it belongs
to an open chain. Log entry 68, DEDUCED. -/
def State.wordPre (s : State) (st : Sid) (w : LongWord) (solo : Bool) : Option (Chk × Option Slot) :=
  let isW := fun (c : Slot) => (cmdOf [] [] c).isW c
  match w.keys.find? fun k => tget .good s.imem.ecc k = .bad with
  | some k => some (chk 6 true 0x0A (k % 8192), none)
  | none =>
    if decide (bit w.hdr 59 = decide (st = .a)) || w.slots.isEmpty || decide (w.words.length ≠ (w.total + 1) / 2 * 2) ||
       (decide (st = .a) && (bit w.hdr 51 || bit w.hdr 52)) then some (chk 6 true 1, none)
    else match w.slots.find? fun c => !kindAdmits st c.kind c.opc with
    | some c => some (chk 6 true 1, some c)
    | none =>
      if decide (fld w.hdr 58 56 ≠ 0) || decide (fld w.hdr 47 0 ≠ 0) || decide (w.words.getD w.total 0 ≠ 0) then some (chk 6 true 2, none)
      else
        let low := fun (c : Slot) => isW c && w.slots.any fun d => decide (c.kind < d.kind) && decide (d.kind < 7)
        let brk := fun (c : Slot) => decide (w.slots.length > 1) && (c.opc = 0x1F || c.opc = 0x19)
        let named := match (w.slots.filter isW)[1]? with
          | some c => some c
          | none => match w.slots.find? low with
            | some c => some c
            | none => match w.slots.find? brk with
              | some c => some c
              | none => if solo then w.slots[1]? else w.slots.dropLast.find? (·.opc = 0x5F)
        named.map fun c => (chk 6 true 2, some c)

/-! ### The words of a chain (05 R118, R119) -/

/-- The next `n` long words in the stream's order. Log entry 67, DEDUCED. -/
def State.nextWords (s : State) (st : Sid) : Nat → Stream → LwInfo → List LongWord
  | 0, _, _ => []
  | n + 1, t, i =>
    let q := loopEnd i.addr (i.addr + i.len) 4 t
    let w := s.readLw st q.2
    w :: s.nextWords st n q.1 w.info

/-- The command that a member's word brings into the chain. -/
def LongWord.member (w : LongWord) : Slot := (w.slots.find? (·.kind = 3)).getD (w.slots.headD ⟨0, 0, 0, []⟩)

/-! ### Corrected rows (09 R246) -/

/-- Fetched rows with a single-bit error: the count, the threshold's event, the write-back still to come. -/
def State.correctRows (s : State) (keys : List Nat) : State :=
  keys.foldl (fun s k =>
    if tget .good s.imem.ecc k = .single && !s.imem.wb.contains k then
      let off := bankInfo (k / 8192) + 0x10
      let old := s.rf off 15 0
      let s := { s with imem := { s.imem with wb := s.imem.wb ++ [k] } }
      let s := s.setRf off 15 0 (satInc 16 old)
      if old + 1 = s.rf 0x210 15 0 then s.raise evEccThreshold else s
    else s) s

/-- An IMEM_ECC halt writes a fault record, and the physical row is marked (14 Table 14-4). Log entry 66, DEDUCED. -/
def State.noteRow (s : State) (st : Sid) (bank : Nat) : State :=
  let rec' := 0x800 + 0x40 * sidNat st
  if (s.str st).st = .halted && s.rf rec' 63 56 = 0x0A then
    let row := s.rf (rec' + 16) 12 0
    let s := s.fault 0x03 2 none (bank * 8192 + row)
    match s.physOf (7 + bank) row with
    | some u => s.markUnit (7 + bank) u
    | none => s
  else s

/-- LONG_WORD_ISSUE (09 R251, 07 R444): the next long word of a stream that may issue. Log entry 11, DESIGN CHOICE. -/
def State.issueNext (s : State) (st : Sid) : State :=
  if !s.canIssue st then s else
  let t := s.str st
  let w := s.readLw st t.pc.toNat
  let n := match w.slots.find? (·.opc = 0x5F) with
    | some c => if t.chain = 0 && 2 ≤ c.f 47 44 && c.f 47 44 ≤ 8 then c.f 47 44 else 0
    | none => 0
  let next := s.nextWords st n t w.info
  let bad := next.filterMap fun w => (s.wordPre st w true).map fun p => (w.addr, { p.1 with who := some (p.2.getD w.member) })
  let ms := next.map fun w => (w.member, w.addr)
  let pre := match s.wordPre st w (decide (t.chain > 0)) with
    | some p => some p
    | none => (w.slots.find? fun c => decide (t.chain > 0) && !isVeOpc c.opc).map fun c => (chk 6 true 2, some c)
  let bank := s.bankOf st
  let s := s.correctRows (w.keys ++ next.flatMap (·.keys))
  (s.issueWord st w.info pre (w.slots.map fun c => (c, cmdOf ms bad c)) ((w.slots.map fun c => (c, 0)) ++ ms.map fun p => (p.1, memberDet p.2))).noteRow st bank

def execLongWordIssue (st : Sid) (s : State) : Host.Outcome State Fault Refusal := .next (s.issueNext st)

end Sys2Proof.Machine
end

