-- ==== Sys2Proof/Machine/Receive.lean ====
section
/-!
DEFINITION. What a flit on an inbound channel carries (15 R377, Table 15-4): the link layer accepts it and its message is acted on.
-/

namespace Sys2Proof.Machine

/-- Inbound channels (15 Table 15-3). -/
def isInbound (ch : Nat) : Bool := ch = 2 || ch = 3 || ch = 6 || ch = 8

/-- Bits [hi:lo] of a flit. -/
def flitFld (flit hi lo : Nat) : Nat := (flit >>> lo) % 2 ^ (hi - lo + 1)

/-- A message on rs: READ_DATA, WRITE_ACK, QMSG_ACK, QMSG_CREDIT. -/
def State.onRs (f : Nat) (s : State) : State :=
  let tag := flitFld f 117 106
  let status := flitFld f 105 104
  match flitFld f 119 118 with
  | 0 => State.onReadData tag status ⟨BitVec.ofNat 1024 (f >>> 128), f.testBit 103⟩ s
  | 1 => State.onWriteAck tag status s
  | 2 => State.onQmsgAck tag (flitFld f 102 87) status s
  | _ => State.onQmsgCredit tag (flitFld f 86 82) s

/-- A queue message on tw. -/
def twMsg (f : Nat) : QMsg :=
  { data := BitVec.ofNat 1024 (f >>> 128), sctx := BitVec.ofNat 12 (flitFld f 117 106), place := BitVec.ofNat 24 (flitFld f 105 82)
    rctx := BitVec.ofNat 12 (flitFld f 81 70), ncar := BitVec.ofNat 4 (flitFld f 69 66), ticket := BitVec.ofNat 16 (flitFld f 64 49)
    poison := f.testBit 48, axis := BitVec.ofNat 2 (flitFld f 47 46), fidx := BitVec.ofNat 3 (flitFld f 45 43)
    splace := BitVec.ofNat 24 (flitFld f 42 19) }

/-- A VOTE or a DECISION on vi; a reserved TYPE counts as a bad tag does. Log entry 93, DESIGN CHOICE. -/
def State.onVi (f : Nat) (s : State) : State :=
  let place := BitVec.ofNat 24 (flitFld f 165 142)
  let vg := BitVec.ofNat 4 (flitFld f 141 138)
  let tick := BitVec.ofNat 64 (flitFld f 137 74)
  let reason := BitVec.ofNat 8 (flitFld f 39 32)
  match flitFld f 167 166 with
  | 0 => State.onVote ⟨place, vg, tick, BitVec.ofNat 32 (flitFld f 73 42), f.testBit 41, f.testBit 40, reason,
      BitVec.ofNat 16 (flitFld f 31 16)⟩ s
  | 1 => State.onDecision ⟨place, vg, tick, f.testBit 41, reason⟩ s
  | _ => s.badTag

/-- An ARRIVE or a RELEASE on bi. -/
def State.onBi (f : Nat) (s : State) : State :=
  let m : BarMsg := ⟨BitVec.ofNat 24 (flitFld f 53 30), BitVec.ofNat 4 (flitFld f 29 26), BitVec.ofNat 8 (flitFld f 25 18)⟩
  match flitFld f 55 54 with
  | 0 => s.onArrive m
  | 1 => s.onRelease m
  | _ => s.badTag

/-- The message of an accepted flit is acted on. A flit of tw that is no queue message carries nothing for this core: one of a
reserved KIND counts as a bad tag, a WRITE changes nothing. Log entry 93, DESIGN CHOICE. -/
def State.takeFlit (s : State) (ch f : Nat) : State :=
  match ch with
  | 2 => s.arrive 2 (State.onRs f)
  | 3 =>
    match flitFld f 119 118 with
    | 0 => s.freeRx 3
    | 1 => State.onQmsg (twMsg f) s
    | _ => s.badTag.freeRx 3
  | 6 => s.arrive 6 (State.onVi f)
  | _ => s.arrive 8 (State.onBi f)

/-- LINK_FLIT_RECEIVE (15 R375 to R377): the flit is accepted, acknowledged and acted on, or discarded with a nak that names the last
accepted SEQ. Log entry 93, DESIGN CHOICE. -/
def execLinkFlitReceive (ch : BitVec 4) (flit : BitVec 1152) (s : State) : Host.Outcome State Fault Refusal :=
  let c := ch.toNat
  let f := flit.toNat
  .next <| if isInbound c && s.pins.fpUp then
    let l := s.link c
    let good := decide (flitCrc c f = f % 65536)
    let seqOk := decide (flitFld f (ctlBits c - 1) (ctlBits c - 8) = l.seq)
    let s := if good then s else s.incRf 0x390 63 48
    if good && seqOk then
      (s.modLink c fun l => { l with seq := (l.seq + 1) % 256, errs := 0, nakd := false, ack := some l.seq }).takeFlit c f
    else if l.nakd && !seqOk then s
    else
      let s := s.modLink c fun l => { l with errs := l.errs + 1, nakd := true, nak := some ((l.seq + 255) % 256) }
      if (s.link c).errs ≥ 5 then s.fabDown c else s
  else s

end Sys2Proof.Machine
end

