-- ==== Sys2Proof/Machine/Dispatch.lean ====
section
/-!
DEFINITION. Each command's meaning: one arm per constructor of Instr.
-/

namespace Sys2Proof.Machine

def exec (i : Instr) (s : State) : Host.Outcome State Fault Refusal :=
  match i with
  | .longWordIssue st => Sys2Proof.Machine.execLongWordIssue st s
  | .sli st c => Sys2Proof.Machine.execSli st c s
  | .smov st c => Sys2Proof.Machine.execSmov st c s
  | .sadd st c => Sys2Proof.Machine.execSadd st c s
  | .ssub st c => Sys2Proof.Machine.execSsub st c s
  | .smul st c => Sys2Proof.Machine.execSmul st c s
  | .sand st c => Sys2Proof.Machine.execSand st c s
  | .sor st c => Sys2Proof.Machine.execSor st c s
  | .sxor st c => Sys2Proof.Machine.execSxor st c s
  | .sshl st c => Sys2Proof.Machine.execSshl st c s
  | .sshr st c => Sys2Proof.Machine.execSshr st c s
  | .sshra st c => Sys2Proof.Machine.execSshra st c s
  | .scmp st c => Sys2Proof.Machine.execScmp st c s
  | .spl st c => Sys2Proof.Machine.execSpl st c s
  | .sld st c => Sys2Proof.Machine.execSld st c s
  | .sst st c => Sys2Proof.Machine.execSst st c s
  | .loop st c => Sys2Proof.Machine.execLoop st c s
  | .lexit st c => Sys2Proof.Machine.execLexit st c s
  | .br st c => Sys2Proof.Machine.execBr st c s
  | .brp st c => Sys2Proof.Machine.execBrp st c s
  | .brc st c => Sys2Proof.Machine.execBrc st c s
  | .brk st c => Sys2Proof.Machine.execBrk st c s
  | .halt st c => Sys2Proof.Machine.execHalt st c s
  | .qpush st c => Sys2Proof.Machine.execQpush st c s
  | .qpop st c => Sys2Proof.Machine.execQpop st c s
  | .qwait st c => Sys2Proof.Machine.execQwait st c s
  | .dmap st c => Sys2Proof.Machine.execDmap st c s
  | .dmard st c => Sys2Proof.Machine.execDmard st c s
  | .ttf st c => Sys2Proof.Machine.execTtf st c s
  | .mxp st c => Sys2Proof.Machine.execMxp st c s
  | .vadd st c => Sys2Proof.Machine.execVadd st c s
  | .vsub st c => Sys2Proof.Machine.execVsub st c s
  | .vmul st c => Sys2Proof.Machine.execVmul st c s
  | .vmin st c => Sys2Proof.Machine.execVmin st c s
  | .vmax st c => Sys2Proof.Machine.execVmax st c s
  | .vabs st c => Sys2Proof.Machine.execVabs st c s
  | .vneg st c => Sys2Proof.Machine.execVneg st c s
  | .vand st c => Sys2Proof.Machine.execVand st c s
  | .vor st c => Sys2Proof.Machine.execVor st c s
  | .vxor st c => Sys2Proof.Machine.execVxor st c s
  | .vnot st c => Sys2Proof.Machine.execVnot st c s
  | .vshl st c => Sys2Proof.Machine.execVshl st c s
  | .vshr st c => Sys2Proof.Machine.execVshr st c s
  | .vshra st c => Sys2Proof.Machine.execVshra st c s
  | .vcmp st c => Sys2Proof.Machine.execVcmp st c s
  | .vsel st c => Sys2Proof.Machine.execVsel st c s
  | .vcvt st c => Sys2Proof.Machine.execVcvt st c s
  | .vmset st c => Sys2Proof.Machine.execVmset st c s
  | .vfma st c => Sys2Proof.Machine.execVfma st c s
  | .vexp2 st c => Sys2Proof.Machine.execVexp2 st c s
  | .vlog2 st c => Sys2Proof.Machine.execVlog2 st c s
  | .vrcp st c => Sys2Proof.Machine.execVrcp st c s
  | .vrsq st c => Sys2Proof.Machine.execVrsq st c s
  | .vq st c => Sys2Proof.Machine.execVq st c s
  | .vdq st c => Sys2Proof.Machine.execVdq st c s
  | .vlxadd st c => Sys2Proof.Machine.execVlxadd st c s
  | .vlxcvt st c => Sys2Proof.Machine.execVlxcvt st c s
  | .vlxf st c => Sys2Proof.Machine.execVlxf st c s
  | .vcprs st c => Sys2Proof.Machine.execVcprs st c s
  | .vexpd st c => Sys2Proof.Machine.execVexpd st c s
  | .vsetl st c => Sys2Proof.Machine.execVsetl st c s
  | .vchain st c members => Sys2Proof.Machine.execVchain st c members s
  | .redsum st c => Sys2Proof.Machine.execRedsum st c s
  | .redmax st c => Sys2Proof.Machine.execRedmax st c s
  | .redmin st c => Sys2Proof.Machine.execRedmin st c s
  | .redarg st c => Sys2Proof.Machine.execRedarg st c s
  | .redcnt st c => Sys2Proof.Machine.execRedcnt st c s
  | .stkbind st c => Sys2Proof.Machine.execStkbind st c s
  | .stkfree st c => Sys2Proof.Machine.execStkfree st c s
  | .stkadv st c => Sys2Proof.Machine.execStkadv st c s
  | .stkmrg st c => Sys2Proof.Machine.execStkmrg st c s
  | .stkset st c => Sys2Proof.Machine.execStkset st c s
  | .stkrd st c => Sys2Proof.Machine.execStkrd st c s
  | .stkclr st c => Sys2Proof.Machine.execStkclr st c s
  | .stkMergesDone => Sys2Proof.Machine.execStkMergesDone s
  | .cbegin st c => Sys2Proof.Machine.execCbegin st c s
  | .ccommit st c => Sys2Proof.Machine.execCcommit st c s
  | .cvote st c => Sys2Proof.Machine.execCvote st c s
  | .cabort st c => Sys2Proof.Machine.execCabort st c s
  | .mwait st c => Sys2Proof.Machine.execMwait st c s
  | .marm st c => Sys2Proof.Machine.execMarm st c s
  | .barr st c => Sys2Proof.Machine.execBarr st c s
  | .post st c => Sys2Proof.Machine.execPost st c s
  | .updf st c => Sys2Proof.Machine.execUpdf st c s
  | .updfBlockDone => Sys2Proof.Machine.execUpdfBlockDone s
  | .orbLoad st c => Sys2Proof.Machine.execOrbLoad st c s
  | .orbStep st c => Sys2Proof.Machine.execOrbStep st c s
  | .orbMult st c => Sys2Proof.Machine.execOrbMult st c s
  | .orbBias1 st c => Sys2Proof.Machine.execOrbBias1 st c s
  | .orbBias2 st c => Sys2Proof.Machine.execOrbBias2 st c s
  | .orbRdstep st c => Sys2Proof.Machine.execOrbRdstep st c s
  | .orbSetstep st c => Sys2Proof.Machine.execOrbSetstep st c s
  | .rngkKey st c => Sys2Proof.Machine.execRngkKey st c s
  | .rngkGen st c => Sys2Proof.Machine.execRngkGen st c s
  | .rngkSeq st c => Sys2Proof.Machine.execRngkSeq st c s
  | .passBegin region => Sys2Proof.Machine.execPassBegin region s
  | .tileReady north feed bufErr laneErr => Sys2Proof.Machine.execTileReady north feed bufErr laneErr s
  | .ftqEntryVisible region faults => Sys2Proof.Machine.execFtqEntryVisible region faults s
  | .veBeat kperr => Sys2Proof.Machine.execVeBeat kperr s
  | .redResultWrite resErr => Sys2Proof.Machine.execRedResultWrite resErr s
  | .ctPushQuota ctx => Sys2Proof.Machine.execCtPushQuota ctx s
  | .queueHeadServe ctx => Sys2Proof.Machine.execQueueHeadServe ctx s
  | .pushQuotaProceed ctx => Sys2Proof.Machine.execPushQuotaProceed ctx s
  | .postResume st => Sys2Proof.Machine.execPostResume st s
  | .queueWaitLong st => Sys2Proof.Machine.execQueueWaitLong st s
  | .fabOutSend ctx => Sys2Proof.Machine.execFabOutSend ctx s
  | .barrierEntryCount bar => Sys2Proof.Machine.execBarrierEntryCount bar s
  | .dmaDescriptorStart ch badUnits => Sys2Proof.Machine.execDmaDescriptorStart ch badUnits s
  | .dmaDescriptorComplete ch => Sys2Proof.Machine.execDmaDescriptorComplete ch s
  | .imemLoadComplete ch => Sys2Proof.Machine.execImemLoadComplete ch s
  | .spmEccWriteback addr => Sys2Proof.Machine.execSpmEccWriteback addr s
  | .imemEccWriteback bank row => Sys2Proof.Machine.execImemEccWriteback bank row s
  | .readData tag status u => Sys2Proof.Machine.execReadData tag status u s
  | .writeAck tag status => Sys2Proof.Machine.execWriteAck tag status s
  | .fabricRequestTimeout isWrite tag => Sys2Proof.Machine.execFabricRequestTimeout isWrite tag s
  | .linkFlitReceive ch flit => Sys2Proof.Machine.execLinkFlitReceive ch flit s
  | .linkAck ch seq => Sys2Proof.Machine.execLinkAck ch seq s
  | .linkNak ch seq => Sys2Proof.Machine.execLinkNak ch seq s
  | .linkCredit ch => Sys2Proof.Machine.execLinkCredit ch s
  | .qmsg m => Sys2Proof.Machine.execQmsg m s
  | .qmsgAck sctx ticket status place => Sys2Proof.Machine.execQmsgAck sctx ticket status place s
  | .qmsgCredit sctx cars place => Sys2Proof.Machine.execQmsgCredit sctx cars place s
  | .vote m => Sys2Proof.Machine.execVote m s
  | .decision m => Sys2Proof.Machine.execDecision m s
  | .arrive m => Sys2Proof.Machine.execArrive m s
  | .release m => Sys2Proof.Machine.execRelease m s
  | .voteSend vg => Sys2Proof.Machine.execVoteSend vg s
  | .commitPoint st => Sys2Proof.Machine.execCommitPoint st s
  | .deadline st => Sys2Proof.Machine.execDeadline st s
  | .rootGuardDecide vg => Sys2Proof.Machine.execRootGuardDecide vg s
  | .decisionApply st => Sys2Proof.Machine.execDecisionApply st s
  | .consistVoteLost st => Sys2Proof.Machine.execConsistVoteLost st s
  | .ckptStall st => Sys2Proof.Machine.execCkptStall st s
  | .rollbackComplete st => Sys2Proof.Machine.execRollbackComplete st s
  | .time hdr tick waited => Sys2Proof.Machine.execTime hdr tick waited s
  | .holdoverTimeout => Sys2Proof.Machine.execHoldoverTimeout s
  | .slewEnd => Sys2Proof.Machine.execSlewEnd s
  | .merSlotFire n => Sys2Proof.Machine.execMerSlotFire n s
  | .mwaitDue st => Sys2Proof.Machine.execMwaitDue st s
  | .streamTakesSwitch st => Sys2Proof.Machine.execStreamTakesSwitch st s
  | .ckptResume io => Sys2Proof.Machine.execCkptResume io s
  | .ckptBlockCopy io => Sys2Proof.Machine.execCkptBlockCopy io s
  | .ckptDone => Sys2Proof.Machine.execCkptDone s
  | .restore => Sys2Proof.Machine.execRestore s
  | .restoreDone trailer records => Sys2Proof.Machine.execRestoreDone trailer records s
  | .abandon => Sys2Proof.Machine.execAbandon s
  | .override v => Sys2Proof.Machine.execOverride v s
  | .ckeConfigWrite off data => Sys2Proof.Machine.execCkeConfigWrite off data s
  | .calSwap => Sys2Proof.Machine.execCalSwap s
  | .calTrialEnd comparisons mismatch skewed => Sys2Proof.Machine.execCalTrialEnd comparisons mismatch skewed s
  | .calWindowRelease => Sys2Proof.Machine.execCalWindowRelease s
  | .bistStart test => Sys2Proof.Machine.execBistStart test s
  | .bistDone fails time => Sys2Proof.Machine.execBistDone fails time s
  | .strmStart st => Sys2Proof.Machine.execStrmStart st s
  | .strmStop st => Sys2Proof.Machine.execStrmStop st s
  | .stopBoundary st => Sys2Proof.Machine.execStopBoundary st s
  | .strmHalt st => Sys2Proof.Machine.execStrmHalt st s
  | .hostHalt st => Sys2Proof.Machine.execHostHalt st s
  | .strmReset st => Sys2Proof.Machine.execStrmReset st s
  | .streamResetDone st => Sys2Proof.Machine.execStreamResetDone st s
  | .cohalt st => Sys2Proof.Machine.execCohalt st s
  | .imemSwitch => Sys2Proof.Machine.execImemSwitch s
  | .imemHtagWrite data => Sys2Proof.Machine.execImemHtagWrite data s
  | .imemHaddrWrite data => Sys2Proof.Machine.execImemHaddrWrite data s
  | .postAck data => Sys2Proof.Machine.execPostAck data s
  | .postSlotRead n parityErr => Sys2Proof.Machine.execPostSlotRead n parityErr s
  | .qctxW0Write data => Sys2Proof.Machine.execQctxW0Write data s
  | .csuShadowWrite n data => Sys2Proof.Machine.execCsuShadowWrite n data s
  | .csuVgWrite off data => Sys2Proof.Machine.execCsuVgWrite off data s
  | .barWrite w1 data => Sys2Proof.Machine.execBarWrite w1 data s
  | .merSlotCtrlWrite n data => Sys2Proof.Machine.execMerSlotCtrlWrite n data s
  | .repRecordWrite off data => Sys2Proof.Machine.execRepRecordWrite off data s
  | .dbgModeWrite data => Sys2Proof.Machine.execDbgModeWrite data s
  | .evTestWrite data => Sys2Proof.Machine.execEvTestWrite data s
  | .perfClear => Sys2Proof.Machine.execPerfClear s
  | .spmEcccntWrite n data => Sys2Proof.Machine.execSpmEcccntWrite n data s
  | .perfCounterWrap n => Sys2Proof.Machine.execPerfCounterWrap n s
  | .registerWrite off data => Sys2Proof.Machine.execRegisterWrite off data s
  | .csrRd hdr => Sys2Proof.Machine.execCsrRd hdr s
  | .csrWr hdr data => Sys2Proof.Machine.execCsrWr hdr data s
  | .ringForward words => Sys2Proof.Machine.execRingForward words s
  | .event => Sys2Proof.Machine.execEvent s
  | .trace => Sys2Proof.Machine.execTrace s
  | .bypassClose => Sys2Proof.Machine.execBypassClose s
  | .bypassOpen => Sys2Proof.Machine.execBypassOpen s
  | .bypassCsrRequest hdr data => Sys2Proof.Machine.execBypassCsrRequest hdr data s
  | .keyDelivery kind words => Sys2Proof.Machine.execKeyDelivery kind words s
  | .unlockTimeout => Sys2Proof.Machine.execUnlockTimeout s
  | .lcProvision => Sys2Proof.Machine.execLcProvision s
  | .lcSecure => Sys2Proof.Machine.execLcSecure s
  | .lcUnlock => Sys2Proof.Machine.execLcUnlock s
  | .lcRetire confirm => Sys2Proof.Machine.execLcRetire confirm s
  | .idResetKey key => Sys2Proof.Machine.execIdResetKey key s
  | .coldResetAssert => Sys2Proof.Machine.execColdResetAssert s
  | .coldResetRelease straps => Sys2Proof.Machine.execColdResetRelease straps s
  | .aclkLock => Sys2Proof.Machine.execAclkLock s
  | .warmResetAssert => Sys2Proof.Machine.execWarmResetAssert s
  | .warmResetRelease => Sys2Proof.Machine.execWarmResetRelease s
  | .wipeComplete fails => Sys2Proof.Machine.execWipeComplete fails s
  | .pwrGntChange level => Sys2Proof.Machine.execPwrGntChange level s
  | .pwrReqStep level => Sys2Proof.Machine.execPwrReqStep level s
  | .vddcReqStep => Sys2Proof.Machine.execVddcReqStep s
  | .droopTrip sec => Sys2Proof.Machine.execDroopTrip sec s
  | .canaryStretch strip => Sys2Proof.Machine.execCanaryStretch strip s
  | .lockstepEnter sectors => Sys2Proof.Machine.execLockstepEnter sectors s
  | .lockstepExit => Sys2Proof.Machine.execLockstepExit s
  | .tpReset => Sys2Proof.Machine.execTpReset s
  | .wsBypass => Sys2Proof.Machine.execWsBypass s
  | .wsExtest => Sys2Proof.Machine.execWsExtest s
  | .wsPreload => Sys2Proof.Machine.execWsPreload s
  | .wsClamp => Sys2Proof.Machine.execWsClamp s
  | .wsSafe => Sys2Proof.Machine.execWsSafe s
  | .wsIntestScan => Sys2Proof.Machine.execWsIntestScan s
  | .mxId => Sys2Proof.Machine.execMxId s
  | .mxIjtag => Sys2Proof.Machine.execMxIjtag s
  | .scratchpadScalarAccess st => Sys2Proof.Machine.execScratchpadScalarAccess st s
  | .bypassForward ageAdd words => Sys2Proof.Machine.execBypassForward ageAdd words s
  | .wrapperSerialShift wir bits => Sys2Proof.Machine.execWrapperSerialShift wir bits s
  | .droopTripEnd sec => Sys2Proof.Machine.execDroopTripEnd sec s

end Sys2Proof.Machine
end

