-- ==== Sys2Proof/Machine/Tick.lean ====
section
/-!
DEFINITION. One ac without a command: what the clock alone moves (10 R264, R446, 06 R157, 17 Table 17-8, 15 R393).
-/

namespace Sys2Proof.Machine

/-- What the trim adds to the increment in one root cycle: free between half and the whole of its bound of 1/1024 of the nominal
rate, and it never passes the error that is left (10 Table 10-2). At that rate an error of 0.5 mt is gone before the next update,
2 µs later (R263). Log entry 8, DESIGN CHOICE. -/
def State.trimNow (s : State) : Int :=
  let cap : Int := min (s.nominalInc / 1024 : Nat) s.mer.trim.natAbs
  let k : Int := max (cap - cap / 2) (min cap (Config.trimStep s.freeCount))
  if s.mer.trim < 0 then -k else k

/-- The local count over one root cycle: frozen in UNLOCKED, half the increment in a slew, else the increment and the trim
(10 R264, Table 10-1, R446). -/
def State.merTick (s : State) : State :=
  if s.mer.st = .unlocked || s.pins.dead.contains 0x0F then s else
  let s := s.modMer fun m => { m with cyc := m.cyc + 1, since := m.since + 1 }
  if s.mer.slew > 0 then
    let k := min (s.mer.inc / 2) s.mer.slew
    s.modMer fun m => { m with count := m.count + BitVec.ofNat 96 k, slew := m.slew - k }
  else
    let d := s.trimNow
    { (s.modMer fun m => { m with count := m.count + BitVec.ofInt 96 (m.inc + d), trim := m.trim - d }) with
      freeCount := s.freeCount + 1 }

/-- A stream's wait grows by one ac (06 R157). -/
def State.waitTick (s : State) (st : Sid) : State :=
  if (s.str st).waitsOn.isSome then (s.modStr st fun t => { t with waited := t.waited + 1 }).perf (12 + sidNat st) 1 else s

/-- A rollback restores up to 16 log words (11 R299, Table 11-8). -/
def State.rollTick (s : State) (st : Sid) : State :=
  if (s.csu st).left = 0 then s else s.modCsu st fun c => { c with left := c.left - 16 }

/-- What counts in an ac of the locked clock: the root cycles, the local count, the waits, the rollbacks, the stretchers, a hold of
the governor. -/
def State.countTick (s : State) : State :=
  let s := (((s.perf 0 1).merTick).waitTick .a).waitTick .x
  let s := ((s.rollTick .a).rollTick .x).stretchTick
  if s.govHolds then s.perf 14 1 else s

/-- One ac: the key port's pulses (unless the wrapper has the port, 15 R397) and the ac of an unlock end; the counts go on, the port
has one request slot (06 R165), and the checkpoint engine goes on. Log entry 1, DESIGN CHOICE. -/
def State.tick (s : State) : State :=
  let s := modPins s fun p => { p with kpAck := p.kpAck && s.tp.testMode, kpErr := p.kpErr && s.tp.testMode, unlockAc := false }
  if s.pins.aclkLocked then s.countTick.reqSlot.ckeRun.restoreRun else s

end Sys2Proof.Machine
end

