-- ==== Sys2Proof/WellFormed.lean ====
section
/-!
DEFINITION. Well-formed commands: terms of Instr that describe something the spec lets arrive. The meanings are total all the
same; a term that is not well formed stands for no input of the hardware.
-/

namespace Sys2Proof

/-- A slot has one of the eight kinds and as many extension words as XW says (09 R248, 08 R206). -/
def Slot.wf (c : Slot) : Bool := decide (c.kind < 8) && decide (c.ext.length = (c.base.extractLsb' 48 4).toNat)

/-- A packet of the ring has 1 to 15 words (15 Table 15-7). -/
def packetWf (words : List W64) : Bool := decide (0 < words.length) && decide (words.length ≤ 15)

/-- Numbers in a list are distinct. -/
def distinct {α : Type} [DecidableEq α] (l : List α) : Bool := decide l.Nodup

/-- The command whose slot an instruction row carries. -/
def Instr.slot? : Instr → Option Slot
  | .sli _ c | .smov _ c | .sadd _ c | .ssub _ c | .smul _ c | .sand _ c | .sor _ c | .sxor _ c | .sshl _ c | .sshr _ c
  | .sshra _ c | .scmp _ c | .spl _ c | .sld _ c | .sst _ c | .loop _ c | .lexit _ c | .br _ c | .brp _ c | .brc _ c
  | .brk _ c | .halt _ c | .qpush _ c | .qpop _ c | .qwait _ c | .dmap _ c | .dmard _ c | .ttf _ c | .mxp _ c | .vadd _ c
  | .vsub _ c | .vmul _ c | .vmin _ c | .vmax _ c | .vabs _ c | .vneg _ c | .vand _ c | .vor _ c | .vxor _ c | .vnot _ c
  | .vshl _ c | .vshr _ c | .vshra _ c | .vcmp _ c | .vsel _ c | .vcvt _ c | .vmset _ c | .vfma _ c | .vexp2 _ c
  | .vlog2 _ c | .vrcp _ c | .vrsq _ c | .vq _ c | .vdq _ c | .vlxadd _ c | .vlxcvt _ c | .vlxf _ c | .vcprs _ c
  | .vexpd _ c | .vsetl _ c | .vchain _ c _ | .redsum _ c | .redmax _ c | .redmin _ c | .redarg _ c | .redcnt _ c
  | .stkbind _ c | .stkfree _ c | .stkadv _ c | .stkmrg _ c | .stkset _ c | .stkrd _ c | .stkclr _ c | .cbegin _ c
  | .ccommit _ c | .cvote _ c | .cabort _ c | .mwait _ c | .marm _ c | .barr _ c | .post _ c | .updf _ c | .orbLoad _ c
  | .orbStep _ c | .orbMult _ c | .orbBias1 _ c | .orbBias2 _ c | .orbRdstep _ c | .orbSetstep _ c | .rngkKey _ c
  | .rngkGen _ c | .rngkSeq _ c => some c
  | _ => none

/-- Well-formedness, check by check. Log entry 105, DEDUCED. -/
def Instr.wellFormed (i : Instr) : Bool :=
  (match i.slot? with | some c => c.wf | none => true) &&
  match i with
  | .vchain _ _ members => decide (members.length ≤ 15) && members.all Slot.wf
  | .tileReady _ _ _ laneErr => distinct laneErr
  | .ftqEntryVisible _ faults => distinct faults
  | .veBeat kperr => distinct kperr
  | .dmaDescriptorStart _ badUnits => distinct badUnits
  | .bistDone fails _ => distinct fails
  | .wipeComplete fails => distinct fails
  | .ringForward words => packetWf words
  | .bypassForward _ words => packetWf words
  | .keyDelivery _ words => decide (0 < words.length)
  | .lockstepEnter sectors => decide (sectors.length = 4)
  | .canaryStretch strip => decide (strip.toNat < 5)
  | .wrapperSerialShift _ bits => decide (0 < bits.length)
  | _ => true

end Sys2Proof
end

