-- ==== Sys2Proof/Safety.lean ====
section
/-!
DEFINITION. The terms that claims use: canonical memories, invariants of queues, loops, requests and consists, a command that may issue
and breaks no check, what its long word leaves behind, the units that hold a long word, the frames of commands, the access codes of
registers, sums of contributions, a beat of the VE.
-/

namespace Sys2Proof.Machine

/-! ### Canonical memories -/

/-- The canonical form of a memory: addresses strictly rising, no byte equal to what an unlisted address reads as. -/
def Memory.wf (m : List Host.Cell) : Bool := twf (0 : Byte) m

/-- The scratchpad and the instruction memory are in their canonical form. -/
def State.memWf (s : State) : Bool := Memory.wf s.spm.mem && twf (0 : BitVec 160) s.imem.rows

/-! ### Invariants of queues, loops, requests and consists -/

/-- The contexts are listed by rising number, and no ticket stands twice in a context; a stream holds at most four loop levels; the outstanding
reads, and the outstanding writes, have tags below 4,096, each its own (06 R150, 07 R182, 15 R378). -/
def State.boundsWf (s : State) : Prop :=
  s.qsy.Pairwise (fun p q => p.1 < q.1) ∧ (∀ n, ((s.ctx n).entries.map (·.tkt)).Nodup) ∧ (∀ st, (s.str st).loops.length ≤ 4) ∧
  ∀ l ∈ [s.fab.reads, s.fab.writes], (l.map (·.tag)).Nodup ∧ ∀ r ∈ l, r.tag < 4096

/-- The log of a stream's consist: distinct words, no more than its shadow region holds, none of them in the other stream's log; only a consist
that is OPEN or DECIDING and was not rolled back has any. Between commands no beat is under way (11 R279 to R284, R299). -/
def State.logWf (s : State) (st : Sid) : Prop :=
  let c := s.csu st
  c.log.Nodup ∧ c.log.length ≤ s.shadowWords st ∧ (∀ w ∈ c.log, w ∉ (s.csu (otherSid st)).log) ∧
  (c.log ≠ [] → (c.st = .opened ∨ c.st = .deciding) ∧ c.gone = false) ∧ c.beat = false ∧ c.met = none
def State.consistsWf (s : State) : Prop := ∀ st, s.logWf st

/-! ### What a command leaves as it was -/

/-- The scratchpad is as before: every byte, every ECC word, every write-back still to come. -/
def sameSpm (s t : State) : Prop := t.spm = s.spm
/-- The scalar registers of both streams are as before (07 Table 7-1). -/
def sameRegs (s t : State) : Prop := ∀ st, (t.str st).a = (s.str st).a ∧ (t.str st).n = (s.str st).n ∧ (t.str st).p = (s.str st).p
/-- Everything but the registers of the window is as before. -/
def onlyCsr (s t : State) : Prop := t = { s with csr := t.csr }
/-- Everything but the window and the packets at the ring's outlet and in its EVENT queue is as before. -/
def onlyCsrRing (s t : State) : Prop := t = { s with csr := t.csr, ring := t.ring }

/-- From `s` to `t` these bodies, in this order, and no other leave for an outbound channel (15 R373). -/
def leaves (s t : State) (ch : Nat) (l : List Nat) : Prop := t.link ch = (l.foldl (fun s b => s.send ch b) s).link ch

/-! ### Registers whose accesses do no more than their access codes say (00 R12 to R15) -/

/-- Offsets whose writes have rules of their own, beside or in place of their fields' access codes. -/
def ownWrite (off : Nat) : Bool :=
  [0x10, 0x120, 0x158, 0x160, 0x200, 0x220, 0x238, 0x400, 0x500, 0x1400, 0x1408, 0x1800, 0x2008, 0x2010, 0x2018, 0x2020, 0x4200, 0x5208, 0x5800,
    0x6000, 0x7000, 0x8080, 0x9000].contains off ||
  (decide (0x180 ≤ off) && decide (off < 0x200)) || (decide (0x1100 ≤ off) && decide (off < 0x1300) && decide (off % 0x20 = 8)) ||
  (decide (0x3000 ≤ off) && decide (off < 0x4000)) || (decide (0x5890 ≤ off) && decide (off < 0x58B0))

/-- Offsets whose reads show what stands elsewhere in the state. -/
def ownRead (off : Nat) : Bool :=
  [0x158, 0x160, 0x3A0, 0x1000, 0x1008, 0x1418, 0x1430, 0x1438, 0x1808, 0x1880, 0x2008, 0x2010, 0x2018, 0x2020, 0x2068, 0x4210, 0x5010, 0x5018,
    0x5208].contains off ||
  (decide (0x400 ≤ off) && decide (off < 0x600)) || (decide (0x1A00 ≤ off) && decide (off < 0x2000) && decide ((off - 0x1A00) % 0x18 = 0x10)) ||
  (decide (0x3000 ≤ off) && decide (off < 0x4000)) || (decide (0x6040 ≤ off) && decide (off < 0x6060))

/-- What a write of `v` leaves in bit `i` of a field that held `old`. -/
def Field.after (locked : Bool) (old v : W64) (f : Field) (i : Nat) : Bool :=
  match f.acc with
  | .rw | .rws => bit v i
  | .rwl => if locked then bit old i else bit v i
  | .w1c => bit old i && !bit v i
  | .w1s => bit old i || bit v i
  | .wzc => bit old i && decide (fld v f.hi f.lo ≠ 0)
  | .ro | .wo => bit old i

/-! ### Ledgers (02 R46 to R57) -/

/-- The ledger of a list of contributions, each with its significand's width. -/
def ledgerOf (l : List (Num × Nat)) : Ledger := l.foldl (fun g p => (g.addNum p.1 p.2).1) Ledger.empty
/-- The binade of a number, and the lowest bit of its significand. -/
def binade (v : Num) : Int := match v with | .fin _ m => floorLog2 m | _ => 0
def lowBit (p : Num × Nat) : Int := binade p.1 - p.2 + 1
/-- Contributions: finite, not zero, each a whole number of its lowest bits. -/
def Contributions (l : List (Num × Nat)) : Prop :=
  ∀ p ∈ l, 1 ≤ p.2 ∧ p.2 ≤ 64 ∧ (∃ z m, p.1 = .fin z m ∧ 0 < m) ∧ ∃ k : Int, p.1.val = k * pow2 (lowBit p)
/-- Where the window of a set of contributions lies: 78 binades below the largest (R48). -/
def windowOf (l : List (Num × Nat)) : Int := l.foldl (fun x p => max x (binade p.1 - 78)) (-512)
def sumVal (l : List (Num × Nat)) : Rat := (l.map fun p => p.1.val).sum

/-! ### A beat of the VE (05 R107 to R109) -/

/-- The VE's front work stands before its only beat, outside a consist, and nothing holds it; its members have all lanes or a mask register,
no FTQ operand and no replacement of non-finites; no ECC word is in error, no consist owns a word or has met a trip, no block waits to be copied. -/
structure OneBeat (s : State) (w : VeWork) (rest : List VeWork) : Prop where
  front : s.vec.ve = w :: rest
  first : w.beat = 0
  lanes : 0 < w.vlen ∧ w.vlen ≤ w.width
  free : w.cs = none
  goes : s.veHeld w = false
  noBlock : s.cke.blocks = []
  noLog : s.cA.log = [] ∧ s.cX.log = [] ∧ s.cA.dirBad = false ∧ s.cX.dirBad = false
  noError : (∀ k, s.spm.eccW k = .good) ∧ s.spm.gone = []
  noWait : s.sX.wait = none
  noTrip : s.cA.met = none ∧ s.cX.met = none
  plain : ∀ m ∈ w.mems, ftqsOf m.c = [] ∧ vMsk m.c < 8 ∧ vNx m.c = false ∧ m.c.ct = false ∧ m.acc = VeAcc.zero

/-- Commands whose lanes each take one element of each source (08 Table 8-15). -/
def elementwise (c : Slot) : Bool :=
  (0x40 ≤ c.opc && c.opc ≤ 0x4D) || c.opc = 0x4F || c.opc = 0x50 || (0x52 ≤ c.opc && c.opc ≤ 0x56) || (0x59 ≤ c.opc && c.opc ≤ 0x5B)

/-- The result of lane `e` from its source codes: the lane's, or the free value where the spec states none. -/
def laneCode (s : State) (w : VeWork) (m : VeMem) (e : Nat) (a b d : Nat) : Nat :=
  let c := m.c
  (laneOp c m.scale (scalBits m.regs c (vSrc c 1) (wSrc c 1)) (scalBits m.regs c (vSrc c 2) (wSrc c 2)) (s.maskBit (vFn c) e)
    (srRnd (vSr c) w.key (e + srBase c)) a b d).code.getD (openCode (dstTy c) c.opc [vOt c, vFn c, dstTy c, b2n (vSat c), a, b, d])

/-- The code of element `e` of a source that is an addressing form. -/
def formCode (s : State) (m : VeMem) (i e : Nat) : Nat :=
  leNat ((List.range (fmtBytes (srcTy m.c i))).map fun j => s.spm.byte ((vForm m.regs m.c i).addrN e + j))

/-- A destination form's elements stand one after the other, from `base`, inside the scratchpad. -/
def Dense (m : VeMem) (n base : Nat) : Prop :=
  isForm (vDst m.c) = true ∧ (∀ e, e < n → (vDstForm m.regs m.c).addrN e = base + fmtBytes (dstTy m.c) * e) ∧
    base + fmtBytes (dstTy m.c) * n ≤ spmSize

/-- After a beat, elements of `z` bytes from `base` hold what `code` says, where it says anything; every other byte is as before. -/
def stored (s t : State) (base z n : Nat) (code : Nat → Option Nat) : Prop :=
  (∀ e j, e < n → j < z → t.spm.byte (base + z * e + j) = match code e with
    | some v => BitVec.ofNat 8 (v / 2 ^ (8 * j))
    | none => s.spm.byte (base + z * e + j)) ∧
  ∀ x, ¬ (base ≤ x ∧ x < base + z * n) → t.spm.byte x = s.spm.byte x

/-! ### Issuing one command (07 R170 to R175, R196, 09 R251, R255, R256, R443) -/

/-- The state in which a word's checks and effects stand: the word is no longer the first after a START. -/
def State.began (s : State) (st : Sid) : State := s.modStr st fun t => { t with fresh := false }

/-- The word that a lone command makes, with what the stream and the VE had under way before it. -/
def State.loneLw (s : State) (st : Sid) (c : Slot) : LwInfo := { loneWord s st c with scal := (s.str st).scal.length, ve := s.vec.serial }

/-- A stream issues now, and nothing but the slot's own checks stands in the way of a word that holds this slot alone: no open
chain, no register that a loop steps here still to be written, room for a trace packet, no break, no lifecycle denial; the
kind admits the opcode, and the guard is true. -/
structure MayIssue (s : State) (st : Sid) (c : Slot) : Prop where
  issues : s.canIssue st = true
  noChain : (s.str st).chain = 0
  loopRegs : hazard (s.pendRegs st) (stepRegs (s.str st) (s.str st).pc.toNat) = false
  traceRoom : ¬ ((s.rf 0x8080 1 0 = 1 ∨ s.rf 0x8080 1 0 = 2) ∧ 64 ≤ s.ring.tr.length)
  allowed : ¬ ((s.str st).fresh = true ∧ s.rf 8 15 13 = 4)
  noBreak : s.breakChk st [(c, 0)] = none
  admits : kindAdmits st c.kind c.opc = true

/-- The guard of 08 R206 holds. -/
def Guarded (s : State) (st : Sid) (c : Slot) : Prop := guardTrue (s.str st) c = true

/-- No register that the command or its guard names or that it writes is still to be written (07 R175), and the command breaks no check of
08 R207 and 09 R443. -/
structure Sound (m : CmdSem) (s : State) (st : Sid) (c : Slot) : Prop where
  settled : hazard (s.pendRegs st) ((2, c.gp) :: m.regs c ++ m.dst c) = false
  checks : firstFail (m.chk (s.began st) st c (s.loneLw st c) ++ headChks (s.began st) c) = none

/-- All that a command needs to issue in a word of its own. -/
structure Clear (m : CmdSem) (s : State) (st : Sid) (c : Slot) : Prop where
  may : MayIssue s st c
  guard : Guarded s st c
  sound : Sound m s st c

/-- The performance count and the trace packet of a word (17 Table 17-8, 09 R256): `s` before it, `s'` after its effects. -/
def State.counted (s : State) (st : Sid) (tags : List W16) (s' : State) : State :=
  let w := s'.perf (1 + sidNat st) 1
  if s.rf 0x8080 1 0 = 0 then w
  else if w.ring.tr.length ≥ 64 then w.incRf 0x8088 15 0
  else { w with ring := { w.ring with tr := w.ring.tr ++ [tracePacket s st (s.str st).pc.toNat tags] } }

/-- A word of one command is left: `s` before it, `s'` after the command's effect; CC counts the command, the late writes
land, the loops that end here step, and the next address follows. -/
def State.retired (s : State) (st : Sid) (c : Slot) (s' : State) (jump : Option Nat) (ws : List RegWr) : State :=
  (s.counted st [c.tag] (s'.bumpCc st)).finishWord st (s.loneLw st c) jump ws

/-- A word of one command waits: its command is counted, PC stays; a deferred halt noted as it issued withdraws it (07 R197). -/
def State.waits (s : State) (st : Sid) (c : Slot) (s' : State) (k : WaitKind) : State :=
  let w := s.counted st [c.tag] (s'.bumpCc st)
  (w.modStr st fun t =>
    { t with wait := some ⟨k, c, (s.str st).pc.toNat, (loneWord s st c).len, none, [], (w.ownPend st (s.pendRegs st)).map t.rdReg⟩
             waited := 0, waitTold := false, stall := none }).takeNoted st

/-! ### A long word in its bank (09 R248 to R250) -/

/-- The words of a long word: header, slots in their order, a zero pad where the count is odd. -/
def packWords (st : Sid) (slots : List Slot) : List W64 :=
  let body := slots.flatMap fun c => c.base :: c.ext
  let n := body.length + 1
  let kinds := (slots.map fun c => 2 ^ (48 + c.kind)).sum
  let hdr := ((n + 1) / 2 - 1) * 2 ^ 60 + (match st with | .a => 0 | .x => 2 ^ 59) + kinds
  (BitVec.ofNat 64 hdr :: body) ++ (if n % 2 = 1 then [0] else [])

/-- Unit i of a long word: its two words, and the tags of the slots 2i and 2i + 1 beside them. -/
def packUnit (st : Sid) (slots : List Slot) (i : Nat) : BitVec 160 :=
  let w := packWords st slots
  let tag := fun (j : Nat) => match slots[j]? with | some c => c.tag.toNat | none => 0
  BitVec.ofNat 160 ((w.getD (2 * i) 0).toNat + (w.getD (2 * i + 1) 0).toNat * 2 ^ 64 + tag (2 * i) * 2 ^ 128 + tag (2 * i + 1) * 2 ^ 144)

/-- Units of a long word. -/
def packLen (st : Sid) (slots : List Slot) : Nat := (packWords st slots).length / 2

/-- The bank that a stream fetches from holds a long word of these slots at address `a`, in rows without error. -/
def State.holds (s : State) (st : Sid) (a : Nat) (slots : List Slot) : Prop :=
  ∀ i, i < packLen st slots → tget 0 s.imem.rows (s.rowKey st (a + 16 * i)) = packUnit st slots i ∧
    tget .good s.imem.ecc (s.rowKey st (a + 16 * i)) = .good

/-- Slots that a long word can hold: kinds strictly rising below 8, XW as many words as the slot has, 1 to 16 units. -/
def packable (st : Sid) (slots : List Slot) : Bool :=
  (slots.map (·.kind)).Pairwise (· < ·) && slots.all Slot.wf && !slots.isEmpty && decide (packLen st slots ≤ 16)

/-! ### The rows of commands that stand in long words -/

/-- The row that names a command by its opcode and its sub-operation (08 R217 to R237); a VCHAIN needs the words of its chain
beside it. -/
def rowOf (st : Sid) (c : Slot) : Option Instr :=
  match c.opc with
  | 0x01 => some (.sli st c) | 0x02 => some (.smov st c) | 0x03 => some (.sadd st c) | 0x04 => some (.ssub st c) | 0x05 => some (.smul st c)
  | 0x06 => some (.sand st c) | 0x07 => some (.sor st c) | 0x08 => some (.sxor st c) | 0x09 => some (.sshl st c) | 0x0A => some (.sshr st c)
  | 0x0B => some (.sshra st c) | 0x0C => some (.scmp st c) | 0x0D => some (.spl st c) | 0x0E => some (.sld st c) | 0x0F => some (.sst st c)
  | 0x10 => some (.loop st c) | 0x11 => some (.lexit st c) | 0x12 => some (.br st c) | 0x13 => some (.brp st c) | 0x14 => some (.brc st c)
  | 0x19 => some (.brk st c) | 0x1F => some (.halt st c) | 0x20 => some (.qpush st c) | 0x21 => some (.qpop st c) | 0x22 => some (.qwait st c)
  | 0x24 => some (.dmap st c) | 0x25 => some (.dmard st c) | 0x28 => some (.cbegin st c) | 0x29 => some (.ccommit st c) | 0x2A => some (.cvote st c)
  | 0x2B => some (.cabort st c) | 0x2C => some (.mwait st c) | 0x2D => some (.marm st c) | 0x2E => some (.barr st c) | 0x2F => some (.post st c)
  | 0x30 => some (.ttf st c) | 0x31 => some (.mxp st c) | 0x38 => some (.stkbind st c) | 0x39 => some (.stkfree st c) | 0x3A => some (.stkadv st c)
  | 0x3B => some (.stkmrg st c) | 0x3C => some (.stkset st c) | 0x3D => some (.stkrd st c) | 0x3E => some (.stkclr st c) | 0x40 => some (.vadd st c)
  | 0x41 => some (.vsub st c) | 0x42 => some (.vmul st c) | 0x43 => some (.vmin st c) | 0x44 => some (.vmax st c) | 0x45 => some (.vabs st c)
  | 0x46 => some (.vneg st c) | 0x47 => some (.vand st c) | 0x48 => some (.vor st c) | 0x49 => some (.vxor st c) | 0x4A => some (.vnot st c)
  | 0x4B => some (.vshl st c) | 0x4C => some (.vshr st c) | 0x4D => some (.vshra st c) | 0x4E => some (.vcmp st c) | 0x4F => some (.vsel st c)
  | 0x50 => some (.vcvt st c) | 0x51 => some (.vmset st c) | 0x52 => some (.vfma st c) | 0x53 => some (.vexp2 st c) | 0x54 => some (.vlog2 st c)
  | 0x55 => some (.vrcp st c) | 0x56 => some (.vrsq st c) | 0x57 => some (.vq st c) | 0x58 => some (.vdq st c) | 0x59 => some (.vlxadd st c)
  | 0x5A => some (.vlxcvt st c) | 0x5B => some (.vlxf st c) | 0x5C => some (.vcprs st c) | 0x5D => some (.vexpd st c) | 0x5E => some (.vsetl st c)
  | 0x60 => some (.redsum st c) | 0x61 => some (.redmax st c) | 0x62 => some (.redmin st c) | 0x63 => some (.redarg st c) | 0x64 => some (.redcnt st c)
  | 0x68 => some (.updf st c)
  | 0x69 =>
    (match c.f 47 45 with
  | 0 => some (.orbLoad st c) | 1 => some (.orbStep st c) | 2 => some (.orbMult st c) | 3 => some (.orbBias1 st c) | 4 => some (.orbBias2 st c) | 5 => some (.orbRdstep st c) | 6 => some (.orbSetstep st c) | _ => none)
  | 0x6A =>
    (match c.f 47 46 with
  | 0 => some (.rngkKey st c) | 1 => some (.rngkGen st c) | 2 => some (.rngkSeq st c) | _ => none)
  | _ => none

end Sys2Proof.Machine
end

