-- ==== Sys2Proof/Certificates/Slice0/Obligations.lean ====
section
/-!
DEFINITION. The statements for the provers: what the commands do, by the rules of spec/.
-/

open Sys2Proof Sys2Proof.Machine

/-- A step runs the command at the front of the queue (00_scope.md, "Notation", opcode_table.json). -/
def Obligations.StepRunsFrontCommand : Prop :=
  ∀ (c : Instr) (rest : List Instr) (s : State), step { s with pending := c :: rest } = exec c { s with pending := rest }

/-- A step on an empty queue is one ac of the clock; it moves time, waits, the port's request slot and what runs by itself (10_meridian.md, R264, 06_scratchpad_queues_tickets.md, R157, R165, 15_ports_fabric.md, R378, 17_register_map.md, Table 17-8, 11_consists.md, Table 11-8, 16_reset_power_lifecycle.md, R406, R413, 13_failure_survival.md, R336, R340, R348, 14_integrity_spares_test.md, R366, R368). The model's own choices that it rests on: log entries 1 (DESIGN CHOICE), 8 (DESIGN CHOICE), 139 (DESIGN CHOICE), 140 (DESIGN CHOICE). -/
def Obligations.IdleStepIsOneClockCycle : Prop :=
  (∀ s : State, s.pending = [] →
    let p := { s with pins := { s.pins with kpAck := s.pins.kpAck && s.tp.testMode, kpErr := s.pins.kpErr && s.tp.testMode, unlockAc := false } }
    step s = .next (if s.pins.aclkLocked = true then p.countTick.reqSlot.ckeRun.restoreRun else p)) ∧
  (∀ s : State,
    let t := s.countTick
    let stopped := s.mer.st = .unlocked ∨ s.pins.dead.contains 0x0F = true
    let stretching := s.pins.tripping ≠ [] ∨ (upto 4).any s.eighthDue = true
    sameSpm s t ∧ sameRegs s t ∧ t.pending = s.pending ∧ t.qsy = s.qsy ∧ t.bars = s.bars ∧ t.chans = s.chans ∧ t.fab = s.fab ∧ t.imem = s.imem ∧
    t.rounds = s.rounds ∧ t.trk = s.trk ∧ t.arr = s.arr ∧ t.orr = s.orr ∧ t.keys = s.keys ∧
    t.cke = s.cke ∧ t.rep = s.rep ∧ t.cal = s.cal ∧ t.bist = s.bist ∧ t.vec = s.vec ∧ t.tp = s.tp ∧
    (∀ st, (t.str st).loops = (s.str st).loops ∧ (t.str st).pc = (s.str st).pc ∧ (t.str st).st = (s.str st).st ∧
      (t.str st).cc = (s.str st).cc ∧ t.csu st = { s.csu st with left := (s.csu st).left - 16 } ∧
      (t.str st).waited = (s.str st).waited + if (s.str st).waitsOn.isSome = true then 1 else 0) ∧
    t.pins = { s.pins with stretched := t.pins.stretched, droopAc := s.pins.droopAc - 1 } ∧
    (stopped → t.mer = s.mer) ∧
    (¬ stopped → 0 < s.mer.slew → t.mer = { s.mer with cyc := s.mer.cyc + 1, since := s.mer.since + 1, slew := s.mer.slew - min (s.mer.inc / 2) s.mer.slew
                                                       count := s.mer.count + BitVec.ofNat 96 (min (s.mer.inc / 2) s.mer.slew) }) ∧
    (¬ stopped → s.mer.slew = 0 → ∃ d : Int, d.natAbs ≤ min (s.nominalInc / 1024) s.mer.trim.natAbs ∧ 0 ≤ d * s.mer.trim ∧
      t.mer = { s.mer with cyc := s.mer.cyc + 1, since := s.mer.since + 1, count := s.mer.count + BitVec.ofInt 96 (s.mer.inc + d), trim := s.mer.trim - d }) ∧
    (∀ off, off ∉ [0x100, 0x6008, 0x9008, 0x9100, 0x9160, 0x9168, 0x9170, 0x9178] → t.rd off = s.rd off) ∧
    (s.rb 0x9000 1 = true → ∀ off, off ≠ 0x6008 → t.rd off = s.rd off) ∧
    (s.rb 0x9000 1 = false → ∀ n, s.rf (0x9100 + 8 * n) 47 0 < 2 ^ 48 - 1 →
      (n = 0 → t.rf 0x9100 47 0 = s.rf 0x9100 47 0 + 1) ∧
      (∀ st, n = 12 + sidNat st → t.rf (0x9100 + 8 * n) 47 0 = s.rf (0x9100 + 8 * n) 47 0 + if (s.str st).waitsOn.isSome = true then 1 else 0) ∧
      (n = 14 → t.rf 0x9170 47 0 = s.rf 0x9170 47 0 + if s.govHolds = true then 1 else 0) ∧
      (n = 15 → t.rf 0x9178 47 0 = s.rf 0x9178 47 0 + if stretching ∨ s.pins.stretched.any (fun p => decide (p.2 = 0)) = true then 1 else 0)) ∧
    (t.rb 0x6008 2 = true ↔ s.rb 0x6008 2 = true ∧ (s.pins.tripping ≠ [] ∨ 1 < s.pins.droopAc ∨ s.tp.testMode = true)) ∧
    (∀ n, n ∈ s.pins.tripping ∨ (n < 4 ∧ s.eighthDue n = true) → (n, 1) ∈ t.pins.stretched) ∧
    (¬ stretching → ∀ k age, (k, age) ∈ t.pins.stretched ↔ age < 256 ∧ 0 < age ∧ (k, age - 1) ∈ s.pins.stretched)) ∧
  (∀ s : State, (∀ r ∈ s.fab.todo, s.reqBlock r = none) →
    (s.fab.todo = [] → s.slotTurn = none → s.reqSlot = s) ∧
    (∀ k, s.slotTurn = some k → k ∈ s.slotAsks ∧ ∀ a ∈ s.slotAsks, (s.fab.rr < a → s.fab.rr < k ∧ k ≤ a) ∧ (k ≤ s.fab.rr → k ≤ a)) ∧
    (∀ k, s.slotTurn = some k → k < 16 →
      ∃ r tag, r ∈ s.fab.todo ∧ r.ch = k ∧ (∀ q ∈ s.fab.reads ++ s.fab.writes, q.addr = r.addr → q.dead = true) ∧
        s.reqSlot.fab.todo = s.fab.todo.erase r ∧ s.reqSlot.fab.rr = k ∧ tag < 4096 ∧
        (r.sent = none → (∀ q ∈ s.fab.reads, q.tag ≠ tag) ∧ s.reqSlot.fab.writes = s.fab.writes ∧
          s.reqSlot.fab.reads = s.fab.reads ++ [{ r with tag := tag, serial := s.fab.serial + 1 }]) ∧
        (r.sent ≠ none → (∀ q ∈ s.fab.writes, q.tag ≠ tag) ∧ s.reqSlot.fab.reads = s.fab.reads ∧
          s.reqSlot.fab.writes = s.fab.writes ++ [{ r with tag := tag, serial := s.fab.serial + 1 }])) ∧
    (∀ ctx : BitVec 12, s.slotTurn = some (16 + ctx.toNat) → exec (.fabOutSend ctx) s = .next s.reqSlot)) ∧
  (∀ s : State,
    (s.cstate ≠ 1 → s.cstate ≠ 2 → s.ckeRun = s) ∧
    (s.cstate = 2 → (∀ j, s.cke.job = some j → j.got.length < j.want) → s.ckeRun = s) ∧
    (s.cstate = 1 → s.cke.job = none → s.cke.sealed = false →
      (s.quiesced = false → s.ckeRun = s) ∧
      (s.quiesced = true → s.ckeRun.cke.sealed = true ∧ s.ckeRun.cke.epoch = s.rf 0x1830 31 0 + 1 ∧ s.ckeRun.rf 0x1830 31 0 = (s.rf 0x1830 31 0 + 1) % 2 ^ 32)) ∧
    (∀ j r p, s.cstate = 2 → s.cke.job = some j → j.want ≤ j.got.length → j.what = .region r (some p) →
      s.ckeRun.cke.job = none ∧ p ∉ s.ckeRun.cke.blocks ∧ p ∉ s.ckeRun.cke.urgent) ∧
    (s.rf 0x1808 6 5 ≠ 1 → s.restoreRun = s) ∧
    (∀ j, s.rf 0x1808 6 5 = 1 → s.cke.job = some j → j.got.length < j.want → s.restoreRun = s) ∧
    (∀ j e, s.rf 0x1808 6 5 = 1 → s.cke.job = some j → j.want ≤ j.got.length → s.cke.regions = false → j.what = .trailer → s.openTrailer j = .inr e →
      s.restoreRun.rf 0x1808 6 5 = 3 ∧ s.restoreRun.rf 0x1808 39 32 = e % 256))

/-- The values that the spec gives for reset (07_program_model.md, Table 7-1, 10_meridian.md, Table 10-1, 16_reset_power_lifecycle.md, Table 16-2, 11_consists.md, Table 11-2, 17_register_map.md, R422). The model's own choices that it rests on: log entry 2 (DEDUCED). -/
def Obligations.ResetValues : Prop :=
  State.reset.pending = [] ∧
  (∀ st : Sid, (State.reset.str st).st = .idle ∧ (State.reset.str st).loops = [] ∧ (State.reset.str st).cc = 0 ∧
    (∀ i, (State.reset.str st).rdA i = 0 ∧ (State.reset.str st).rdN i = 0 ∧ (State.reset.str st).rdP i = decide (i = 0) ∧
      (State.reset.str st).lcn i = 0) ∧
    (State.reset.csu st).st = .idle) ∧
  (∀ m : Nat, ∀ k, k < 1024 → State.reset.maskBit m k = decide (m = 0)) ∧ State.reset.vec.vlen = 0 ∧
  State.reset.mer.st = .unlocked ∧ State.reset.now = 0 ∧
  (∀ n, State.reset.ctxBound n = false) ∧
  (∀ a, State.reset.spm.byte a = 0) ∧ State.reset.rb 8 0 = true ∧ State.reset.rb 8 1 = false ∧
  State.reset.rf 0 63 56 = 3 ∧ State.reset.rf 0 55 48 = 1 ∧ State.reset.rf 0 47 40 = 0 ∧ State.reset.rf 0 31 0 = 0x4D434F33

/-- The state right after reset meets the invariants (16_reset_power_lifecycle.md, "Wipe"). -/
def Obligations.ResetMeetsTheInvariants : Prop := State.reset.memWf = true ∧ State.reset.boundsWf ∧ State.reset.consistsWf

/-- Every step keeps the memories in their canonical form (06_scratchpad_queues_tickets.md, R134, R137, 09_translation_imem_debug.md, R241, R242). -/
def Obligations.StepKeepsMemoriesCanonical : Prop :=
  ∀ s t : State, s.memWf = true → step s = .next t → t.memWf = true

/-- Every step keeps tickets distinct, loops at most four deep and request tags distinct (06_scratchpad_queues_tickets.md, R149, R150, 07_program_model.md, R182, R184, R186, 15_ports_fabric.md, R378). -/
def Obligations.StepKeepsTicketsLoopsAndTags : Prop := ∀ s t : State, s.boundsWf → step s = .next t → t.boundsWf

/-- Every step keeps the logs of the consists distinct, in their regions and apart (11_consists.md, R279 to R284, R287, R298 in part, 11_consists.md, Table 11-8). -/
def Obligations.StepKeepsConsistLogs : Prop := ∀ s t : State, s.consistsWf → step s = .next t → t.consistsWf

/-- Every command answers a next state, from every state (opcode_table.json, 09_translation_imem_debug.md, Table 9-7). The model's own choices that it rests on: log entries 11 (DESIGN CHOICE), 105 (DEDUCED). -/
def Obligations.EveryCommandCompletes : Prop := ∀ (i : Instr) (s : State), ∃ t : State, exec i s = .next t

/-- A fetched long word of one command does what the command's row does (09_translation_imem_debug.md, "The physical long word", 07_program_model.md, "Program order", 08_operation_reference.md). The model's own choices that it rests on: log entry 10 (DESIGN CHOICE). -/
def Obligations.LongWordIssueRunsItsCommand : Prop :=
  ∀ (s : State) (st : Sid) (c : Slot) (i : Instr),
    packable st [c] = true → kindAdmits st c.kind c.opc = true → rowOf st c = some i →
    s.holds st (s.str st).pc.toNat [c] →
    ∃ t : State, exec i s = .next t ∧
      exec (.longWordIssue st) s = .next (if s.canIssue st = true then t.noteRow st (s.bankOf st) else t)

/-- The long word that a bank holds reads back slot for slot (09_translation_imem_debug.md, "The physical long word", 08_operation_reference.md, "Word layout"). -/
def Obligations.LongWordReadsBack : Prop :=
  ∀ (s : State) (st : Sid) (a : Nat) (slots : List Slot), packable st slots = true → s.holds st a slots →
    (s.readLw st a).slots = slots ∧ (s.readLw st a).keys.length = packLen st slots ∧
    (s.readLw st a).total + (if (s.readLw st a).total % 2 = 1 then 1 else 0) = (s.readLw st a).words.length ∧
    bit (s.readLw st a).hdr 59 = decide (st = .x) ∧ fld (s.readLw st a).hdr 58 56 = 0 ∧ fld (s.readLw st a).hdr 47 0 = 0

/-- A command whose guard is false has no effect and still counts (07_program_model.md, R174 in part, 08_operation_reference.md, R206 in part). -/
def Obligations.FalseGuardHasNoEffect : Prop :=
  ∀ (s : State) (st : Sid) (c : Slot) (i : Instr), c.wf = true → rowOf st c = some i → MayIssue s st c → ¬ Guarded s st c →
    (c.gp = 0 ∨ hazard (s.pendRegs st) [(2, c.gp)] = false) →
    firstFail (((cmdOf [] [] c).chk (s.began st) st c (s.loneLw st c) ++ headChks (s.began st) c).filter (·.cls = 1)) = none →
    exec i s = .next (s.retired st c (s.began st) none [])

/-- A failing check halts the stream precisely, and no command has effect (07_program_model.md, R171 and R196 in part, 09_translation_imem_debug.md, R257 in part). -/
def Obligations.FailingCheckHaltsPrecisely : Prop :=
  ∀ (s : State) (st : Sid) (c : Slot) (i : Instr) (f : Chk), c.wf = true → rowOf st c = some i → MayIssue s st c → Guarded s st c →
    hazard (s.pendRegs st) ((2, c.gp) :: (cmdOf [] [] c).regs c) = false →
    firstFail ((cmdOf [] [] c).chk (s.began st) st c (s.loneLw st c) ++ headChks (s.began st) c) = some f → f.rsn ≠ 0x0A →
    ∃ t : State, exec i s = .next t ∧ (t.str st).st = .halted ∧ (t.str st).pc = (s.str st).pc ∧
      t.rf (haltBase st) 63 56 = f.rsn % 256 ∧ t.rf (haltBase st) 16 0 = (s.str st).pc.toNat ∧
      t.rb (haltBase st) 55 = true ∧ t.rb (haltBase st) 54 = false ∧ t.rb (haltBase st) 53 = false ∧
      t.rb 0x100 (evHalt st) = true ∧
      sameRegs s t ∧ (t.str st).cc = (s.str st).cc ∧ (t.str st).loops = (s.str st).loops ∧ (t.str st).scal = (s.str st).scal ∧
      sameSpm s t ∧ t.trk = s.trk ∧ t.vec = s.vec ∧ t.bars = s.bars ∧ t.cA = s.cA ∧ t.cX = s.cX ∧ t.arr = s.arr ∧
      t.chans = s.chans ∧ t.fab = s.fab ∧ t.imem = s.imem ∧ t.mer = s.mer ∧ t.keys = s.keys ∧ t.orr = s.orr ∧ t.cke = s.cke

/-- Leaving a word of one command moves PC and CC and changes nothing of the command's effect (07_program_model.md, R169, R170, R183, 09_translation_imem_debug.md, R248, R254). -/
def Obligations.RetiredWordMovesOnlyPcAndCounts : Prop :=
  ∀ (s s' : State) (st : Sid) (c : Slot) (jump : Option Nat) (ws : List RegWr),
    (s'.str st).chain = 0 → (s'.str st).pendHalt = none →
    (∀ l, (s'.str st).loops.getLast? = some l → l.fin ≠ (s.str st).pc.toNat) →
    let t := s.retired st c s' jump ws
    (t.str st).pc = BitVec.ofNat 17 (jump.getD ((s.str st).pc.toNat + 16 * ((c.xw + 3) / 2))) ∧
    (t.str st).cc = (s'.str st).cc + 1 ∧ (t.str st).wait = none ∧
    (t.str st).a = (ws.foldl Stream.wrReg (s'.str st)).a ∧ (t.str st).n = (ws.foldl Stream.wrReg (s'.str st)).n ∧
    (t.str st).p = (ws.foldl Stream.wrReg (s'.str st)).p ∧ (t.str st).loops = (s'.str st).loops ∧
    (t.str st).st = (s'.str st).st ∧ (t.str st).scal = (s'.str st).scal ∧ t.str (otherSid st) = s'.str (otherSid st) ∧
    t.vec = s'.vec ∧ t.spm = s'.spm ∧ t.qsy = s'.qsy ∧ t.bars = s'.bars ∧ t.chans = s'.chans ∧ t.fab = s'.fab ∧ t.imem = s'.imem ∧
    t.mer = s'.mer ∧ t.cA = s'.cA ∧ t.cX = s'.cX ∧ t.rounds = s'.rounds ∧ t.trk = s'.trk ∧ t.arr = s'.arr ∧ t.orr = s'.orr ∧
    t.keys = s'.keys ∧ t.cke = s'.cke ∧ t.rep = s'.rep ∧ t.cal = s'.cal ∧ t.pins = s'.pins ∧ t.pending = s'.pending

/-- At END the innermost loop steps its registers, counts down, and jumps back or ends (07_program_model.md, R182 to R185 in part). -/
def Obligations.LoopEndStepsAndJumpsBack : Prop :=
  ∀ (s s' : State) (st : Sid) (c : Slot) (ws : List RegWr) (outer : List LoopLvl) (l : LoopLvl),
    (s'.str st).chain = 0 → (s'.str st).pendHalt = none → (s'.str st).loops = outer ++ [l] → l.fin = (s.str st).pc.toNat →
    let t := s.retired st c s' none ws
    let stepped := l.steps.foldl (fun (a : Tbl W48) (p : Nat × Int) => tmod 0 a p.1 fun v => v + BitVec.ofInt 48 p.2)
      (ws.foldl Stream.wrReg (s'.str st)).a
    (l.lc ≠ 1 → (t.str st).a = stepped ∧ (t.str st).loops = outer ++ [{ l with lc := l.lc - 1 }] ∧
      (t.str st).pc = BitVec.ofNat 17 l.start) ∧
    (l.lc = 1 → (∀ o, outer.getLast? = some o → o.fin ≠ l.fin) →
      (t.str st).a = stepped ∧ (t.str st).loops = outer ∧
      (t.str st).pc = BitVec.ofNat 17 ((s.str st).pc.toNat + 16 * ((c.xw + 3) / 2)))

/-- SADD, SSUB, SAND, SOR, SXOR, SSHL, SSHR and SSHRA write their 32-bit result, SADD and SSUB of A registers the 48-bit one, SMUL writes late (07_program_model.md, Table 7-2, 08_operation_reference.md, R217 in part, 07_program_model.md, Table 7-2, R170). -/
def Obligations.ScalarArithmetic : Prop :=
  (∀ r ∈ ([(Instr.sadd, saddSem, 0x03, fun x y => x + y), (Instr.ssub, ssubSem, 0x04, fun x y => x - y),
      (Instr.sand, sandSem, 0x06, fun x y => x &&& y), (Instr.sor, sorSem, 0x07, fun x y => x ||| y),
      (Instr.sxor, sxorSem, 0x08, fun x y => x ^^^ y), (Instr.sshl, sshlSem, 0x09, fun x y => x <<< y.toNat),
      (Instr.sshr, sshrSem, 0x0A, fun x y => x >>> y.toNat), (Instr.sshra, sshraSem, 0x0B, fun x y => x.sshiftRight y.toNat)] :
      List ((Sid → Slot → Instr) × CmdSem × Nat × (W32 → W32 → W32))),
  ∀ (s : State) (st : Sid) (c0 : Slot), let c := asOpc r.2.2.1 c0
    c.f 47 46 = 0 → Clear r.2.1 s st c →
    let x := (s.str st).rdN (c.f 39 36)
    let y := if bit c.base 35 then BitVec.ofNat 32 (fld (c.x 0) 31 0) else (s.str st).rdN (c.f 32 29)
    exec (r.1 st c0) s = .next (s.retired st c ((s.began st).setReg st 0 (c.f 45 42) (r.2.2.2 x y).toNat) none [])) ∧
  (∀ (s : State) (st : Sid) (c0 : Slot),
    (∀ r ∈ ([(Instr.sadd, saddSem, 0x03, fun x y => x + y), (Instr.ssub, ssubSem, 0x04, fun x y => x - y)] :
        List ((Sid → Slot → Instr) × CmdSem × Nat × (W48 → W48 → W48))),
      let c := asOpc r.2.2.1 c0
      c.f 47 46 = 1 → Clear r.2.1 s st c →
      let x := (s.str st).rdA (c.f 39 36)
      let y := if bit c.base 35 then BitVec.ofNat 48 (fld (c.x 0) 47 0) else (s.str st).rdA (c.f 32 29)
      exec (r.1 st c0) s = .next (s.retired st c ((s.began st).setReg st 1 (c.f 45 42) (r.2.2.2 x y).toNat) none [])) ∧
    (let c := asOpc 0x05 c0
     Clear smulSem s st c →
      let x := (s.str st).rdN (c.f 39 36)
      let y := if bit c.base 35 then BitVec.ofNat 32 (fld (c.x 0) 31 0) else (s.str st).rdN (c.f 32 29)
      exec (.smul st c0) s = .next (s.retired st c (s.began st) none [⟨0, c.f 45 42, (x * y).toNat⟩])))

/-- SLI writes its immediate, SMOV moves between register kinds and reads the stream's counters, SCMP and SPL write a predicate (07_program_model.md, R173, R176, R177 in part, 07_program_model.md, Table 7-2, 08_operation_reference.md, R217, R218 in part, 07_program_model.md, Tables 7-1 and 7-2, 08_operation_reference.md, R217 in part, Table 8-10). The model's own choices that it rests on: log entry 58 (DEDUCED). -/
def Obligations.MovesAndPredicates : Prop :=
  (∀ (s : State) (st : Sid) (c0 : Slot),
    (let c := asOpc 0x01 c0
    Clear sliSem s st c →
     (c.f 47 46 = 0 → exec (.sli st c0) s = .next (s.retired st c ((s.began st).setReg st 0 (c.f 45 42) (fld (c.x 0) 31 0)) none [])) ∧
     (c.f 47 46 = 1 → exec (.sli st c0) s = .next (s.retired st c ((s.began st).setReg st 1 (c.f 45 42) (fld (c.x 0) 47 0)) none []))) ∧
    let c := asOpc 0x02 c0
    Clear smovSem s st c →
    let t := s.str st
    let i := c.f 39 36
    let put := fun (k : Nat) (v : Nat) (h : Option W32) =>
      exec (.smov st c0) s = .next (s.retired st c (((s.began st).modStr st fun t => { t with mhi := h }).setReg st k (c.f 45 42) v) none [])
    (c.f 41 40 = 0 → c.f 47 46 = 0 → put 0 (t.rdN i).toNat t.mhi) ∧
    (c.f 41 40 = 1 → c.f 47 46 = 1 → put 1 (t.rdA i).toNat t.mhi) ∧
    (c.f 41 40 = 0 → c.f 47 46 = 1 → put 1 ((t.rdN i).signExtend 48).toNat t.mhi) ∧
    (c.f 41 40 = 1 → c.f 47 46 = 0 → put 0 ((t.rdA i).setWidth 32).toNat t.mhi) ∧
    (c.f 41 40 = 2 → c.f 47 46 = 0 → put 0 (if t.rdP i then 1 else 0) t.mhi) ∧
    (c.f 41 40 = 0 → c.f 47 46 = 2 → put 2 (if t.rdN i = 0 then 0 else 1) t.mhi) ∧
    (c.f 41 40 = 2 → c.f 47 46 = 2 → put 2 (if t.rdP i then 1 else 0) t.mhi) ∧
    (c.f 41 40 = 1 → c.f 47 46 = 2 → put 2 (if t.rdA i = 0 then 0 else 1) t.mhi) ∧
    (c.f 41 40 = 2 → c.f 47 46 = 1 → put 1 (if t.rdP i then 1 else 0) t.mhi) ∧
    (c.f 41 40 = 3 → ∀ (x : W32) (h : Option W32), (x, h) =
        (if i < 4 then (t.lcn i, t.mhi) else if i = 4 then (t.cc.setWidth 32, t.mhi) else if i = 5 then ((t.cc >>> 32).setWidth 32, t.mhi)
         else if i = 6 then (s.now.setWidth 32, some ((s.now >>> 32).setWidth 32)) else (t.mhi.getD ((s.now >>> 32).setWidth 32), none)) →
      i < 8 ∧ (c.f 47 46 = 0 → put 0 x.toNat h) ∧ (c.f 47 46 = 1 → put 1 (x.signExtend 48).toNat h) ∧
      (c.f 47 46 = 2 → put 2 (if x = 0 then 0 else 1) h))) ∧
  (∀ (s : State) (st : Sid) (c0 : Slot),
    (let c := asOpc 0x0C c0
     Clear scmpSem s st c →
      let x := (s.str st).rdN (c.f 39 36)
      let y := if bit c.base 35 then BitVec.ofNat 32 (fld (c.x 0) 31 0) else (s.str st).rdN (c.f 32 29)
      let lt := if bit c.base 28 then x.ult y else x.slt y
      let v := match c.f 27 25 with
        | 0 => x == y | 1 => x != y | 2 => lt | 3 => lt || x == y | 4 => !lt && x != y | _ => !lt
      exec (.scmp st c0) s = .next (s.retired st c ((s.began st).setReg st 2 (c.f 45 42) (if v then 1 else 0)) none [])) ∧
    (let c := asOpc 0x0D c0
     Clear splSem s st c →
      let x := (s.str st).rdP (c.f 39 36)
      let y := (s.str st).rdP (c.f 32 29)
      let v := match c.f 27 25 with | 0 => x && y | 1 => x || y | 2 => x ^^ y | 3 => x && !y | _ => !x
      exec (.spl st c0) s = .next (s.retired st c ((s.began st).setReg st 2 (c.f 45 42) (if v then 1 else 0)) none [])) ∧
    (∀ v, ((s.setReg st 2 0 v).str st).p = (s.str st).p) ∧
    (∀ i v, i ≠ 0 → ((s.setReg st 2 i v).str st).rdP i = decide (v % 2 = 1)))

/-- SLD and SST put an access on its way; a served access loads its register, key or schedule, or writes its bytes in place and no other (07_program_model.md, R175, R176, Table 7-2, 08_operation_reference.md, R217 in part, 07_program_model.md, R176, 06_scratchpad_queues_tickets.md, R135, 05_vector_engine.md, R110 in part, 12_training_step.md, R318, R323 in part). The model's own choices that it rests on: log entries 79 (DEDUCED), 55 (DEDUCED). -/
def Obligations.ScalarLoadsAndStores : Prop :=
  (∀ (s : State) (st : Sid) (c0 : Slot),
    (let c := asOpc 0x0E c0
     Clear sldSem s st c →
      let a := (selForm (s.str st).regs c (c.f 41 36) 0).addrN 0
      exec (.sld st c0) s = .next (s.retired st c ((s.began st).pushAcc st c true (c.f 47 46) (c.f 45 42)
        ((List.range (if c.f 47 46 = 1 then 8 else 4)).map (a + ·)) []) none [])) ∧
    (let c := asOpc 0x0F c0
     Clear sstSem s st c →
      let a := (selForm (s.str st).regs c (c.f 41 36) 0).addrN 0
      (c.f 47 46 = 0 → exec (.sst st c0) s = .next (s.retired st c ((s.began st).pushAcc st c false 0 (c.f 45 42)
        ((List.range 4).map (a + ·)) (leBytes 4 ((s.str st).rdN (c.f 45 42)).toNat)) none [])) ∧
      (c.f 47 46 = 1 → exec (.sst st c0) s = .next (s.retired st c ((s.began st).pushAcc st c false 1 (c.f 45 42)
        ((List.range 8).map (a + ·)) (leBytes 8 ((s.str st).rdA (c.f 45 42)).toNat)) none [])))) ∧
  (∀ (s : State) (st : Sid) (a : ScalAcc) (rest : List ScalAcc) (base : Nat), (s.str st).scal = a :: rest → s.accHeld st a = false →
    a.cs = none → s.cA.log = [] → s.cX.log = [] → s.cA.dirBad = false → s.cX.dirBad = false → (s.str st).wait = none →
    (a.isLoad = true → a.kind < 2 → a.bytes = [] → (∀ k ∈ a.addrs, s.spm.eccAt k = .good) → base + a.addrs.length ≤ spmSize →
      a.addrs = (List.range a.addrs.length).map (base + ·) →
      ∃ t : State, exec (.scratchpadScalarAccess st) s = .next t ∧ sameSpm s t ∧ (t.str st).scal = rest ∧
        (a.kind = 0 → (t.str st).rdN a.idx = BitVec.ofNat 32 (leNat (a.addrs.map s.spm.byte)) ∧ (t.str st).a = (s.str st).a) ∧
        (a.kind = 1 → (t.str st).rdA a.idx = BitVec.ofNat 48 (leNat (a.addrs.map s.spm.byte)) + a.add ∧ (t.str st).n = (s.str st).n) ∧
        (t.str st).p = (s.str st).p ∧ t.str (otherSid st) = s.str (otherSid st)) ∧
    (a.isLoad = true → a.kind = 3 → a.bytes = [] → (∀ k ∈ a.addrs, s.spm.eccAt k = .good) → a.addrs.length = 16 →
      (∀ k ∈ a.addrs, k < spmSize) →
      let b := fun (i n : Nat) => leNat (((a.addrs.map s.spm.byte).drop i).take n)
      ∃ t : State, exec (.scratchpadScalarAccess st) s = .next t ∧ sameSpm s t ∧ sameRegs s t ∧ (t.str st).scal = rest ∧ (∀ j, j ≠ a.idx → t.key j = s.key j) ∧
        t.key a.idx = { s.key a.idx with seed := BitVec.ofNat 64 (b 0 8), stream := BitVec.ofNat 32 (b 8 4), step := BitVec.ofNat 32 (b 12 4), seq := false }) ∧
    (a.isLoad = true → a.kind = 4 → a.bytes ≠ [] → (∀ k ∈ a.addrs, s.spm.eccAt k = .good) → (∀ k ∈ a.addrs, k < spmSize) →
      ∃ t : State, exec (.scratchpadScalarAccess st) s = .next t ∧ sameSpm s t ∧ sameRegs s t ∧ (t.str st).scal = rest ∧
        t.sched a.idx = ⟨a.bytes, true, BitVec.ofNat 32 (leNat ((a.bytes.drop 4).take 4))⟩ ∧ ∀ j, j ≠ a.idx → t.sched j = s.sched j) ∧
    (∀ k l, a.isLoad = true → a.kind = 4 → a.bytes = [] → a.addrs = k :: l → (s.str st).st = .running → (s.str st).chain = 0 →
      ∃ t : State, exec (.scratchpadScalarAccess st) s = .next t ∧ sameSpm s t ∧ sameRegs s t ∧ t.orr = s.orr ∧ (t.str st).st = .halted ∧
        t.rf (haltBase st) 63 56 = 0x0B) ∧
    (a.isLoad = false → s.writeBlock (some st) none base a.addrs.length = none → s.spm.gone = [] →
      a.addrs = (List.range a.bytes.length).map (base + ·) → a.bytes ≠ [] →
      ∃ t : State, exec (.scratchpadScalarAccess st) s = .next t ∧ (t.str st).scal = rest ∧ sameRegs s t ∧
        (∀ x, t.spm.byte x = if base ≤ x ∧ x < base + a.bytes.length then a.bytes.getD (x - base) 0 else s.spm.byte x)))

/-- LOOP pushes a level with its latched count, or skips the body; LEXIT leaves levels without their steps; BR, BRP and BRC go to their target where taken (07_program_model.md, R182, R186 in part, 08_operation_reference.md, R217 in part, Table 8-10, 07_program_model.md, R188 and R189 in part, 08_operation_reference.md, R217 in part). The model's own choices that it rests on: log entry 118 (DESIGN CHOICE). -/
def Obligations.LoopsAndBranches : Prop :=
  (∀ (s : State) (st : Sid) (c0 : Slot),
    (let c := asOpc 0x11 c0
    Clear lexitSem s st c →
    let t := s.str st
    let k := t.loops.length - (c.f 47 46 + 1)
    c.f 47 46 + 1 ≤ t.loops.length ∧
    ∀ l, t.loops[k]? = some l →
      exec (.lexit st c0) s = .next (s.retired st c ((s.began st).modStr st fun t => { t with loops := t.loops.take k })
        (some (l.fin + 16 * (fld (tget 0 s.imem.rows (s.bankOf st * 8192 + l.fin / 16)) 63 60 + 1))) [])) ∧
    let c := asOpc 0x10 c0
    Clear loopSem s st c →
    let t := s.str st
    let count : W32 := if bit c.base 47 then t.rdN (c.f 46 44) else BitVec.ofNat 32 (c.f 43 28)
    let pc := t.pc.toNat
    let len := 16 * ((c.xw + 3) / 2)
    t.loops.length < 4 ∧
    (count = 0 → exec (.loop st c0) s = .next (s.retired st c (s.began st)
        (some (pc + 16 * c.f 24 9 + 16 * (fld (tget 0 s.imem.rows (s.bankOf st * 8192 + (pc + 16 * c.f 24 9) / 16)) 63 60 + 1))) [])) ∧
    (count ≠ 0 → exec (.loop st c0) s = .next (s.retired st c
        ((s.began st).modStr st fun t => { t with loops := t.loops ++ [⟨pc + len, pc + 16 * c.f 24 9, count, loopSteps c⟩] })
        (some (pc + len)) []))) ∧
  (∀ (s : State) (st : Sid) (c0 : Slot),
    let target := fun (c : Slot) => (((s.str st).pc.toNat : Int) + sfld c.base 47 24).toNat
    (Clear brSem s st (asOpc 0x12 c0) →
      exec (.br st c0) s = .next (s.retired st (asOpc 0x12 c0) (s.began st) (some (target (asOpc 0x12 c0))) [])) ∧
    (Clear brpSem s st (asOpc 0x13 c0) →
      exec (.brp st c0) s = .next (s.retired st (asOpc 0x13 c0) (s.began st) (some (target (asOpc 0x13 c0))) [])) ∧
    (let c := asOpc 0x14 c0
     Clear brcSem s st c →
      let y := if bit c.base 20 then BitVec.ofNat 32 (fld (c.x 0) 31 0) else (s.str st).rdN (c.f 19 17)
      exec (.brc st c0) s = .next (s.retired st c (s.began st)
        (if relHolds (bit c.base 16) (c.f 15 13) ((s.str st).rdN (c.f 23 21)) y then some (target c) else none) [])) ∧
    (∀ u x y, relHolds u 0 x y = decide (x = y) ∧ relHolds u 1 x y = decide (x ≠ y) ∧ relHolds u 5 x y = !relHolds u 2 x y ∧
      relHolds u 4 x y = !relHolds u 3 x y ∧ relHolds true 2 x y = x.ult y ∧ relHolds false 2 x y = x.slt y))

/-- HALT stops its stream with its immediate; BRK stops it only where breaks are enabled (08_operation_reference.md, R218 in part, 09_translation_imem_debug.md, Tables 9-6 and 9-7, R259). -/
def Obligations.HaltAndBrkCommands : Prop :=
  ∀ (s : State) (st : Sid) (c0 : Slot),
    (let c := asOpc 0x1F c0
     MayIssue s st c → c.gp = 0 → c.gn = false → c.ct = false → c.xw = 0 → c.f 47 16 = 0 →
      ∃ t : State, exec (.halt st c0) s = .next t ∧ (t.str st).st = .halted ∧ (t.str st).pc = (s.str st).pc ∧
        t.rf (haltBase st) 63 56 = 0 ∧ t.rf (haltBase st + 16) 63 48 = c.f 15 0 ∧ sameRegs s t ∧ sameSpm s t) ∧
    (let c := asOpc 0x19 c0
     Clear brkSem s st c → s.rb (0x8000 + 0x40 * sidNat st) 2 = false ∧
      exec (.brk st c0) s = .next (s.retired st c (s.began st) none [])) ∧
    (let c := asOpc 0x19 c0
     MayIssue s st c → Guarded s st c → hazard (s.pendRegs st) [(2, c.gp)] = false → c.ct = false → c.xw = 0 → c.f 47 16 = 0 →
      s.rb (0x8000 + 0x40 * sidNat st) 2 = true →
      ∃ t : State, exec (.brk st c0) s = .next t ∧ (t.str st).st = .halted ∧ (t.str st).pc = (s.str st).pc ∧
        t.rf (haltBase st) 63 56 = 0x17 ∧ t.rf (haltBase st + 16) 63 48 = c.f 15 0 ∧ sameRegs s t ∧ sameSpm s t)

/-- QPUSH pushes its entry where quota allows it, else waits behind earlier producers (06_scratchpad_queues_tickets.md, R147, R149, R152 in part, 08_operation_reference.md, R219 in part). The model's own choices that it rests on: log entries 55 (DEDUCED), 49 (DEDUCED). -/
def Obligations.QpushPushesOrWaits : Prop :=
  ∀ (s : State) (st : Sid) (c0 : Slot) (e : Entry), let c := asOpc 0x20 c0
    Clear qpushSem s st c →
    let t := s.str st
    let n := qctx t c
    let sel := c.f 30 25
    let addrs := (selForm t.regs c sel 0).byteAddrs
    let tkt := if bit c.base 34 then some (fld (t.rdN (c.f 33 31)) 15 0) else none
    ((sel = 0 ∧ e = mkEntry [⟨0, false, .good⟩]) ∨
      (8 ≤ sel ∧ sel ≤ 15 ∧ e = mkEntry [⟨BitVec.ofNat 512 (t.rdN (sel - 8)).toNat, false, .good⟩]) ∨
      (isForm sel = true ∧ s.cA.log = [] ∧ s.cX.log = [] ∧ (∀ a ∈ addrs, s.spm.eccAt a = .good) ∧
        e = mkEntry (carsOf (addrs.map s.spm.byte)))) →
    let held := s.pushHeld st (if isForm sel then addrs else [])
    (held = true → exec (.qpush st c0) s = .next (s.waits st c (s.began st) .stores)) ∧
    (held = false → (s.ctxClass n ≠ 5 ∨ ((s.csu st).st ≠ .opened ∧ (s.csu st).st ≠ .doomed)) →
    ((s.ctx n).prod = [] → s.canAlloc n e.cars.length = true →
      exec (.qpush st c0) s = .next (s.retired st c ((s.began st).pushNow n tkt e) none [])) ∧
    ((s.ctx n).prod ≠ [] ∨ s.canAlloc n e.cars.length = false →
      exec (.qpush st c0) s = .next (s.waits st c
        ((s.began st).modCtx n fun k => { k with prod := k.prod ++ [⟨sidNat st, tkt, e⟩] }) (.push n))))

/-- A push takes the context's next ticket; the consumer takes the entry whose ticket is due (06_scratchpad_queues_tickets.md, R149, R150, R151 in part). The model's own choices that it rests on: log entry 127 (DESIGN CHOICE). -/
def Obligations.TicketsOrderEntries : Prop :=
  ∀ (s : State) (n : Nat) (e : Entry),
    (((s.ctx n).nt + 65536 - (s.ctx n).et) % 65536 < 32768 → (∀ x ∈ (s.ctx n).entries, x.tkt ≠ (s.ctx n).nt) →
      ((s.pushNow n none e).ctx n).entries = (s.ctx n).entries ++ [{ e with tkt := (s.ctx n).nt }] ∧
      ((s.pushNow n none e).ctx n).nt = ((s.ctx n).nt + 1) % 65536 ∧ ((s.pushNow n none e).ctx n).et = (s.ctx n).et ∧
      (∀ m, m ≠ n → (s.pushNow n none e).ctx m = s.ctx m) ∧ { s.pushNow n none e with qsy := s.qsy } = s) ∧
    (e.src = none → ((s.takeHead n e).ctx n).et = ((s.ctx n).et + 1) % 65536 ∧
      ((s.takeHead n e).ctx n).entries = (s.ctx n).entries.filter (fun x => x.tkt ≠ e.tkt) ∧
      (∀ m, m ≠ n → (s.takeHead n e).ctx m = s.ctx m) ∧ { s.takeHead n e with qsy := s.qsy } = s) ∧
    (∀ t, (s.ctx n).cons = [] →
      ((t + 65536 - (s.ctx n).et) % 65536 ≥ 32768 ∨ ∃ x ∈ (s.ctx n).entries, x.tkt = t) →
      ((s.pushNow n (some t) e).ctx n).ordflt = true ∧ ((s.pushNow n (some t) e).ctx n).badTkt = t ∧
      ((s.pushNow n (some t) e).ctx n).entries = (s.ctx n).entries)

/-- QPOP and QWAIT take the entry that is due, or wait in turn (06_scratchpad_queues_tickets.md, R151, R152 in part, 08_operation_reference.md, R219, R220 in part). -/
def Obligations.QpopAndQwaitTakeTheHead : Prop :=
  ∀ (s : State) (st : Sid) (c0 : Slot),
    (let c := asOpc 0x21 c0
     Clear qpopSem s st c →
      let t := s.str st
      let n := qctx t c
      let sel := c.f 30 25
      let addrs := (selForm t.regs c sel 0).byteAddrs
      let lenReg := if bit c.base 24 then some (c.f 23 21) else none
      let late := fun (e : Entry) => match lenReg with | some r => [RegWr.mk 0 r e.cars.length] | none => []
      (∀ e, (s.ctx n).cons = [] → (s.ctx n).headEntry = some e → e.cars.any (fun k => k.poison || decide (k.ecc = .bad)) = false →
        (isN sel = true → exec (.qpop st c0) s = .next (s.retired st c ((s.began st).takeHead n e) none
          (late e ++ [⟨0, sel - 8, (match e.cars with | k :: _ => fld k.data 31 0 | [] => 0)⟩]))) ∧
        (isN sel = false → s.blockOfPairs (some st) (s.csu st).tagNow (addrs.zip e.bytes) = none → exec (.qpop st c0) s = .next (s.retired st c
          (((s.began st).takeHead n e).asBeat fun s => s.writePairs (some st) (s.csu st).tagNow (addrs.zip e.bytes)) none (late e)))) ∧
      ((s.ctx n).cons ≠ [] ∨ (s.ctx n).headEntry = none →
        exec (.qpop st c0) s = .next (s.waits st c ((s.began st).modCtx n fun k => { k with cons := k.cons ++
          [{ agent := sidNat st, dst := if isN sel then .reg (sel - 8) else .mem addrs, expect := none, lenReg := lenReg,
             cs := (s.csu st).tagNow, tag := c.tag, lw := s.here st, slot := c.kind }] }) (.pop n)))) ∧
    (let c := asOpc 0x22 c0
     Clear qwaitSem s st c →
      let t := s.str st
      let n := qctx t c
      let expect := if bit c.base 34 then some (fld (t.rdN (c.f 33 31)) 15 0) else none
      (∀ e, (s.ctx n).cons = [] → (s.ctx n).headEntry = some e → e.cars.any (fun k => k.poison || decide (k.ecc = .bad)) = false → expect.getD (s.ctx n).et = (s.ctx n).et →
        exec (.qwait st c0) s = .next (s.retired st c ((s.began st).takeHead n e) none [])) ∧
      ((s.ctx n).cons ≠ [] ∨ ((s.ctx n).headEntry = none ∧ expect.getD (s.ctx n).et = (s.ctx n).et) →
        exec (.qwait st c0) s = .next (s.waits st c ((s.began st).modCtx n fun k => { k with cons := k.cons ++
          [{ agent := sidNat st, dst := .drop, expect := expect, lenReg := none,
             cs := (s.csu st).tagNow, tag := c.tag, lw := s.here st, slot := c.kind }] }) (.pop n))))

/-- DMAP pushes its template with the patches, DMARD reads a channel's ring (08_operation_reference.md, R219, R221 in part, 06_scratchpad_queues_tickets.md, R163). -/
def Obligations.DmapPatchesItsTemplate : Prop :=
  ∀ (s : State) (st : Sid) (c0 : Slot),
    (let c := asOpc 0x24 c0
     Clear dmapSem s st c →
      let t := s.str st
      let a := (((t.rdA (c.f 43 40)).toNat : Int) + sfld c.base 39 16).toNat
      let n := 16 + c.f 47 44
      let b0 := (List.range 64).map fun i => s.spm.byte (a + i)
      let b1 := if bit c.base 15 then b0.take 8 ++ leBytes 6 (t.rdA (c.f 14 11)).toNat ++ b0.drop 14 else b0
      let b2 := if bit c.base 10 then b1.take 16 ++ leBytes 6 (t.rdA (c.f 9 6)).toNat ++ b1.drop 22 else b1
      let b3 := if bit c.base 5 then b2.take 6 ++ leBytes 2 (fld (t.rdN (c.f 4 2)) 15 0) ++ b2.drop 8 else b2
      let e := { mkEntry [⟨BitVec.ofNat 512 (leNat b3), false, .good⟩] with cs := (s.csu st).tagOpen }
      let held := s.pushHeld st ((List.range 64).map (a + ·))
      (held = true → exec (.dmap st c0) s = .next (s.waits st c (s.began st) .stores)) ∧
      (held = false → s.cA.log = [] → s.cX.log = [] → (∀ i, i < 64 → s.spm.eccAt (a + i) = .good) →
      ((s.ctx n).prod = [] → s.canAlloc n 1 = true →
        exec (.dmap st c0) s = .next (s.retired st c ((s.began st).pushNow n none e) none [])) ∧
      ((s.ctx n).prod ≠ [] ∨ s.canAlloc n 1 = false →
        exec (.dmap st c0) s = .next (s.waits st c
          ((s.began st).modCtx n fun k => { k with prod := k.prod ++ [⟨sidNat st, none, e⟩] }) (.push n))))) ∧
    (let c := asOpc 0x25 c0
     Clear dmardSem s st c →
      exec (.dmard st c0) s = .next (s.retired st c (s.began st) none [⟨0, c.f 43 41,
        if bit c.base 40 then (if (tget [] s.chans (c.f 47 44)).isEmpty then 0 else 1) else (s.ctx (16 + c.f 47 44)).entries.length⟩]))

/-- The queue events push for waiting producers, serve waiting consumers, resume posts and report long waits (06_scratchpad_queues_tickets.md, R147, R151, R157 in part, 07_program_model.md, R192 in part, 08_operation_reference.md, R216 in part). The model's own choices that it rests on: log entry 49 (DEDUCED). -/
def Obligations.QueueEventsEndWaits : Prop :=
  ∀ (s : State) (st : Sid) (w : Wait) (n : BitVec 12), s.cstate ≠ 1 →
    let plain := (s.str st).wait = some w ∧ w.ctl = none ∧ w.late = [] ∧ (s.str st).chain = 0 ∧ (s.str st).pendHalt = none ∧ (s.str st).loops = []
    let goesOn := fun (t : State) => (t.str st).wait = none ∧ (t.str st).pc = BitVec.ofNat 17 (w.addr + w.len) ∧ (t.str st).cc = (s.str st).cc
    (∀ tkt e rest, plain → (s.ctx n.toNat).prod = ⟨sidNat st, tkt, e⟩ :: rest → s.ctxBound n.toNat = true →
      s.canAlloc n.toNat e.cars.length = true →
      ∃ t : State, exec (.pushQuotaProceed n) s = .next t ∧ goesOn t ∧ sameRegs s t ∧
        t.qsy = ((s.modCtx n.toNat fun k => { k with prod := rest }).pushNow n.toNat tkt e).qsy) ∧
    (∀ agent tkt e rest, 32 ≤ agent → (s.ctx n.toNat).prod = ⟨agent, tkt, e⟩ :: rest → s.ctxBound n.toNat = true → s.canAlloc n.toNat e.cars.length = true →
      exec (.ctPushQuota n) s = .next ((s.modCtx n.toNat fun k => { k with prod := rest }).pushNow n.toNat tkt e)) ∧
    (∀ k e r rest, plain → (s.ctx n.toNat).cons = k :: rest → k.agent = sidNat st → k.dst = .reg r → k.expect = none → k.lenReg = none →
      (s.ctx n.toNat).ordflt = false → (s.ctx n.toNat).headEntry = some e → e.cars.any (fun k => k.poison || decide (k.ecc = .bad)) = false → e.src = none → e.cars ≠ [] →
      ∃ t : State, exec (.queueHeadServe n) s = .next t ∧ goesOn t ∧ (t.ctx n.toNat).cons = rest ∧
        (t.ctx n.toNat).et = ((s.ctx n.toNat).et + 1) % 65536 ∧
        (t.str st).rdN r = (e.cars.headD ⟨0, false, .good⟩).data.setWidth 32 ∧ (t.str st).a = (s.str st).a ∧ (t.str st).p = (s.str st).p) ∧
    (∀ slot v ev, plain → w.kind = .post slot v ev → slot < 64 → s.rb (0x4000 + 8 * slot) 63 = false →
      ∃ t : State, exec (.postResume st) s = .next t ∧ goesOn t ∧ sameRegs s t ∧
        t.rb (0x4000 + 8 * slot) 63 = true ∧ t.rf (0x4000 + 8 * slot) 31 0 = v.toNat ∧
        t.rf (0x4000 + 8 * slot) 47 32 = (s.rf (0x4000 + 8 * slot) 47 32 + 1) % 65536) ∧
    (∀ kind num, (s.str st).waitsOn = some (kind, num) → (s.str st).waitTold = false → s.rf 0x2050 31 0 ≠ 0 → s.rf 0x2050 31 0 ≤ (s.str st).waited →
      ∃ t : State, exec (.queueWaitLong st) s = .next t ∧ t.rb 0x100 6 = true ∧ (t.str st).waitTold = true ∧
        t.rf 0x2058 (16 * sidNat st + 15) (16 * sidNat st) = (2 ^ 15 + kind * 2 ^ 12 + num) % 2 ^ 16 ∧
        (t.str st).wait = (s.str st).wait ∧ t.qsy = s.qsy ∧ sameRegs s t ∧ sameSpm s t)

/-- POST writes a free slot and waits on a full one; a read of a slot changes none (07_program_model.md, R192, R193, R195 in part, 08_operation_reference.md, R233 in part). The model's own choices that it rests on: log entry 55 (DEDUCED). -/
def Obligations.PostWritesAFreeSlot : Prop :=
  (∀ (s : State) (n : BitVec 6), s.pins.stopReady = true → s.pins.bypassClosed = false → s.rb 8 0 = true →
    exec (.postSlotRead n false) s = .next s ∧
    ∃ t : State, exec (.postSlotRead n true) s = .next t ∧ onlyCsrRing s t ∧ t.rb 0x100 10 = true ∧ t.rb 0x118 3 = true ∧
      (∀ k, k < 64 → k ≠ n.toNat → t.rd (0x4000 + 8 * k) = s.rd (0x4000 + 8 * k)) ∧
      t.rd (0x4000 + 8 * n.toNat) = putFld (s.rd (0x4000 + 8 * n.toNat)) 62 62 1 ∧
      (s.rf 0xB00 4 0 = 0 → s.rf 0xB00 12 8 = 0 → t.rf 0x900 63 56 = 9 ∧ t.rf 0x900 55 52 = 3 ∧ t.rd 0x908 = BitVec.ofNat 64 n.toNat ∧
        t.rf 0xB00 4 0 = 1)) ∧
  ∀ (s : State) (st : Sid) (c0 : Slot), let c := asOpc 0x2F c0
    Clear postSem s st c →
    let t := s.str st
    let n := if bit c.base 47 then (t.rdN (c.f 40 38)).toNat else c.f 46 41
    let o := 0x4000 + 8 * n
    let sel := c.f 36 31
    let a := (selForm t.regs c sel 0).addrN 0
    let v := if isN sel then t.rdN (sel - 8) else BitVec.ofNat 32 (leNat ((List.range 4).map fun i => s.spm.byte (a + i)))
    (isN sel = false → s.readWaits st (s.loneLw st c) a 4 = true →
      exec (.post st c0) s = .next (s.modStr st fun t => { t with stall := none })) ∧
    ((isN sel = true ∨ (s.readWaits st (s.loneLw st c) a 4 = false ∧ s.cA.log = [] ∧ s.cX.log = [] ∧
      ∀ i, i < 4 → s.spm.eccAt (a + i) = .good)) →
    n < 64 ∧
    (s.rb o 63 = false →
      exec (.post st c0) s = .next (s.retired st c ((s.began st).postPut n v (bit c.base 37)) none []) ∧
      (s.postPut n v (bit c.base 37)).rb o 63 = true ∧ (s.postPut n v (bit c.base 37)).rf o 31 0 = v.toNat ∧
      (s.postPut n v (bit c.base 37)).rf o 47 32 = (s.rf o 47 32 + 1) % 65536 ∧
      (∀ off, off ≠ o → off ≠ 0x100 → (s.postPut n v (bit c.base 37)).rd off = s.rd off) ∧
      (s.postPut n v (bit c.base 37)).rd 0x100 = (if bit c.base 37 then putFld (s.rd 0x100) 2 2 1 else s.rd 0x100)) ∧
    (s.rb o 63 = true →
      exec (.post st c0) s = .next (s.waits st c (s.began st) (.post n v (bit c.base 37)))))

/-- A host write to POST.ACK frees the slot it names where its SEQ agrees (R194). -/
def Obligations.PostAckFreesItsSlot : Prop :=
  ∀ (s : State) (data : W64), s.pins.stopReady = true → s.pins.bypassClosed = false → s.rb 8 0 = true →
    let o := 0x4000 + 8 * fld data 21 16
    ∃ t : State, exec (.postAck data) s = .next t ∧ onlyCsr s t ∧
      (s.rb o 63 = true → s.rf o 47 32 = fld data 15 0 →
        t.rb o 63 = false ∧ t.rf o 47 32 = s.rf o 47 32 ∧ t.rf o 31 0 = s.rf o 31 0 ∧ ∀ off, off ≠ o → t.rd off = s.rd off) ∧
      (¬ (s.rb o 63 = true ∧ s.rf o 47 32 = fld data 15 0) →
        t.rf 0x4208 15 0 = min 0xFFFF (s.rf 0x4208 15 0 + 1) ∧ ∀ off, off ≠ 0x4208 → t.rd off = s.rd off)

/-- BARR enters the stream's next generation; entries and arrivals count; the full count of a local barrier releases the round (06_scratchpad_queues_tickets.md, R158, R159 in part, 08_operation_reference.md, R233 in part, 06_scratchpad_queues_tickets.md, R159 to R162 in part, 13_failure_survival.md, R336 in part, 15_ports_fabric.md, R379 in part). The model's own choices that it rests on: log entries 112 (DESIGN CHOICE), 11 (DESIGN CHOICE), 88 (DEDUCED). -/
def Obligations.BarriersEnterCountAndRelease : Prop :=
  (∀ (s : State) (st : Sid) (c0 : Slot), let c := asOpc 0x2E c0
    Clear barrSem s st c →
    let n := c.f 47 44
    let b := s.bar n
    let g := match st with | .a => b.ga | .x => b.gx
    let entered := (s.began st).modBar n fun b =>
      match st with
      | .a => { b with ents := b.ents ++ [⟨.a, g, s.fab.serial, false⟩], ga := (g + 1) % 256, lastA := some g }
      | .x => { b with ents := b.ents ++ [⟨.x, g, s.fab.serial, false⟩], gx := (g + 1) % 256, lastX := some g }
    let ahead := fun (g : Nat) => (g + 256 - b.o) % 256 < 128
    (bit c.base 43 = true → bit c.base 42 = false → exec (.barr st c0) s = .next (s.retired st c entered none [])) ∧
    (bit c.base 43 = true → bit c.base 42 = true → ahead g → exec (.barr st c0) s = .next (s.waits st c entered (.barrier n g))) ∧
    (bit c.base 43 = false → ∀ l, (match st with | .a => b.lastA | .x => b.lastX) = some l →
      (ahead l → exec (.barr st c0) s = .next (s.waits st c (s.began st) (.barrier n l))) ∧
      (¬ ahead l → exec (.barr st c0) s = .next (s.retired st c (s.began st) none []))) ∧
    (bit c.base 43 = false → (match st with | .a => b.lastA | .x => b.lastX) = none →
      exec (.barr st c0) s = .next (s.retired st c (s.began st) none []))) ∧
  (∀ (s : State) (n : BitVec 4) (m : BarMsg),
    let told := fun (b : BarCtx) => boMsg false { place := BitVec.ofNat 24 (fld b.w1 35 12), bar := BitVec.ofNat 4 (fld b.w1 3 0), gen := BitVec.ofNat 8 b.o }
    let children := fun (b : BarCtx) => if bit b.w0 62 = false then [] else (List.range (fld b.w0 46 40)).filterMap fun i =>
      let e := tget 0 s.bars.child ((fld b.w0 52 47 + i) % 64)
      if bit e 36 then some (boMsg true { place := BitVec.ofNat 24 (fld e 35 12), bar := BitVec.ofNat 4 (fld e 3 0), gen := BitVec.ofNat 8 b.o }) else none
    let apart := fun (b : BarCtx) => 0 < fld b.w0 59 53 ∧ (∀ g ∈ b.arrs, g = b.o) ∧ ∀ x ∈ b.ents, x.gen = b.o
    let noWait := fun (st : Sid) => ∀ w k g, (s.str st).wait = some w → w.kind ≠ .barrier k g
    let opened := fun (k : Nat) (t : State) => (t.bar k).o = ((s.bar k).o + 1) % 256 ∧ (t.bar k).ents = [] ∧ (t.bar k).arrs = [] ∧ (t.bar k).sent = false ∧
      (∀ j, j ≠ k → t.bar j = s.bar j) ∧ leaves s t 7 (children (s.bar k))
    let b := s.bar n.toNat
    let counts := fun (e : BarEnt) => !e.counted && e.gen = b.o && s.fenceMet e.fence
    let mark := fun (e : BarEnt) => { b with ents := b.ents.map fun x => if x = e then { x with counted := true } else x }
    (b.ents.find? counts = none → exec (.barrierEntryCount n) s = .next s) ∧
    (∀ e, b.ents.find? counts = some e → (mark e).count < fld b.w0 59 53 →
      exec (.barrierEntryCount n) s = .next (s.modBar n.toNat fun _ => mark e)) ∧
    (∀ e, b.ents.find? counts = some e → (mark e).count = fld b.w0 59 53 → b.sent = false →
      (bit b.w0 62 = true → bit b.w1 63 = true →
        exec (.barrierEntryCount n) s = .next ((s.modBar n.toNat fun _ => { mark e with sent := true }).send 7 (told b))) ∧
      (bit b.w0 62 = false ∨ bit b.w1 63 = false → apart b →
        ∃ t : State, exec (.barrierEntryCount n) s = .next t ∧ opened n.toNat t ∧
          (noWait .a → noWait .x → t.qsy = s.qsy ∧ sameRegs s t ∧ sameSpm s t ∧ ∀ st, (t.str st).pc = (s.str st).pc) ∧
          ∀ st w, noWait (otherSid st) → (s.str st).wait = some w → w.kind = .barrier n.toNat b.o →
            (s.cstate = 1 → (t.str st).wait = some w) ∧
            (s.cstate ≠ 1 → w.ctl = none → w.late = [] → (s.str st).chain = 0 → (s.str st).pendHalt = none → (s.str st).loops = [] →
              (t.str st).wait = none ∧ (t.str st).pc = BitVec.ofNat 17 (w.addr + w.len)))) ∧
    (let k := m.bar.toNat
     let b := s.bar k
     let d := (m.gen.toNat + 256 - b.o) % 256
     let fault := ((s.incRf 0x168 31 16).raise evBarrierFault).freeRx 8
     let more := { b with arrs := b.arrs ++ [m.gen.toNat] }
     s.pins.fpUp = true →
      (m.place.toNat ≠ s.place → exec (.arrive m) s = .next ((s.incRf 0x398 15 0).freeRx 8) ∧ exec (.release m) s = .next ((s.incRf 0x398 15 0).freeRx 8)) ∧
      (m.place.toNat = s.place → 2 ≤ d → exec (.arrive m) s = .next fault) ∧
      (m.place.toNat = s.place → d ≠ 0 → exec (.release m) s = .next fault) ∧
      (m.place.toNat = s.place → bit b.w0 63 = true → bit b.w0 62 = true →
        (d < 2 → b.count + 1 < fld b.w0 59 53 → exec (.arrive m) s = .next ((s.modBar k fun _ => more).freeRx 8)) ∧
        (d = 0 → m.gen.toNat = b.o → b.count + 1 = fld b.w0 59 53 → b.sent = false → bit b.w1 63 = true →
          exec (.arrive m) s = .next (((s.modBar k fun _ => { more with sent := true }).send 7 (told b)).freeRx 8)) ∧
        (d = 0 → m.gen.toNat = b.o → b.count + 1 = fld b.w0 59 53 → b.sent = false → bit b.w1 63 = false → apart b →
          ∃ t : State, exec (.arrive m) s = .next t ∧ opened k t) ∧
        (d = 0 → apart b → ∃ t : State, exec (.release m) s = .next t ∧ opened k t))))

/-- MWAIT waits for its target; MARM arms its slot with its target (08_operation_reference.md, R213, R233, R234 in part, 10_meridian.md, Table 10-1, R268). -/
def Obligations.MwaitAndMarmTakeTargets : Prop :=
  ∀ (s : State) (st : Sid) (c0 : Slot),
    let target := fun (c : Slot) (mt : Nat) => mtTarget s (s.str st) c mt 0
    let late := fun (tg : W64) => if tg.toNat < s.now.toNat then (s.began st).setRf 0x1000 4 4 1 else s.began st
    (let c := asOpc 0x2C c0
     Clear mwaitSem s st c →
      (s.mer.st ≠ .unlocked → exec (.mwait st c0) s = .next (s.waits st c (late (target c (c.f 47 42))) (.due (target c (c.f 47 42))))) ∧
      (s.mer.st = .unlocked → exec (.mwait st c0) s = .next (s.modStr st fun t => { t with stall := some (9, 0) }))) ∧
    (let c := asOpc 0x2D c0
     Clear marmSem s st c →
      let tg := target c (c.f 43 38)
      let n := c.f 47 44
      (s.mer.st ≠ .unlocked → ∃ s' : State,
        exec (.marm st c0) s = .next (s.retired st c s' none []) ∧ onlyCsr (s.began st) s' ∧
        s'.rd (0x1100 + 0x20 * n) = tg ∧ s'.rb (0x1108 + 0x20 * n) 0 = true ∧ s'.rb (0x1108 + 0x20 * n) 2 = false ∧
        s'.rf (0x1108 + 0x20 * n) 9 7 = c.f 37 35 ∧ s'.rb (0x1108 + 0x20 * n) 10 = bit c.base 34 ∧ s'.rb (0x1108 + 0x20 * n) 11 = c.ct ∧
        s'.rb (0x1108 + 0x20 * n) 12 = decide (st = .x) ∧ s'.rf (0x1108 + 0x20 * n) 31 16 = c.f 33 18 ∧
        (∀ m, m < 16 → m ≠ n → s'.rd (0x1100 + 0x20 * m) = s.rd (0x1100 + 0x20 * m) ∧ s'.rd (0x1108 + 0x20 * m) = s.rd (0x1108 + 0x20 * m))) ∧
      (s.mer.st = .unlocked → exec (.marm st c0) s = .next (s.modStr st fun t => { t with stall := some (9, 0) }))) ∧
    (∀ t c mt at', mt / 32 % 2 = 1 → mt / 16 % 2 = 1 → mtTarget s t c mt at' = c.x at') ∧
    (∀ t c mt at', mt / 32 % 2 = 0 → mt / 16 % 2 = 1 → (s.now.toNat : Int) + (BitVec.ofNat 32 (fld (c.x at') 31 0)).toInt ≥ 0 →
      mtTarget s t c mt at' = s.now + (BitVec.ofNat 32 (fld (c.x at') 31 0)).signExtend 64)

/-- TIME disciplines the local count; HOLDOVER_TIMEOUT, SLEW_END and MWAIT_DUE (10_meridian.md, R262, R264, R266, R446 in part, Table 10-2, 15_ports_fabric.md, R387 in part, 10_meridian.md, Table 10-2, R269, R446 in part). The model's own choices that it rests on: log entries 71 (DEDUCED), 11 (DESIGN CHOICE), 72 (DESIGN CHOICE), 73 (DEDUCED). -/
def Obligations.UpdatesAndEventsOfTheMeridian : Prop :=
  (∀ (s : State) (hdr tick : W64) (waited : Nat), s.stopOpen = true → pkType hdr = 4 → packetOk hdr [tick] = true →
    s.pins.dead.contains 0x0F = false → s.bist ≠ some 0x0F →
    let e : Int := (tick.toNat * 16 + fld hdr 35 16 : Nat) + sgn 16 (s.rf 0x1010 15 0) - (s.mer.count.toNat / 2 ^ 28 : Nat)
    ∃ t : State, exec (.time hdr tick waited) s = .next t ∧
      t.ring.out = s.ring.out ++ [sealPacket (putFld hdr 35 16 (min 0xFFFFF (fld hdr 35 16 + (s.rf 0x3C0 7 0 + waited * s.rf 0x3C0 15 8)))) [tick]] ∧
      t.rd 0x1018 = BitVec.ofNat 64 (e % 2 ^ 32).toNat ∧ sameRegs s t ∧ sameSpm s t ∧ t.qsy = s.qsy ∧
      (s.mer.st = .unlocked → t.mer.st = .locked ∧ t.mer.count = BitVec.ofInt 96 (e * 2 ^ 28) ∧ t.mer.slewing = false ∧ t.rb 0x100 17 = true) ∧
      (s.mer.st = .locked → e.natAbs ≤ 64 → t.mer = { s.mer with trim := e * 2 ^ 28, slewing := false, slew := 0, inc := t.mer.inc, base := t.mer.base, cyc := t.mer.cyc, last := t.mer.last, since := t.mer.since, lo := t.mer.lo, hi := t.mer.hi, young := t.mer.young } ∧
        (s.mer.base = none ∨ s.mer.cyc = 0 ∨ s.mer.since = 0 ∨ (s.mer.cyc < 2 ^ 17 ∧ (s.mer.young = false ∨ 2 ^ 64 ≤ s.mer.hi)) → t.mer.inc = s.mer.inc) ∧
        (∀ b l, s.mer.base = some b → s.mer.last = some l → s.mer.cyc ≠ 0 → s.mer.since ≠ 0 →
          let nom := s.nominalInc
          let est : Int := (tick.toNat * 16 + fld hdr 35 16 : Nat) + sgn 16 (s.rf 0x1010 15 0)
          let least := fun (from' cyc : Nat) => ((est - from' - 2) * 2 ^ 28 / cyc).toNat
          let most := fun (from' cyc : Nat) => (-(-((est - from' + 2) * 2 ^ 28) / cyc)).toNat
          let lo := max s.mer.lo (least b s.mer.cyc)
          let hi := min s.mer.hi (most b s.mer.cyc)
          let agree := least l s.mer.since ≤ s.mer.inc ∧ s.mer.inc ≤ most l s.mer.since
          (lo ≤ hi → t.mer.lo = lo ∧ t.mer.hi = hi ∧ t.mer.base = some b ∧ t.mer.last = some est.toNat ∧ t.mer.since = 0 ∧ t.mer.cyc = s.mer.cyc ∧
            (2 ^ 17 ≤ s.mer.cyc ∨ (s.mer.young = true ∧ s.mer.hi < 2 ^ 64) →
              t.mer.inc = max (nom - nom / 1024) (min (nom + nom / 1024) (max lo (min hi s.mer.inc))))) ∧
          (hi < lo → t.mer.inc = s.mer.inc ∧ t.mer.lo = 0 ∧ t.mer.hi = 2 ^ 64 ∧ t.mer.last = some est.toNat ∧ t.mer.since = 0 ∧
            (agree → t.mer.base = some l ∧ t.mer.cyc = s.mer.since) ∧ (¬ agree → t.mer.base = some est.toNat ∧ t.mer.cyc = 0)))) ∧
      (s.mer.st ≠ .unlocked → 64 < e → e ≤ 16000000 → t.mer.st = .locked ∧ t.mer.count = s.mer.count + BitVec.ofNat 96 (e.toNat * 2 ^ 28) ∧
        t.rb 0x100 17 = true) ∧
      (s.mer.st ≠ .unlocked → s.mer.slewing = false → e < -64 → -16000000 ≤ e → t.mer.st = .holdover ∧ t.mer.slewing = true ∧ t.mer.count = s.mer.count ∧
        t.mer.slew = e.natAbs * 2 ^ 28 ∧ t.rb 0x100 18 = true) ∧
      (s.mer.st = .holdover → s.mer.slewing = true → e < -16 → -16000000 ≤ e → t.mer.st = .holdover ∧ t.mer.slewing = true ∧ t.mer.count = s.mer.count ∧
        t.mer.slew = e.natAbs * 2 ^ 28) ∧
      (s.mer.st ≠ .unlocked → 16000000 < e.natAbs → t.mer = s.mer ∧ t.rf 0x1020 31 16 = min 0xFFFF (s.rf 0x1020 31 16 + 1)) ∧
      (s.mer.st = .holdover → s.mer.slewing = false → e.natAbs ≤ 64 → t.mer.st = .locked ∧ t.mer.count = s.mer.count ∧ t.rb 0x100 17 = true) ∧
      (s.mer.st = .holdover → s.mer.slewing = true → -16 ≤ e → e ≤ 64 → t.mer.st = .locked ∧ t.mer.slewing = false ∧ t.mer.count = s.mer.count)) ∧
  (∀ (s : State) (st : Sid) (w : Wait) (tg : W64),
    (s.mer.st = .locked → ∃ t : State, exec .holdoverTimeout s = .next t ∧ onlyCsrRing { s with mer := t.mer } t ∧ t.mer.st = .holdover ∧
      t.mer.count = s.mer.count ∧ t.rf 0x1020 47 32 = min 0xFFFF (s.rf 0x1020 47 32 + 1) ∧ t.rb 0x100 18 = true) ∧
    (s.mer.st ≠ .locked → exec .holdoverTimeout s = .next s) ∧
    (s.mer.slewing = true → s.mer.slew ≤ s.mer.inc / 2 →
      exec .slewEnd s = .next { s with mer := { s.mer with count := s.mer.count + BitVec.ofNat 96 s.mer.slew, slew := 0 } }) ∧
    (s.mer.slewing = false ∨ s.mer.inc / 2 < s.mer.slew → exec .slewEnd s = .next s) ∧
    ((s.str st).wait = some w → w.kind = .due tg → w.ctl = none → w.late = [] → (s.str st).chain = 0 → (s.str st).pendHalt = none →
      (s.str st).loops = [] → s.mer.st ≠ .unlocked → s.cstate ≠ 1 →
      (tg.toNat ≤ s.now.toNat → ∃ t : State, exec (.mwaitDue st) s = .next t ∧ (t.str st).wait = none ∧
        (t.str st).pc = BitVec.ofNat 17 (w.addr + w.len) ∧ sameRegs s t ∧ sameSpm s t ∧ t.qsy = s.qsy ∧ t.csr = s.csr ∧ t.mer = s.mer) ∧
      (s.now.toNat < tg.toNat → exec (.mwaitDue st) s = .next s)))

/-- An event slot fires when it is due and no lower slot is; the host arms and disarms slots (10_meridian.md, R269 to R272 in part, 08_operation_reference.md, R234 in part). The model's own choices that it rests on: log entries 74 (DEDUCED), 11 (DESIGN CHOICE), 106 (DESIGN CHOICE). -/
def Obligations.EventSlotsFireInOrder : Prop :=
  ∀ (s : State) (n : BitVec 4) (v : W64),
    let o := 0x1108 + 0x20 * n.toNat
    let due := fun (k : Nat) => s.rb (0x1108 + 0x20 * k) 0 = true ∧ s.mer.st ≠ .unlocked ∧ (s.rd (0x1100 + 0x20 * k)).toNat ≤ s.now.toNat
    ((due n.toNat ∧ ∀ k, k < n.toNat → ¬ due k) →
      ∃ t : State, exec (.merSlotFire n) s = .next t ∧ t.rb o 0 = false ∧ t.rb o 2 = true ∧
        t.rf o 31 4 = s.rf o 31 4 ∧ (s.rb o 10 = true → t.rb 0x100 16 = true) ∧
        (∀ m, m < 16 → m ≠ n.toNat → t.rd (0x1108 + 0x20 * m) = s.rd (0x1108 + 0x20 * m)) ∧
        (s.rf o 9 7 = 0 → t.rb o 3 = false ∧ (s.rb o 11 = false → t.qsy = s.qsy) ∧ (s.rb o 11 = true → t.qsy = (s.ctTicket 14).qsy) ∧
        sameRegs s t ∧ sameSpm s t ∧ t.mer = s.mer)) ∧
    (¬ (due n.toNat ∧ ∀ k, k < n.toNat → ¬ due k) → exec (.merSlotFire n) s = .next s) ∧
    (s.pins.stopReady = true → s.pins.bypassClosed = false → s.rb 8 0 = true →
      (bit v 0 = true → (5 ≤ fld v 9 7 ∨ (fld v 9 7 = 3 ∧ fld v 31 16 = 0) ∨ (fld v 9 7 ≠ 3 ∧ fld v 31 16 ≠ 0)) →
        exec (.merSlotCtrlWrite n v) s = .next (s.setRf 0x1000 5 5 1)) ∧
      (bit v 0 = true → fld v 9 7 = 0 → fld v 31 16 = 0 → ∃ t : State, exec (.merSlotCtrlWrite n v) s = .next t ∧ onlyCsr s t ∧
        t.rb o 0 = true ∧ t.rb o 2 = false ∧ t.rb o 3 = s.rb o 3 ∧ t.rb o 10 = bit v 10 ∧ t.rb o 11 = bit v 11 ∧
        t.rd (0x1100 + 0x20 * n.toNat) = s.rd (0x1100 + 0x20 * n.toNat)) ∧
      (bit v 0 = false → s.rb o 0 = false → exec (.merSlotCtrlWrite n v) s = .next s) ∧
      (bit v 0 = false → (due n.toNat ∧ ∀ k, k < n.toNat → ¬ due k) → exec (.merSlotCtrlWrite n v) s = exec (.merSlotFire n) s) ∧
      (bit v 0 = false → s.rb o 0 = true → ¬ due n.toNat → ∃ t : State, exec (.merSlotCtrlWrite n v) s = .next t ∧ onlyCsr s t ∧ t.rb o 0 = false ∧ t.rf o 3 1 = s.rf o 3 1 ∧
        ∀ off, off ≠ o → t.rd off = s.rd off))

/-- CBEGIN opens the next consist; CCOMMIT and CVOTE move it to DECIDING; CABORT rolls it back (11_consists.md, R278, R286 to R289 in part, Tables 11-2 and 11-3, 08_operation_reference.md, R230 to R232 in part). -/
def Obligations.ConsistCommands : Prop :=
  ∀ (s : State) (st : Sid) (c0 : Slot),
    let k := s.csu st
    let pd := fun (c : Slot) => if bit c.base 46 then some (c.f 45 43) else none
    let rn := fun (c : Slot) => if bit c.base 42 then some (c.f 41 39) else none
    (let c := asOpc 0x28 c0
     Clear cbeginSem s st c →
      let id := s.rf 0x1448 15 0
      let wr := if bit c.base 47 then some (c.f 46 44) else none
      (k.st = .idle → exec (.cbegin st c0) s = .next (s.retired st c
        (((s.began st).setRf 0x1448 15 0 (id + 1)).modCsu st fun _ => { Csu.reset with st := .opened, id := id, waiting := k.waiting }) none
        (match wr with | some r => [⟨0, r, id⟩] | none => []))) ∧
      (k.st ≠ .idle → exec (.cbegin st c0) s = .next (s.waits st c (s.began st) (.cbegin wr)))) ∧
    (let c := asOpc 0x29 c0
     Clear ccommitSem s st c → k.st = .opened → s.cke.blocks = [] → (bit c.base 38 = false ∨ s.mer.st ≠ .unlocked) →
      let tg := mtTarget s (s.str st) c (c.f 37 32) 0
      let s1 := if bit c.base 38 = true ∧ tg.toNat < s.now.toNat then (s.began st).setRf 0x1000 4 4 1 else s.began st
      let s2 := s1.modCsu st fun k => { k with
        st := .deciding, voted := false, deadline := if bit c.base 38 then some tg else none,
        ct := c.ct, tag := c.tag, lw := s.here st, slot := c.kind }
      (bit c.base 47 = true → exec (.ccommit st c0) s = .next (s.waits st c s2 (.outcome (pd c) (rn c)))) ∧
      (bit c.base 47 = false → exec (.ccommit st c0) s = .next (s.retired st c s2 none []))) ∧
    (let c := asOpc 0x2A c0
     Clear cvoteSem s st c → k.st = .opened → s.cke.blocks = [] → s.mer.st ≠ .unlocked →
      let tg := mtTarget s (s.str st) c (c.f 31 26) 0
      let s1 := if tg.toNat < s.now.toNat then (s.began st).setRf 0x1000 4 4 1 else s.began st
      let s2 := s1.modCsu st fun k => { k with
        st := .deciding, voted := true, ready := false, vg := c.f 38 35, tick := tg,
        step := (s.str st).rdN (c.f 34 32), deadline := none, ct := c.ct, tag := c.tag, lw := s.here st, slot := c.kind, gone := false }
      (bit c.base 47 = true → exec (.cvote st c0) s = .next (s.waits st c s2 (.outcome (pd c) (rn c)))) ∧
      (bit c.base 47 = false → exec (.cvote st c0) s = .next (s.retired st c s2 none []))) ∧
    (let c := asOpc 0x2B c0
     Clear cabortSem s st c → k.st = .opened → k.log = [] → k.held = [] → k.waiting = [] → k.due = none → s.cstate ≠ 1 → s.chans = [] → ∃ s' : State,
      exec (.cabort st c0) s = .next (s.retired st c s' none []) ∧ (s'.csu st).st = .rollback ∧ (s'.csu st).code = 1 ∧ s'.spm = s.spm ∧
        s'.rf (0x1420 + 8 * sidNat st) 7 0 = 1 ∧ s'.rf (0x1420 + 8 * sidNat st) 47 32 = k.id % 65536)

/-- A consist's writes are unseen by others until it commits, and undone where it aborts (11_consists.md, R275, R280 to R284, R299 in part, Table 11-1). The model's own choices that it rests on: log entry 77 (DEDUCED). -/
def Obligations.AbortRestoresMemory : Prop :=
  ∀ (s : State) (st : Sid) (writes : List (Nat × List Byte)) (code detail : Nat),
    (s.csu st).st = .opened → (s.csu st).log = [] → (s.csu (otherSid st)).log = [] → s.spm.gone = [] → (∀ w, s.spm.eccW w = .good) →
    (s.csu st).beat = false → (s.csu st).code = 0 → (s.csu st).waiting = [] → s.cstate ≠ 1 → (st = .a → s.chans = []) →
    let inShadow := fun (x : Nat) => s.shadowBase st ≤ x ∧ x < s.shadowBase st + 128 * s.shadowWords st
    (∀ p ∈ writes, 0 < p.2.length ∧ p.1 % 128 + p.2.length ≤ 128 ∧ ¬ inShadow p.1) →
    let t := writes.foldl (fun s p => s.writeWord (some st) (some (s.csu st).id) p.1 p.2 false) s
    (∀ v x, v ≠ some st → ¬ inShadow x → t.spm.byte (t.viewAddr v x) = s.spm.byte x) ∧
    (∀ x, ¬ inShadow x → (t.abort st code detail).spm.byte x = s.spm.byte x)

/-- COMMIT_POINT commits, DEADLINE and CKPT_STALL abort, ROLLBACK_COMPLETE ends the consist (11_consists.md, R286 to R289, R296, R297, R299, R300, R302 in part, Tables 11-5 and 11-8, 08_operation_reference.md, R232 in part). The model's own choices that it rests on: log entry 77 (DEDUCED). -/
def Obligations.LocalCommitOutcomes : Prop :=
  ∀ (s : State) (st : Sid) (w : Wait) (p r : Nat),
    let k := s.csu st
    k.held = [] → k.waiting = [] → k.ct = false → k.beat = false → k.due = none → (st = .a → s.chans = []) →
    (s.str st).wait = some w → w.kind = .outcome (some p) (some r) → w.ctl = none → w.late = [] → (s.str st).chain = 0 →
    (s.str st).pendHalt = none → (s.str st).loops = [] → 0 < p →
    let ended := fun (t : State) (ok : Bool) (code : Nat) => (t.csu st).st = .idle ∧ (t.str st).wait = none ∧
      (t.str st).pc = BitVec.ofNat 17 (w.addr + w.len) ∧ (t.str st).rdP p = ok ∧ (t.str st).rdN r = BitVec.ofNat 32 code ∧ t.spm = s.spm ∧
      t.csu (otherSid st) = s.csu (otherSid st) ∧ t.qsy = s.qsy
    let aborted := fun (t : State) (code : Nat) => (t.csu st).st = .rollback ∧ (t.csu st).code = code ∧ t.rb 0x100 19 = true ∧
      t.rf (0x1420 + 8 * sidNat st) 7 0 = code ∧ t.spm = s.spm ∧ t.str st = s.str st
    (k.st = .deciding → k.voted = false → s.csReady st = true → s.cstate ≠ 1 → (∀ d, k.deadline = some d → s.isDue d = false) →
      ∃ t : State, exec (.commitPoint st) s = .next t ∧ ended t true 0) ∧
    (k.st = .deciding → k.voted = false → k.log = [] → k.code = 0 → ∀ d, k.deadline = some d → s.mer.st ≠ .unlocked → d.toNat ≤ s.now.toNat →
      exec (.commitPoint st) s = exec (.deadline st) s ∧
      (s.cstate ≠ 1 → ∃ t : State, exec (.deadline st) s = .next t ∧ aborted t 7) ∧
      (s.cstate = 1 → exec (.deadline st) s = .next ((s.raise evConsistAbort).modCsu st fun k => { k with code := 7, detail := 0, due := some .rollback }))) ∧
    (k.st = .deciding → (k.ready = false ∨ s.commitHeld k = true) → s.rf 0x1410 15 0 ≠ 0 → s.csBlocks st ≠ [] →
      exec (.ckptStall st) s = .next (s.abort st 9 0)) ∧
    (k.st = .rollback → k.left ≠ 0 → exec (.rollbackComplete st) s = .next s) ∧
    (k.st = .rollback → k.left = 0 → s.cstate ≠ 1 → ∃ t : State, exec (.rollbackComplete st) s = .next t ∧ ended t false k.code)

/-- Votes join their round; the root decides; a decision is applied at its tick (11_consists.md, R292 to R295 in part, Table 11-5, 18_performance.md, R440 in part). The model's own choices that it rests on: log entries 75 (DEDUCED), 76 (DESIGN CHOICE). -/
def Obligations.VoteRounds : Prop :=
  ∀ (s : State) (st : Sid) (vg : BitVec 4) (r : Round) (v : VoteMsg) (d : DecMsg),
    let k := s.csu st
    let voting := k.st = .deciding ∧ k.voted = true
    let inTime := fun (g : Nat) (tick : W64) => bit (s.rd (0x1500 + 0x10 * g)) 61 = true ∨ s.guardDue tick = false
    let alone := fun (g : Nat) => bit (s.rd (0x1500 + 0x10 * g)) 61 = false ∧ fld (s.rd (0x1500 + 0x10 * g)) 46 40 = 0
    let late := (s.incRf 0x1440 31 16).freeRx 6
    let told := fun (g : Nat) (tick : W64) (o : Bool × Nat) => (List.range (fld (s.rd (0x1500 + 0x10 * g)) 46 40)).filterMap fun i =>
      let e := s.rd (0x1600 + 8 * ((fld (s.rd (0x1500 + 0x10 * g)) 52 47 + i) % 64))
      if bit e 36 then some (voDecision { place := BitVec.ofNat 24 (fld e 35 12), vg := BitVec.ofNat 4 (fld e 3 0), tick := tick, commit := o.1, reason := BitVec.ofNat 8 o.2 }) else none
    let verdict := fun (q : Round) => if q.ok = true ∧ q.stepErr = false then (true, 0) else (false, if q.stepErr = true then 6 else 8)
    let up := fun (q : Round) (step : W32) =>
      let p := s.rd (0x1508 + 0x10 * q.vg)
      voVote { place := BitVec.ofNat 24 (fld p 35 12), vg := BitVec.ofNat 4 (fld p 3 0), tick := q.tick, step := step, ok := q.ok, stepErr := q.stepErr
               reason := BitVec.ofNat 8 q.reason, count := BitVec.ofNat 16 (min 0xFFFF q.votes) }
    let own := { r with arrivals := r.arrivals + 1, votes := r.votes + 1, ok := r.ok && decide (k.code = 0), step := some k.step
                        reason := if k.code ≠ 0 ∧ r.ok = true then k.code else r.reason, stepErr := r.stepErr || r.steps.any fun v => v ≠ k.step }
    let child := { r with arrivals := r.arrivals + 1, votes := r.votes + v.count.toNat, ok := r.ok && v.ok, steps := r.steps ++ [v.step]
                          reason := if v.ok = false ∧ r.ok = true then v.reason.toNat else r.reason, stepErr := r.stepErr || v.stepErr || r.step.any (· ≠ v.step) }
    let last := r.arrivals + 1 = fld (s.rd (0x1500 + 0x10 * r.vg)) 59 53 ∧ r.decided = none ∧ r.sent = false
    let ends := fun (t : State) (q : Round) (ch : Nat) =>
      (bit (s.rd (0x1500 + 0x10 * r.vg)) 61 = false → t.rounds = [{ q with decided := some (verdict q) }] ∧ leaves s t ch (told r.vg r.tick (verdict q))) ∧
      (bit (s.rd (0x1500 + 0x10 * r.vg)) 61 = true → t.rounds = [{ q with sent := true }] ∧ ∃ step, (∀ x, q.step = some x → step = x) ∧ leaves s t ch [up q step])
    (voting → k.ready = false → k.vg = vg.toNat → s.csReady st = true → s.csu (otherSid st) = Csu.reset → s.rounds = [r] → r.vg = k.vg → r.tick = k.tick →
      inTime k.vg k.tick → last → ∃ t : State, exec (.voteSend vg) s = .next t ∧ ends t own 5 ∧ t.csu st = { k with ready := true } ∧ sameSpm s t ∧ sameRegs s t) ∧
    (s.pins.fpUp = true → v.place.toNat = s.place → s.rounds = [r] → r.vg = v.vg.toNat → r.tick = v.tick → s.isDue v.tick = false →
      inTime r.vg r.tick → last → ∃ t : State, exec (.vote v) s = .next t ∧ ends t child 5 ∧ t.csu st = k ∧ sameSpm s t ∧ sameRegs s t) ∧
    (voting → k.ready = false → k.vg = vg.toNat → s.csReady st = true → s.csu (otherSid st) = Csu.reset → s.rounds = [r] → r.vg = k.vg → r.tick = k.tick →
      inTime k.vg k.tick → r.arrivals + 1 ≠ fld (s.rd (0x1500 + 0x10 * k.vg)) 59 53 →
      exec (.voteSend vg) s = .next (({ s with rounds := [own] } : State).modCsu st fun k => { k with ready := true })) ∧
    (voting → k.ready = false → k.code = 0 → k.vg = vg.toNat → s.csReady st = true → s.csu (otherSid st) = Csu.reset → s.rounds = [] →
      alone k.vg → s.guardDue k.tick = true →
      exec (.voteSend vg) s = .next (({ s with rounds := [⟨k.vg, k.tick, 1, 1, true, false, 0, some k.step, [], false, some (false, 8)⟩] } : State).modCsu st
        fun k => { k with ready := true })) ∧
    (s.pins.fpUp = true → v.place.toNat = s.place → s.rounds = [r] → r.vg = v.vg.toNat → r.tick = v.tick → s.isDue v.tick = false → r.decided = none →
      inTime r.vg r.tick → r.arrivals + 1 ≠ fld (s.rd (0x1500 + 0x10 * r.vg)) 59 53 →
      exec (.vote v) s = .next (({ s with rounds := [child] } : State).freeRx 6)) ∧
    (s.pins.fpUp = true → v.place.toNat = s.place → s.isDue v.tick = true → s.round v.vg.toNat v.tick = none → exec (.vote v) s = .next late) ∧
    (s.pins.fpUp = true → v.place.toNat = s.place → ((s.round v.vg.toNat v.tick).bind (·.decided)).isSome = true → exec (.vote v) s = .next late) ∧
    (s.pins.fpUp = true → v.place.toNat = s.place → s.rounds = [r] → r.vg = v.vg.toNat → r.tick = v.tick → r.decided = none → alone r.vg → s.guardDue r.tick = true →
      exec (.vote v) s = .next { late with rounds := [{ r with decided := some (false, if r.stepErr then 6 else 8) }] }) ∧
    (bit (s.rd (0x1500 + 0x10 * vg.toNat)) 61 = false → fld (s.rd (0x1500 + 0x10 * vg.toNat)) 46 40 = 0 → s.rounds = [r] → r.vg = vg.toNat →
      r.decided = none → s.mer.st ≠ .unlocked → r.tick.toNat - s.rf 0x1410 31 16 ≤ s.now.toNat →
      exec (.rootGuardDecide vg) s = .next { s with rounds := [{ r with decided := some (false, if r.stepErr then 6 else 8) }] }) ∧
    (bit (s.rd (0x1500 + 0x10 * vg.toNat)) 61 = false → fld (s.rd (0x1500 + 0x10 * vg.toNat)) 46 40 = 0 → s.rounds = [] → voting → k.vg = vg.toNat →
      s.csu (otherSid st) = Csu.reset → s.mer.st ≠ .unlocked → k.tick.toNat - s.rf 0x1410 31 16 ≤ s.now.toNat →
      exec (.rootGuardDecide vg) s = .next { s with rounds := [⟨vg.toNat, k.tick, 0, 0, true, false, 0, none, [], false, some (false, 8)⟩] }) ∧
    (s.pins.fpUp = true → d.place.toNat = s.place → s.rounds = [r] → r.vg = d.vg.toNat → r.tick = d.tick → s.isDue d.tick = false →
      fld (s.rd (0x1500 + 0x10 * d.vg.toNat)) 46 40 = 0 →
      exec (.decision d) s = .next (({ s with rounds := [{ r with decided := some (d.commit, d.reason.toNat) }] } : State).freeRx 6)) ∧
    (voting → s.rf 0x1410 47 32 ≠ 0 → s.mer.st ≠ .unlocked → k.tick.toNat + 1000 * s.rf 0x1410 47 32 ≤ s.now.toNat → s.rounds = [] →
      ∃ t : State, exec (.consistVoteLost st) s = .next t ∧ t.rb 0x1418 9 = true ∧ t.rb 0x100 22 = true ∧ t.csu st = k) ∧
    (voting → s.isDue k.tick = true → s.cstate ≠ 1 → s.rounds = [r] → r.vg = k.vg → r.tick = k.tick → r.decided = some (true, 0) → k.code = 0 → s.csBlocks st = [] →
      k.held = [] → k.waiting = [] → k.ct = false → (s.str st).wait = none → s.csu (otherSid st) = Csu.reset →
      ∃ t : State, exec (.decisionApply st) s = .next t ∧ (t.csu st).st = .idle ∧ t.rounds = [] ∧ t.spm = s.spm ∧ t.rb 0x1418 9 = false)

/-- Every VE and RED command queues a work that has latched its registers; VSETL sets the vector length; VCHAIN queues a chain of its members (05_vector_engine.md, R106, R107, 08_operation_reference.md, R214, R224, R227 in part, 04_scale_trackers.md, R83, 05_vector_engine.md, R106, R118, R119 in part, 08_operation_reference.md, R226 in part). The model's own choices that it rests on: log entry 36 (DEDUCED). -/
def Obligations.VectorCommandsQueueWork : Prop :=
  (∀ r ∈ ([(Instr.vadd, 0x40), (Instr.vsub, 0x41), (Instr.vmul, 0x42), (Instr.vmin, 0x43), (Instr.vmax, 0x44), (Instr.vabs, 0x45),
      (Instr.vneg, 0x46), (Instr.vand, 0x47), (Instr.vor, 0x48), (Instr.vxor, 0x49), (Instr.vnot, 0x4A), (Instr.vshl, 0x4B),
      (Instr.vshr, 0x4C), (Instr.vshra, 0x4D), (Instr.vcmp, 0x4E), (Instr.vsel, 0x4F), (Instr.vcvt, 0x50), (Instr.vmset, 0x51),
      (Instr.vfma, 0x52), (Instr.vexp2, 0x53), (Instr.vlog2, 0x54), (Instr.vrcp, 0x55), (Instr.vrsq, 0x56), (Instr.vq, 0x57),
      (Instr.vdq, 0x58), (Instr.vlxadd, 0x59), (Instr.vlxcvt, 0x5A), (Instr.vlxf, 0x5B), (Instr.vcprs, 0x5C), (Instr.vexpd, 0x5D),
      (Instr.redsum, 0x60), (Instr.redmax, 0x61), (Instr.redmin, 0x62), (Instr.redarg, 0x63), (Instr.redcnt, 0x64)] :
      List ((Sid → Slot → Instr) × Nat)),
  ∀ (s : State) (c0 : Slot), let c := asOpc r.2 c0
    Clear vecSem s .x c →
    (8 ≤ (s.vec.ve.filter fun w => w.beat = 0).length → exec (r.1 .x c0) s = .next (s.modStr .x fun t => { t with stall := some (5, 11) })) ∧
    let trk := if vTrk c = 0x7F then none else some (vTrk c)
    (s.vec.ve.filter fun w => w.beat = 0).length < 8 → (∀ n, trk = some n → (s.trkAt n).bound = true ∧ (s.trkAt n).unav = false ∧ (s.trkAt n).bad = false) →
    let m : VeMem := { c := c, a := s.sX.a, n := s.sX.n, scale := s.vScale s.sX.regs c, trk := trk, lw := s.here .x, lwSlot := c.kind, acc := VeAcc.zero }
    exec (r.1 .x c0) s = .next (s.retired .x c
      { s.began .x with vec := { s.vec with
          serial := s.vec.serial + 1
          ve := s.vec.ve ++ [{ mems := [m],
                               vlen := s.vec.vlen.toNat, beat := 0, key := s.key 0, cs := s.cX.tagNow, pend := vecPend c, wr := memWrites m s.vec.vlen.toNat,
                               serial := s.vec.serial + 1 }] } } none [])) ∧
  (∀ (s : State) (c0 : Slot) (members : List Slot),
    (let c := asOpc 0x5E c0
     Clear vsetlSem s .x c →
      let req := (scalBits s.sX.regs c (c.f 47 42) 0).toNat
      let set : State := { s.began .x with vec := { s.vec with vlen := BitVec.ofNat 21 (min req (2 ^ 20)) } }
      exec (.vsetl .x c0) s = .next (s.retired .x c
        (if bit c.base 41 then set.setReg .x 0 (c.f 40 38) (req - min req (2 ^ 20)) else set) none [])) ∧
    (let c := asOpc 0x5F c0
     let ms := memberAddrs (s.sX.pc.toNat + 16) members
     Clear (vchainSem ms []) s .x c → c.xw = 0 → members.length = c.f 47 44 →
      (∀ m ∈ members, guardTrue s.sX m = true ∧ vTrk m = 0x7F) →
      (s.vec.ve.filter fun w => w.beat = 0).length < 8 → s.rb 0x8040 0 = false → s.rb 0x8040 1 = false →
      exec (.vchain .x c0 members) s = .next (s.retired .x c
        (((s.began .x).pushWork .x (ms.map fun p => ⟨p.1, s.sX.a, s.sX.n, s.vScale s.sX.regs p.1, none, p.2 % 2 ^ 17 + s.bankOf .x * 2 ^ 17, p.1.kind, VeAcc.zero⟩)).modStr .x
          fun t => { t with chain := c.f 47 44 }) none [])))

/-- TTF binds a free feed; MXP issues a pass in order (03_matrix_array.md, R61, R67, R73 in part, 08_operation_reference.md, R222, R223 in part). The model's own choices that it rests on: log entry 17 (DEDUCED). -/
def Obligations.TurntableAndMatrixCommands : Prop :=
  ∀ (s : State) (c0 : Slot),
    (let c := asOpc 0x30 c0
     Clear ttfSem s .x c →
      let north := bit c.base 45
      let b := ttfBsd s.sX.regs c
      let trk := if c.f 43 37 = 0x7F then none else some (c.f 43 37)
      (s.feedAt north (c.f 47 46) = none → (∀ n, trk = some n → (s.trkAt n).bound = true ∧ (s.trkAt n).unav = false) →
        exec (.ttf .x c0) s = .next (s.retired .x c ((s.began .x).setFeed north (c.f 47 46) (some
          { c := c, a := s.sX.a, scale := if b.ts = 1 then s.sX.rdN b.tsn else 0x3F800000, trk := trk, cs := s.cX.tagNow,
            lw := s.here .x, tiles := [], epar := [], told := false })) none [])) ∧
      (s.feedAt north (c.f 47 46) ≠ none →
        exec (.ttf .x c0) s = .next (s.modStr .x fun t => { t with stall := some (5, if north then 10 else 9) }))) ∧
    (let c := asOpc 0x31 c0
     Clear mxpSem s .x c →
      let trk := if c.f 16 10 = 0x7F then none else some (c.f 16 10)
      (s.arr.waiting.length < 4 → (∀ n, trk = some n → (s.trkAt n).bound = true ∧ (s.trkAt n).unav = false) →
        exec (.mxp .x c0) s = .next (s.retired .x c { s.began .x with arr := { s.arr with
          passCnt := s.arr.passCnt + 1
          waiting := s.arr.waiting ++ [{
            c := c, k := mxpK s.sX.regs c, initAddr := (mxpInitAddr s.sX.regs c).toNat, trk := trk,
            cs := s.cX.tagNow, key := s.key 0, lw := s.here .x, num := s.arr.passCnt + 1, west := none, north := none, init := [],
            done := 0, sampled := false, qc := 0, qr := 0, calSect := none }] } } none [])) ∧
      (4 ≤ s.arr.waiting.length → exec (.mxp .x c0) s = .next (s.modStr .x fun t => { t with stall := some (5, 8) })))

/-- The STK commands act on their slot alone once its earlier merges are made (04_scale_trackers.md, R81 to R91 in part, R94, R95, R97, R99 in part, Table 4-1, 08_operation_reference.md, R228 in part). The model's own choices that it rests on: log entries 28 (DEDUCED), 29 (DEDUCED), 109 (DESIGN CHOICE), 125 (DESIGN CHOICE), 126 (DESIGN CHOICE). -/
def Obligations.TrackerCommandsAct : Prop :=
  (∀ (t : Trk) (commit : Bool),
    let u := t.advance commit
    let win := u.alm.take (fld t.scfg 61 58 + 1)
    let scale := fun (ref : W32) (v : W32) => ∀ neg m, fp32 ref = .fin neg m → m ≠ 0 →
      fp32 v = .fin false (pow2 (max (-126) (min 127 (floorLog2 m + 1 - (fld t.scfg 56 50 : Nat)))))
    u.amax = 0 ∧ u.has = false ∧ u.ep = [0, 0, 0] ∧ u.scfg = t.scfg ∧ u.bound = t.bound ∧ u.cnt = t.cnt ∧ u.sat = t.sat ∧ u.perr = t.perr ∧
    u.tripped = t.tripped ∧
    u.alm = (if t.has && !t.perr then (t.amax :: t.alm).take 16 else t.alm) ∧
    (t.has = false → u.wide = t.wide ∧ u.clean = t.clean) ∧
    (t.has = true → if 0 < t.ep.getD 0 0 ∨ (fld t.scfg 29 26 ≠ 0 ∧ t.ep.getD 2 0 < t.ep.getD 1 0 * 2 ^ fld t.scfg 29 26) then u.wide = true ∧ u.clean = 0
      else u.clean = min 15 (t.clean + 1) ∧ u.wide = (t.wide && decide (u.clean < fld t.scfg 33 30))) ∧
    (t.perr = true → u.next = t.next ∧ u.cur = t.cur) ∧
    (t.perr = false → u.cur = (if commit then u.next else t.cur) ∧
      (fld t.scfg 63 62 = 0 ∨ u.alm = [] → u.next = t.cur) ∧
      (fld t.scfg 63 62 = 1 → ∀ ref ∈ win, (∀ x ∈ win, x.toNat ≤ ref.toNat) → scale ref u.next ∧ (ref = 0 → u.next = t.cur)) ∧
      (fld t.scfg 63 62 = 2 → ∀ ref, win = [ref] → scale ref u.next) ∧
      (fld t.scfg 63 62 = 2 → ∀ i top, win[i]? = some top → (∀ x ∈ win, x.toNat ≤ top.toNat) →
        ∀ ref ∈ win.eraseIdx i, (∀ x ∈ win.eraseIdx i, x.toNat ≤ ref.toNat) → scale ref u.next ∧ (ref = 0 → u.next = t.cur)))) ∧
  (∀ (s : State) (n : Nat) (cs : Option Nat), (s.trkAt n).bad = true →
    (s.trkParity n cs).trkAt n = { s.trkAt n with bad := false, perr := true, tripped := true } ∧ (s.trkParity n cs).rb 0x100 10 = true ∧
    (s.trkParity n cs).rb 0x100 evNumericTrip = true) ∧
  (∀ (s : State) (n : Nat) (cs : Option Nat) (amax : W32) (k : Cnts) (elems : Nat),
    let t := s.trkAt n
    let u := s.merge (some n) cs amax k elems
    let add := [k.clip, k.flush, k.escape, k.spread, k.nonfin]
    let ep := [min (2 ^ 24 - 1) (t.ep.getD 0 0 + k.spread), min (2 ^ 24 - 1) (t.ep.getD 1 0 + k.flush), min (2 ^ 24 - 1) (t.ep.getD 2 0 + elems)]
    let trips := (0 < k.spread ∧ fld t.scfg 49 34 < min (2 ^ 24 - 1) (t.ep.getD 0 0 + k.spread) ∧ fld t.scfg 49 34 ≠ 0xFFFF) ∨ (0 < k.nonfin ∧ bit t.scfg 25 = true)
    (t.bad = false → t.cnt.length = 5 → t.sat.length = 5 →
      (∃ tripped, u.trkAt n = { t with amax := if t.amax.toNat < amax.toNat then amax else t.amax, has := true, ep := ep, tripped := tripped
                                       cnt := (List.range 5).map fun i => min (2 ^ 48 - 1) (t.cnt.getD i 0 + add.getD i 0)
                                       sat := (List.range 5).map fun i => t.sat.getD i false || decide (2 ^ 48 - 1 < t.cnt.getD i 0 + add.getD i 0) } ∧
        (tripped = true ↔ t.tripped = true ∨ trips)) ∧
      (∀ j, j ≠ n → u.trkAt j = s.trkAt j) ∧ (trips → u.rb 0x100 evNumericTrip = true) ∧
      (∀ id, trips → cs = some id → s.cX.st = .opened → s.cX.id = id → s.cX.code = 0 → s.cX.beat = false → s.cstate ≠ 1 → u.cX.code = 5 ∧ u.cX.detail = n ∧ u.cX.st = .doomed) ∧
      (¬ trips ∨ cs = none → u.cA = s.cA ∧ u.cX = s.cX ∧ sameSpm s u)) ∧
    (let v := s.merge none cs amax k elems
     v.trk = s.trk ∧ ∀ i, i < 5 → v.rf (0x9800 + 8 * i) 47 0 = min (2 ^ 48 - 1) (s.rf (0x9800 + 8 * i) 47 0 + add.getD i 0))) ∧
  (∀ (s : State) (w : Wait) (n : Nat) (v : W64), s.sX.wait = some w → w.kind = .merges n v → w.ctl = none → w.late = [] → s.sX.chain = 0 →
    s.sX.pendHalt = none → s.sX.loops = [] → s.unmerged n = false → s.cstate ≠ 1 → (s.trkAt n).bad = false →
    (w.cmd.opc = 0x3D → isN (w.cmd.f 29 24) = true) →
    ∃ t : State, exec .stkMergesDone s = .next t ∧ t.trk = (s.stkAct .x w.cmd n v).1.trk ∧ t.sX.wait = none ∧ t.sX.pc = BitVec.ofNat 17 (w.addr + w.len) ∧
      t.sX.n = (s.sX.wrReg ((s.stkAct .x w.cmd n v).2.headD ⟨2, 0, 0⟩)).n ∧ sameSpm s t ∧ t.sA = s.sA) ∧
  ∀ (s : State) (c0 : Slot), s.cA.log = [] → s.cX.log = [] →
    let slotOf := fun (c : Slot) => if bit c.base 40 then (s.sX.rdN (c.f 39 37)).toNat else c.f 47 41
    let acts := fun (c : Slot) => s.unmerged (slotOf c) = false ∧ (s.trkAt (slotOf c)).bad = false
    let mem := fun (a k : Nat) => leNat ((List.range k).map fun i => s.spm.byte (a + i))
    let good := fun (c : Slot) (a k : Nat) => s.readWaits .x (s.loneLw .x c) a k = false ∧ ∀ i, i < k → s.spm.eccAt (a + i) = .good
    let at' := fun (c : Slot) => (selForm s.sX.regs c (c.f 36 31) 0).addrN 0
    let read := fun (c : Slot) => isForm (c.f 36 31) = true → good c (at' c) 4
    let v := fun (c : Slot) => if isForm (c.f 36 31) then BitVec.ofNat 32 (mem (at' c) 4)
      else if isN (c.f 36 31) then s.sX.rdN (c.f 36 31 - 8) else BitVec.ofNat 32 (fld (c.x 0) 31 0)
    let done := fun (c : Slot) (f : Trk → Trk) => s.retired .x c ((s.began .x).modTrk (slotOf c) f) none []
    let unbound := fun (c : Slot) => s.retired .x c (s.began .x).unboundUse none []
    (let c := asOpc 0x39 c0
     Clear stkSem s .x c → acts c → exec (.stkfree .x c0) s = .next (done c fun t => { t with bound := false })) ∧
    (let c := asOpc 0x3A c0
     Clear stkSem s .x c → acts c →
      ((s.trkAt (slotOf c)).bound = true → exec (.stkadv .x c0) s = .next (done c fun t => t.advance (bit c.base 36))) ∧
      ((s.trkAt (slotOf c)).bound = false → exec (.stkadv .x c0) s = .next (unbound c))) ∧
    (let c := asOpc 0x3B c0
     Clear stkSem s .x c → acts c → read c →
      ((s.trkAt (slotOf c)).bound = true → (v c).toNat < 0x7F800000 →
        exec (.stkmrg .x c0) s = .next (done c fun t => { t with amax := if t.amax.toNat < (v c).toNat then v c else t.amax, has := true })) ∧
      ((s.trkAt (slotOf c)).bound = true → 0x7F800000 ≤ (v c).toNat → v c ≠ 0x80000000 → (s.trkAt (slotOf c)).cnt.getD 4 0 < 2 ^ 48 - 1 →
        exec (.stkmrg .x c0) s = .next (done c fun t => { t with cnt := t.cnt.set 4 (t.cnt.getD 4 0 + 1) })) ∧
      ((s.trkAt (slotOf c)).bound = false → exec (.stkmrg .x c0) s = .next (unbound c))) ∧
    (let c := asOpc 0x3C c0
     Clear stkSem s .x c → acts c → read c → exec (.stkset .x c0) s = .next (done c fun t => { t with cur := v c, next := v c })) ∧
    (let c := asOpc 0x3D c0
     Clear stkSem s .x c → acts c →
      let item := (s.trkAt (slotOf c)).item (c.f 36 33) (c.f 32 30)
      let addrs := (selForm s.sX.regs c (c.f 29 24) 0).byteAddrs
      (isN (c.f 29 24) = true → exec (.stkrd .x c0) s = .next (s.retired .x c (s.began .x) none [⟨0, c.f 29 24 - 8, leNat (item.take 4)⟩])) ∧
      (isN (c.f 29 24) = false → s.cke.blocks = [] →
        exec (.stkrd .x c0) s = .next (s.retired .x c ((s.began .x).writePairs (some .x) s.cX.tagNow (addrs.zip item)) none []))) ∧
    (let c := asOpc 0x3E c0
     Clear stkSem s .x c → acts c →
      ((s.trkAt (slotOf c)).bound = true → exec (.stkclr .x c0) s = .next (done c fun t => { t with
        cnt := t.cnt.zipIdx.map fun (k, i) => if (c.f 36 32).testBit i then 0 else k
        sat := t.sat.zipIdx.map fun (b, i) => b && !(c.f 36 32).testBit i })) ∧
      ((s.trkAt (slotOf c)).bound = false → exec (.stkclr .x c0) s = .next (unbound c))) ∧
    (let c := asOpc 0x38 c0
     let a := (((s.sX.rdA (c.f 36 33)).toNat : Int) + sfld c.base 32 9).toNat
     let w := BitVec.ofNat 64 (mem a 8)
     Clear stkSem s .x c → good c a 8 →
      (acts c → exec (.stkbind .x c0) s = .next (done c fun t => t.bind w)) ∧
      (s.unmerged (slotOf c) = true → exec (.stkbind .x c0) s = .next (s.waits .x c (s.began .x) (.merges (slotOf c) w)))) ∧
    (∀ q ∈ ([(Instr.stkmrg, 0x3B), (Instr.stkset, 0x3C)] : List ((Sid → Slot → Instr) × Nat)),
      let c := asOpc q.2 c0
      Clear stkSem s .x c → read c → s.unmerged (slotOf c) = true →
      exec (q.1 .x c0) s = .next (s.waits .x c (s.began .x) (.merges (slotOf c) ((v c).setWidth 64)))) ∧
    (∀ q ∈ ([(Instr.stkfree, 0x39), (Instr.stkadv, 0x3A), (Instr.stkclr, 0x3E), (Instr.stkrd, 0x3D)] : List ((Sid → Slot → Instr) × Nat)),
      let c := asOpc q.2 c0
      Clear stkSem s .x c → s.unmerged (slotOf c) = true → s.cke.blocks = [] →
      ∃ val : W64, exec (q.1 .x c0) s = .next (s.waits .x c (s.began .x) (.merges (slotOf c) val)))

/-- UPDF, ORB and RNGK act as their rules state (12_training_step.md, R314, R318 to R326 in part, 08_operation_reference.md, R235 to R237 in part). The model's own choices that it rests on: log entry 79 (DEDUCED). -/
def Obligations.UpdateOrreryAndDrawCommands : Prop :=
  ∀ (s : State) (c0 : Slot),
    (let c := asOpc 0x68 c0
     Clear updfSem s .x c →
      (8 ≤ (s.vec.ve.filter fun w => w.beat = 0).length → exec (.updf .x c0) s = .next (s.modStr .x fun t => { t with stall := some (5, 11) })) ∧
      let trk := if c.f 17 11 = 0x7F then none else some (c.f 17 11)
      ((s.vec.ve.filter fun w => w.beat = 0).length < 8 → (∀ n, trk = some n → (s.trkAt n).bound = true ∧ (s.trkAt n).unav = false) →
      s.cA.log = [] → s.cX.log = [] →
      let a := (((s.sX.rdA (c.f 47 44)).toNat : Int) + sfld c.base 43 20).toNat
      s.readWaits .x (s.loneLw .x c) a 128 = false → (∀ i, i < 128 → s.spm.eccAt (a + i) = .good) →
      ∃ w : VeWork, exec (.updf .x c0) s = .next (s.retired .x c
          { s.began .x with vec := { s.vec with serial := s.vec.serial + 1, ve := s.vec.ve ++ [w] } } none []) ∧
        w.beat = 0 ∧ w.key = s.key 0 ∧ w.cs = s.cX.tagNow ∧
        ∃ m, w.mems = [m] ∧ m.trk = trk ∧
          ∀ i, i < 16 → m.c.x i = BitVec.ofNat 64 (leNat ((List.range 8).map fun j => s.spm.byte (a + 8 * i + j))))) ∧
    (let c := asSub 0x69 47 45 0 c0
     Clear orbSem s .x c →
      let a := (((s.sX.rdA (c.f 39 36)).toNat : Int) + sfld c.base 35 12).toNat
      s.readWaits .x (s.loneLw .x c) a 64 = false → s.cA.log = [] → s.cX.log = [] →
      ((∀ i, i < 64 → s.spm.eccAt (a + i) ≠ .bad) → exec (.orbLoad .x c0) s = .next (s.retired .x c ((s.began .x).pushAcc .x c true 4 (c.f 44 43)
        ((List.range 64).map (a + ·)) ((List.range 64).map fun i => s.spm.byte (a + i))) none [])) ∧
      ∀ j, j < 8 → s.spm.eccAt (a + 8 * j) = .bad → (∀ i, i < j → s.spm.eccAt (a + 8 * i) ≠ .bad) → exec (.orbLoad .x c0) s =
        .next (s.retired .x c ((s.began .x).pushAcc .x c true 4 (c.f 44 43) ((List.range 8).map (a + 8 * j + ·)) []) none [])) ∧
    (let c := asSub 0x69 47 45 1 c0
     Clear orbSem s .x c →
      let x := s.sched (c.f 44 43)
      let up := (s.began .x).setSched (c.f 44 43) { x with ctr := x.ctr + 1 }
      exec (.orbStep .x c0) s = .next (s.retired .x c
        (if x.ctr = 0xFFFFFFFF then s.began .x else if x.ctr + 1 = 0xFFFFFFFF then up.raise evStepSat else up) none [])) ∧
    (∀ q ∈ ([(Instr.orbMult, 2, fun x => x.mult x.ctr.toNat), (Instr.orbBias1, 3, fun x => x.bias 36 x.ctr.toNat),
        (Instr.orbBias2, 4, fun x => x.bias 40 x.ctr.toNat)] : List ((Sid → Slot → Instr) × Nat × (Sched → Machine.Num))),
      let c := asSub 0x69 47 45 q.2.1 c0
      Clear orbSem s .x c →
        exec (q.1 .x c0) s = .next (s.retired .x c (s.began .x) none [⟨0, c.f 42 40, (bits32 (q.2.2 (s.sched (c.f 44 43)))).toNat⟩])) ∧
    (let c := asSub 0x69 47 45 5 c0
     Clear orbSem s .x c →
      exec (.orbRdstep .x c0) s = .next (s.retired .x c ((s.began .x).setReg .x 0 (c.f 42 40) (s.sched (c.f 44 43)).ctr.toNat) none [])) ∧
    (let c := asSub 0x69 47 45 6 c0
     Clear orbSem s .x c →
      exec (.orbSetstep .x c0) s = .next (s.retired .x c
        ((s.began .x).setSched (c.f 44 43) { s.sched (c.f 44 43) with ctr := s.sX.rdN (c.f 42 40) }) none [])) ∧
    (let c := asSub 0x6A 47 46 0 c0
     Clear rngSem s .x c →
      exec (.rngkKey .x c0) s = .next (s.retired .x c ((s.began .x).pushAcc .x c true 3 (c.f 45 44)
        (selForm s.sX.regs c (c.f 37 32) 0).byteAddrs []) none [])) ∧
    (let c := asSub 0x6A 47 46 1 c0
     Clear rngSem s .x c → (s.vec.ve.filter fun w => w.beat = 0).length < 8 →
      let k := s.key (c.f 45 44)
      let m : VeMem := ⟨c, s.sX.a, s.sX.n, 0, none, s.here .x, c.kind, VeAcc.zero⟩
      exec (.rngkGen .x c0) s = .next (s.retired .x c
        { s.began .x with
          vec := { s.vec with
            serial := s.vec.serial + 1
            ve := s.vec.ve ++ [{
              mems := [m], vlen := s.vec.vlen.toNat, beat := 0, key := k,
              cs := s.cX.tagNow, pend := [], wr := memWrites m s.vec.vlen.toNat, serial := s.vec.serial + 1 }] }
          keys := if k.seq then tset Key.zero s.keys (c.f 45 44) { k with ctr := k.ctr + BitVec.ofNat 32 s.vec.vlen.toNat } else s.keys } none [])) ∧
    (let c := asSub 0x6A 47 46 2 c0
     Clear rngSem s .x c →
      let k := s.key (c.f 45 44)
      exec (.rngkSeq .x c0) s = .next (s.retired .x c { s.began .x with
        keys := tset Key.zero s.keys (c.f 45 44) (if c.f 37 32 = 0 then { k with seq := false } else { k with seq := true, ctr := s.sX.rdN (c.f 37 32 - 8) }) } none []))

/-- A beat of a lone VMSET from a count, and one without lanes; a held beat; a reduction reaches its register; UPDF ends block by block (05_vector_engine.md, R109, R121, R131 in part, 08_operation_reference.md, R214 in part, 12_training_step.md, R314 in part). The model's own choices that it rests on: log entries 34 (DEDUCED), 32 (DEDUCED), 36 (DEDUCED), 78 (DEDUCED), 11 (DESIGN CHOICE), 147 (DESIGN CHOICE). -/
def Obligations.VectorEngineEvents : Prop :=
  (∀ (s : State) (w : VeWork) (rest : List VeWork), s.vec.ve = w :: rest → s.sX.wait = none →
    (s.veHeld w = true → exec (.veBeat []) s = .next s ∧ exec .updfBlockDone s = .next s) ∧
    (∀ (m : VeMem) (k : Nat), w.mems = [m] → m.c.opc = 0x51 → vFn m.c = 0 → vMsk m.c = 0 → vDst m.c = 0x20 + k → ftqsOf m.c = [] → s.cke.blocks = [] →
      vSrc m.c 0 ≠ 0x1A → m.c.ct = false → s.veHeld w = false → s.cA.met = none → s.cX.met = none →
      let n := (scalBits m.regs m.c (vSrc m.c 0) (wSrc m.c 0)).toNat
      ∃ t : State, exec (.veBeat []) s = .next t ∧ sameSpm s t ∧ sameRegs s t ∧ t.trk = s.trk ∧
        t.vec.ve = (if w.vlen ≤ w.ctx.e0 + w.ctx.b then rest else { w with beat := w.beat + 1 } :: rest) ∧
        (∀ j, j ≠ k → tget 0 t.vec.m j = tget 0 s.vec.m j) ∧
        ∀ lane, lane < 1024 → (tget (0 : BitVec 1024) t.vec.m k).getLsbD lane =
          if lane < w.ctx.n then decide (lane < n) else (tget (0 : BitVec 1024) s.vec.m k).getLsbD lane) ∧
    (∀ m : VeMem, w.mems = [m] → elementwise m.c = true → w.vlen = 0 → w.beat = 0 → ftqsOf m.c = [] → m.c.ct = false → m.trk = none → s.veHeld w = false →
      s.cke.blocks = [] → s.cA.met = none → s.cX.met = none →
      ∃ t : State, exec (.veBeat []) s = .next t ∧ t.vec.ve = rest ∧ sameSpm s t ∧ sameRegs s t ∧ t.vec.m = s.vec.m ∧ t.vec.redq = s.vec.redq) ∧
    (∀ m : VeMem, w.mems = [m] → m.c.opc = 0x68 → m.c.ct = false → m.trk = none → w.cs = none → s.veHeld w = false → s.cke.blocks = [] →
      s.cA.log = [] → s.cX.log = [] → s.cA.dirBad = false → s.cX.dirBad = false → s.spm.gone = [] → s.cA.met = none → s.cX.met = none →
      let u := updOf m
      let bi := w.beat / u.nbc
      let bj := w.beat % u.nbc
      let puts := (u.writes w.key (bit m.c.base 10) bi bj (updBlock u (updCoef m 0) (updCoef m 1) (updCoef m 2) (s.updIn u bi bj))).1
      (∀ k ∈ wordsOf (u.reads bi bj), s.spm.eccW k = .good) →
      ∃ t : State, exec .updfBlockDone s = .next t ∧ sameRegs s t ∧ t.trk = s.trk ∧ t.vec.m = s.vec.m ∧
        (if w.beat + 1 < u.nBlocks then ∃ m', t.vec.ve = { w with mems := [m'], beat := w.beat + 1 } :: rest ∧ m'.c = m.c else t.vec.ve = rest) ∧
        (∀ a, t.spm.byte a = (puts.foldl (fun (q : Spm) p => q.poke p.1 p.2) s.spm).byte a) ∧
        ∀ a, (∀ p ∈ puts, ¬ (p.1 ≤ a ∧ a < p.1 + p.2.length)) → t.spm.byte a = s.spm.byte a)) ∧
  ∀ (s : State) (r : RedOut) (rest : List RedOut), s.vec.redq = r :: rest → s.sX.wait = none → r.ct = false →
    exec (.redResultWrite false) s = .next (({ s with vec := { s.vec with redq := rest } }).wrRegs .x r.wr)

/-- A pass begins with its feeds; a tile joins its feed; a finished subtile becomes visible in the FTQ (03_matrix_array.md, R62 to R65, R67, R73 to R79 in part, 02_narrow_numbers.md, R40 in part, 04_scale_trackers.md, R86, R95, 14_integrity_spares_test.md, R354 in part). The model's own choices that it rests on: log entries 20 (DEDUCED), 19 (DEDUCED), 24 (DEDUCED), 138 (DESIGN CHOICE), 123 (DESIGN CHOICE), 26 (DESIGN CHOICE). -/
def Obligations.PassesTilesAndEntries : Prop :=
  (∀ (s : State) (reg : BitVec 2) (p : Pass) (rest : List Pass) (w n : Feed), s.arr.waiting = p :: rest → mxpRegion p.c = reg.toNat → mxpInit p.c = 0 →
    s.mayBegin 0 p = true → s.feedAt false (p.c.f 27 26) = some w → s.feedAt true (p.c.f 25 24) = some n → w.c.ct = false → n.c.ct = false →
    s.cal.isOpen = false →
    let after := fun (f : Feed) (north : Bool) => ({ f with told := f.told || decide (p.k = 0) || (f.nextTile (some (p.lim north))).isNone } : Feed)
    ∃ t : State, exec (.passBegin reg) s = .next t ∧ sameSpm s t ∧ sameRegs s t ∧ t.arr.waiting = rest ∧ t.feedAt false (p.c.f 27 26) = none ∧
      t.feedAt true (p.c.f 25 24) = none ∧
      t.arr.running = s.arr.running ++ [{ p with west := some (after w false), north := some (after n true), init := [], sampled := true, qc := s.arr.qc, qr := s.arr.qr,
                                                 calSect := none }] ∧
      t.arr.qc = s.arr.qc + (if colSampled (mxpPack p.c) (mxpRegion p.c) then 1 else 0) ∧
      t.arr.qr = s.arr.qr + (if rowSampled (mxpPack p.c) (mxpRegion p.c) then 1 else 0)) ∧
  (∀ (s : State) (reg : BitVec 2) (p : Pass) (rest : List Pass), s.arr.waiting = p :: rest → mxpRegion p.c = reg.toNat → s.mayBegin 0 p = true → s.arr.running = [] →
    (∀ k ∈ wordsOf p.initRanges, s.spm.eccW k = .good) → s.cX.log = [] → s.cA.log = [] →
    let row := fun (m : Nat) => ((p.initAddr : Int) + (m : Nat) * mxpStr p.c).toNat
    let word := fun (a z : Nat) => leNat ((List.range z).map fun i => s.spm.byte (a + i))
    let one := fun (a : Nat) => ledgerOf [(decodeElem 0 (word a 4), 24)]
    ∃ t : State, exec (.passBegin reg) s = .next t ∧ t.arr.waiting = rest ∧ ∀ m n, m < mxpM p.c → n < mxpN p.c →
      let g := tget Ledger.empty t.arr.live (p.at' m n)
      (mxpInit p.c = 0 → g = Ledger.empty) ∧ (mxpInit p.c = 1 → g = one (p.initAddr + 4 * m)) ∧ (mxpInit p.c = 2 → g = one (p.initAddr + 4 * n)) ∧
      (mxpInit p.c = 3 → g = one (row m + 4 * n)) ∧
      (mxpInit p.c = 4 → let w := wordLedger (BitVec.ofNat 128 (word (row m + 16 * n) 16))
        g.word = (Ledger.empty.merge w).1.word ∧ g.cnt = if w.spec = 0 ∧ w.w = 0 then 0 else 1)) ∧
  (∀ (s : State) (f : Feed) (nl lb kb i r : Nat), let b := ttfBsd ⟨f.a, []⟩ f.c
    let lane := fld (f.c.x 0) 63 43 + 32 * lb + i
    let k0 := fld (f.c.x 0) 34 14 + 32 * kb
    let edge := min 32 (b.rows - k0)
    let src := fun (r : Nat) => (rowElem b.fmt (s.readBlk b (k0 + r) (lane / 32)).1 (lane % 32)).v
    bit f.c.base 44 = true → isBlockFmt b.fmt = true → i < min 32 (nl - 32 * lb) → r < min 32 (ttfKcnt f.c - 32 * kb) → lane < b.cols → r < edge →
    (∀ r, r < edge → (s.readBlk b (k0 + r) (lane / 32)).2 = none) →
    let got := (((s.readTile f nl lb kb).elems.getD i []).getD r (zeroElem b.fmt)).v
    (b.sq = true → b.fmt ≠ 0x0A → got = src r) ∧
    (b.sq = false → let q := quantBlock b.fmt false (fun _ _ => .rne) [(List.range 32).map fun r => if r < edge then some (src r) else none]
      got = (rowElem b.fmt (q.1.headD ⟨[], 0, none⟩) r).v) ∧
    (b.sq = true → b.fmt = 0x0A →
      let blk := fun (r : Nat) => (s.readBlk b (k0 + r) (lane / 32)).1
      let esc := fun (r : Nat) => match (blk r).esc with | some (_, j) => decide (j = lane % 32) | none => false
      ((esc r = false ∨ ∀ q, q < r → esc q = false) → got = src r) ∧
      (∀ code j, esc r = true → (∃ q < r, esc q = true) → (blk r).esc = some (code, j) →
        got = if (blk r).scale = 0xFF then .nan false else (decodeElem 9 (narrowElem 9 .rne (decodeElem 6 code)).1).mul (e8m0 (blk r).scale)))) ∧
  (∀ (s : State) (north : Bool) (k : BitVec 2) (f : Feed) (lb kb : Nat), s.feedAt north k.toNat = some f →
    (s.arr.running.findIdx? fun p => (if north then p.c.f 25 24 else p.c.f 27 26) = k.toNat && !p.fed north) = none →
    let lim := s.feedLim north k.toNat
    s.granted = true → s.heldTiles north < 32 → f.nextTile lim = some (lb, kb) → (s.readTile f (f.lanes lim) lb kb).bad = none → f.c.ct = false →
    let r := s.readTile f (f.lanes lim) lb kb
    let g : Feed := { f with tiles := f.tiles ++ [⟨lb, kb, r.elems⟩] }
    ∃ t : State, exec (.tileReady north k false []) s = .next t ∧ (f.requant = false ∨ f.trk = none ∨ f.cs = none → t.spm.mem = s.spm.mem) ∧ sameRegs s t ∧
      t.trk = (if f.requant = true then (s.merge f.trk f.cs 0 r.cnts r.count).trk else s.trk) ∧ t.feedAt (!north) k.toNat = s.feedAt (!north) k.toNat ∧
      t.feedAt north k.toNat = some { g with told := f.told || (g.nextTile lim).isNone }) ∧
  (∀ (s : State) (reg : BitVec 2) (p : Pass) (i sr sc : Nat), s.arr.running.findIdx? (fun p => mxpRegion p.c = reg.toNat) = some i →
    s.arr.running[i]? = some p → p.order[p.done]? = some (sr, sc) → p.fed false = true → p.fed true = true →
    s.ftqUsed + (if mxpOut p.c = 3 then 4 else 1) ≤ 32 →
    let last := decide (p.done + 1 = p.order.length)
    let e := p.entry s.arr.live sr sc last
    let arr := s.arr.turn (s.arr.running.drop (i + 1)) (e.2.2.2.2.map fun x => (p.at' x.1.1 x.1.2, x.2.led))
    (∀ x ∈ e.2.2.2.2, x.2.resErr = false) → p.c.ct = false →
    (∀ f : CellFault,
      let hit := match f with
        | .residue row col => p.holds sr sc row.toNat col.toNat
        | .outCol k row col => p.holds sr sc row.toNat col.toNat && p.compares s true k.toNat row.toNat col.toNat
        | .outRow k row col => p.holds sr sc row.toNat col.toNat && p.compares s false k.toNat row.toNat col.toNat
      let isRes := match f with | .residue _ _ => true | _ => false
      (hit = false → exec (.ftqEntryVisible reg [f]) s = exec (.ftqEntryVisible reg []) s) ∧
      (hit = true → ∃ t : State, exec (.ftqEntryVisible reg [f]) s = .next t ∧ t.arr.ftq = s.arr.ftq ++ [{ e.1 with reserr := isRes, omm := !isRes }] ∧
        t.rb 0x100 (if isRes then evArrayFault else evOutrider) = true ∧ sameRegs s t ∧
        (isRes = false → s.cX.st = .opened → s.cX.code = 0 → s.cX.beat = false → s.cstate ≠ 1 → t.cX.code = 4 ∧ t.cX.st = .doomed))) ∧
    ∃ t : State, exec (.ftqEntryVisible reg []) s = .next t ∧ (p.trk = none ∨ p.cs = none → sameSpm s t) ∧ sameRegs s t ∧ t.arr.ftq = s.arr.ftq ++ [e.1] ∧ e.1.last = last ∧
      t.trk = (s.merge p.trk p.cs e.2.2.1 e.2.1 e.2.2.2.1).trk ∧ e.2.2.2.1 = e.2.2.2.2.length ∧ (∀ x ∈ e.2.2.2.2, x.2.amax.toNat ≤ e.2.2.1.toNat) ∧
      t.arr.waiting = s.arr.waiting ∧
      (∀ x ∈ e.2.2.2.2, tget Ledger.empty t.arr.drain (p.at' x.1.1 x.1.2) = x.2.led ∧
        tget Ledger.empty t.arr.live (p.at' x.1.1 x.1.2) = tget Ledger.empty s.arr.shadow (p.at' x.1.1 x.1.2)) ∧
      t.arr.running = (if last then arr.running.eraseIdx i else arr.running.set i { p with done := p.done + 1 }))

/-- A fill fills its bytes, a bad descriptor ends, a completion record is pushed, a sound image becomes VALID (06_scratchpad_queues_tickets.md, R163 to R166 in part, Tables 6-7 and 6-8, 09_translation_imem_debug.md, R242 in part). -/
def Obligations.DmaDescriptorsRun : Prop :=
  (∀ (s : State) (ch : BitVec 4) (e : Entry),
    let n := ch.toNat
    let d : Dsc := e.bytes
    s.ctxBound (16 + n) = true → s.flight n = [] → s.cstate ≠ 1 → (s.ctx (16 + n)).headEntry = some e → e.src = none → e.cs = none →
    (s.ctx (16 + n)).ordflt = false → (∀ k ∈ e.cars, k.poison = false ∧ k.ecc = .good) →
    let c : Chan := ⟨d, e.tkt, none, 0, 0, 0, 0, false, false, false, false, [], [], false, false, []⟩
    let taken := fun (t : State) => (t.ctx (16 + n)).et = ((s.ctx (16 + n)).et + 1) % 65536 ∧
      (t.ctx (16 + n)).entries = (s.ctx (16 + n)).entries.filter fun x => x.tkt ≠ e.tkt
    (s.dscBad d = true → ∃ t : State, exec (.dmaDescriptorStart ch []) s = .next t ∧ taken t ∧ sameSpm s t ∧ sameRegs s t ∧
      t.flight n = [{ c with status := 1, ended := true, loaded := true }]) ∧
    (s.dscBad d = false → d.fill = true → d.dstSp = 0 → d.rows = 1 → d.rowLen ≤ 128 → s.cke.blocks = [] → s.cA.log = [] → s.cX.log = [] →
      s.cA.dirBad = false → s.cX.dirBad = false → s.spm.gone = [] →
      ∃ t : State, exec (.dmaDescriptorStart ch []) s = .next t ∧ taken t ∧ sameRegs s t ∧
        t.flight n = [{ c with unit := 1, moved := d.rowLen }] ∧
        (∀ i, i < d.rowLen → t.spm.byte (d.dst + i) = byteAt d (40 + i % 8)) ∧
        ∀ a, ¬ (d.dst ≤ a ∧ a < d.dst + d.rowLen) → t.spm.byte a = s.spm.byte a)) ∧
  (∀ (s : State) (ch : BitVec 4) (c : Chan) (r : List Chan),
    let n := ch.toNat
    let d : Dsc := c.desc
    let cc := if d.flags / 2 % 2 = 1 then 32 + n else d.cctx
    s.flight n = c :: r → c.allIssued = true → c.left = 0 → c.park = [] → c.held = false → s.fab.todo = [] → (∀ p ∈ s.qsy, ∀ q ∈ p.2.prod, q.agent ≠ 40 + n) → d.op ≠ 2 → c.tkt < 65536 → c.status < 256 →
    s.ctxBound cc = true → s.ctxClass cc = 4 → (s.ctx cc).prod = [] → s.canAlloc cc 1 = true →
    (d.ctkt + 65536 - (s.ctx cc).et) % 65536 < 32768 → (∀ x ∈ (s.ctx cc).entries, x.tkt ≠ d.ctkt) →
    ∃ t : State, exec (.dmaDescriptorComplete ch) s = .next t ∧ t.flight n = r ∧ sameSpm s t ∧ sameRegs s t ∧
      (t.ctx cc).entries = (s.ctx cc).entries ++
        [⟨d.ctkt, [⟨BitVec.ofNat 512 (c.status + 256 * c.tkt + 2 ^ 24 * min c.moved 0xFFFFFFFF), false, .good⟩], none, none, none⟩] ∧
      (d.flags % 2 = 1 → t.rb 0x100 3 = true) ∧ (c.status ≠ 0 → t.rb 0x100 4 = true)) ∧
  ∀ (s : State) (ch : BitVec 4) (c : Chan),
    let n := ch.toNat
    let d : Dsc := c.desc
    let b := c.rowBytes
    let units := rdLe b 8 2
    (s.flight n).find? (fun c => decide (Dsc.op c.desc = 2) && !c.loaded && c.allIssued && c.left = 0) = some c →
    c.status = 0 →
    let err := hdrErr b (s.rf (bankInfo d.dst) 31 16) d.rowLen 0
    ∃ t : State, exec (.imemLoadComplete ch) s = .next t ∧ sameSpm s t ∧ sameRegs s t ∧ (∀ k, k / 8192 ≠ d.dst → tget 0 t.imem.rows k = tget 0 s.imem.rows k) ∧
      (∀ r, r < 8192 → tget .good t.imem.ecc (d.dst * 8192 + r) = .good ∧ tget 0 t.imem.rows (d.dst * 8192 + r) =
        if err = 0 ∧ r < units then BitVec.ofNat 160 (rdLe b (128 + 16 * r) 16 + rdLe b (128 + 16 * units + 4 * r) 4 * 2 ^ 128) else 0) ∧
      (err = 0 → t.rb (bankInfo d.dst) 63 = true) ∧ t.rf (bankInfo d.dst) 61 59 = err

/-- READ_DATA, WRITE_ACK and FABRIC_REQUEST_TIMEOUT act on the request of their tag (15_ports_fabric.md, R379, R380 in part, 06_scratchpad_queues_tickets.md, R166 in part, 09_translation_imem_debug.md, R258 in part, 13_failure_survival.md, R342, R347 in part). The model's own choices that it rests on: log entry 86 (DESIGN CHOICE). -/
def Obligations.FabricResponses : Prop :=
  ∀ (s : State) (tag : BitVec 12) (c : Chan), s.fab.todo = [] →
    (s.pins.fpUp = true → s.fab.reads.find? (fun r => r.tag = tag.toNat) = none → ∀ st u,
      exec (.readData tag st u) s = .next ((s.setRf 0x390 15 0 (satInc 16 (s.rf 0x390 15 0))).freeRx 2)) ∧
    (s.pins.fpUp = true → s.fab.writes.find? (fun r => r.tag = tag.toNat) = none → ∀ st,
      exec (.writeAck tag st) s = .next ((s.setRf 0x390 15 0 (satInc 16 (s.rf 0x390 15 0))).freeRx 2)) ∧
    (∀ (r : Req) (u : Unit128), s.pins.fpUp = true → s.fab.reads.find? (fun r => r.tag = tag.toNat) = some r → r.dead = false → r.ch ≠ 64 →
      s.chanOf r.ch r.tkt = some c → c.ended = false → c.cs = none → c.bad = [] →
      let d : Dsc := c.desc
      let a := d.dstAt r.unit
      let n := d.pLen r.unit
      d.dstSp = 0 → d.srcSp ≠ 2 → d.fill = false → s.cke.blocks = [] → s.cA.log = [] → s.cX.log = [] → s.cA.dirBad = false → s.cX.dirBad = false →
      s.spm.gone = [] →
      ∃ t : State, exec (.readData tag 0 u) s = .next t ∧ sameRegs s t ∧ t.fab.reads = s.fab.reads.filter (fun q => q.tag ≠ r.tag) ∧
        (t.link 2).freed = (s.link 2).freed + 1 ∧
        (let c' : Chan := { c with left := c.left - 1, moved := c.moved + min n 128 }
         t.chanOf r.ch r.tkt = some (if u.poison then c'.setStatus 3 else c')) ∧
        (u.poison = true → t.csr = ((s.fault 0x0B 6 none r.addr).perf 9 128).csr) ∧
        (∀ i, i < min n 128 → t.spm.byte (a + i) = BitVec.ofNat 8 (u.data.toNat / 2 ^ (8 * i))) ∧
        ∀ x, ¬ (a ≤ x ∧ x < a + min n 128) → t.spm.byte x = s.spm.byte x) ∧
    (∀ r : Req, s.pins.fpUp = true → s.fab.reads.find? (fun r => r.tag = tag.toNat) = some r →
      let gone : State := { s with fab := { s.fab with reads := s.fab.reads.filter fun q => q.tag ≠ r.tag } }
      (r.dead = true → ∀ st u, exec (.readData tag st u) s = .next ((gone.setRf 0x390 31 16 (satInc 16 (s.rf 0x390 31 16))).freeRx 2)) ∧
      (r.dead = false → r.ch ≠ 64 → s.chanOf r.ch r.tkt = some c → ∀ st u, st ≠ 0 → ∃ t : State, exec (.readData tag st u) s = .next t ∧ sameSpm s t ∧
        sameRegs s t ∧ t.fab.reads = gone.fab.reads ∧ (t.link 2).freed = (s.link 2).freed + 1 ∧
        t.chanOf r.ch r.tkt = some ({ c with left := c.left - 1 }.setStatus 2)) ∧
      (r.dead = false → r.ch = 64 → ∀ j u, s.cke.job = some j → j.num = r.tkt → u.poison = false →
        exec (.readData tag 0 u) s = .next ((({ gone with cke := { s.cke with job := some { j with got := j.got ++ [(r.unit, u)] } } } : State).perf 9 128).freeRx 2)) ∧
      (r.dead = false → r.ch = 64 → (s.cstate = 1 ∨ s.cstate = 2) → s.cke.ct = false → s.cA.due = none → s.cX.due = none → s.cA.waiting = [] →
        s.cX.waiting = [] → s.chans = [] → ∀ st u, st ≠ 0 → ∃ t : State, exec (.readData tag st u) s = .next t ∧ sameSpm s t ∧ sameRegs s t ∧
        t.fab.reads = gone.fab.reads ∧ t.cstate = 4 ∧ t.rf 0x1808 39 32 = 1 ∧ t.cke.job = none)) ∧
    (∀ r : Req, s.pins.fpUp = true → s.fab.writes.find? (fun r => r.tag = tag.toNat) = some r →
      let gone : State := { s with fab := { s.fab with writes := s.fab.writes.filter fun q => q.tag ≠ r.tag } }
      (r.dead = true → ∀ st, exec (.writeAck tag st) s = .next ((gone.setRf 0x390 31 16 (satInc 16 (s.rf 0x390 31 16))).freeRx 2)) ∧
      (r.dead = false → r.ch = 64 → s.cstate ≠ 2 → exec (.writeAck tag 0) s = .next (gone.freeRx 2)) ∧
      (r.dead = false → r.ch = 64 → s.cstate = 2 → s.cke.trailer = false → s.cke.staged = [] → s.cke.blocks = [] → gone.ckeBusy = false →
        ∃ t : State, exec (.writeAck tag 0) s = .next t ∧ sameSpm s t ∧ sameRegs s t ∧ t.cke.trailer = true ∧ ∀ q ∈ t.fab.todo, q.ch = 64 ∧ q.sent.isSome = true)) ∧
    (∀ r : Req, s.pins.fpUp = true → s.fab.writes.find? (fun r => r.tag = tag.toNat) = some r → r.dead = false → r.ch ≠ 64 →
      s.chanOf r.ch r.tkt = some c →
      (∃ t : State, exec (.writeAck tag 0) s = .next t ∧ sameSpm s t ∧ sameRegs s t ∧ t.fab.writes = s.fab.writes.filter (fun q => q.tag ≠ r.tag) ∧
        (t.link 2).freed = (s.link 2).freed + 1 ∧ t.chanOf r.ch r.tkt = some { c with left := c.left - 1, moved := c.moved + 128 }) ∧
      (∀ st, st ≠ 0 → ∃ t : State, exec (.writeAck tag st) s = .next t ∧ sameSpm s t ∧ sameRegs s t ∧
        t.fab.writes = s.fab.writes.filter (fun q => q.tag ≠ r.tag) ∧ (t.link 2).freed = (s.link 2).freed + 1 ∧
        t.chanOf r.ch r.tkt = some ({ c with left := c.left - 1 }.setStatus 2))) ∧
    (∀ r : Req, s.rf 0x380 15 0 ≠ 0 → s.fab.writes.find? (fun r => r.tag = tag.toNat && !r.dead) = some r → r.ch ≠ 64 → s.chanOf r.ch r.tkt = some c →
      ∃ t : State, exec (.fabricRequestTimeout true tag) s = .next t ∧ sameSpm s t ∧ sameRegs s t ∧ t.chanOf r.ch r.tkt = some ({ c with left := c.left - 1 }.setStatus 2) ∧
        t.fab.writes = s.fab.writes.map fun q => if q.tag = r.tag then { q with dead := true } else q) ∧
    (∀ r : Req, s.rf 0x380 15 0 ≠ 0 → s.fab.reads.find? (fun r => r.tag = tag.toNat && !r.dead) = some r → r.ch ≠ 64 → s.chanOf r.ch r.tkt = some c →
      ∃ t : State, exec (.fabricRequestTimeout false tag) s = .next t ∧ sameSpm s t ∧ sameRegs s t ∧ t.chanOf r.ch r.tkt = some ({ c with left := c.left - 1 }.setStatus 2) ∧
        t.fab.reads = s.fab.reads.map fun q => if q.tag = r.tag then { q with dead := true } else q)

/-- Flits are acknowledged, sent again, accepted or refused; credits come back (15_ports_fabric.md, R373 to R376 in part). The model's own choices that it rests on: log entry 93 (DESIGN CHOICE). -/
def Obligations.LinkEvents : Prop :=
  ∀ (s : State) (ch : BitVec 4) (seq : Byte) (flit : BitVec 1152),
    let c := ch.toNat
    let f := flit.toNat
    let l := s.link c
    let only := fun (t : State) => sameSpm s t ∧ sameRegs s t ∧ ∀ j, j ≠ c → t.link j = s.link j
    s.pins.fpUp = true →
    (isOutbound c = true → l.sendq = [] →
      (l.credits < 255 → ∃ t : State, exec (.linkCredit ch) s = .next t ∧ only t ∧ t.link c = { l with credits := l.credits + 1 }) ∧
      (255 ≤ l.credits → exec (.linkCredit ch) s = .next (s.setRf 0x388 2 2 1)) ∧
      (∃ t : State, exec (.linkAck ch seq) s = .next t ∧ only t ∧ t.link c = { l with replay := ackUpTo seq.toNat l.replay }) ∧
      ((∀ p ∈ ackUpTo seq.toNat l.replay, p.2.2 < 4) → ∃ t : State, exec (.linkNak ch seq) s = .next t ∧ only t ∧
        t.link c = { l with replay := (ackUpTo seq.toNat l.replay).map fun p => (p.1, p.2.1, p.2.2 + 1) } ∧
        t.rf 0x390 47 32 = if ackUpTo seq.toNat l.replay = [] then s.rf 0x390 47 32 else satInc 16 (s.rf 0x390 47 32))) ∧
    (isInbound c = true →
      (flitCrc c f = f % 65536 → flitFld f (ctlBits c - 1) (ctlBits c - 8) = l.seq →
        let got : Link := { l with seq := (l.seq + 1) % 256, errs := 0, nakd := false, ack := some l.seq }
        exec (.linkFlitReceive ch flit) s = .next ((s.modLink c fun _ => got).takeFlit c f) ∧
        (c = 3 → flitFld f 119 118 = 0 → ∃ t : State, exec (.linkFlitReceive ch flit) s = .next t ∧ only t ∧
          t.link c = { got with freed := l.freed + 1 } ∧ t.csr = s.csr)) ∧
      (flitCrc c f ≠ f % 65536 → l.nakd = false → l.errs < 4 →
        ∃ t : State, exec (.linkFlitReceive ch flit) s = .next t ∧ only t ∧ t.link c = { l with errs := l.errs + 1, nakd := true, nak := some ((l.seq + 255) % 256) } ∧
          t.rf 0x390 63 48 = satInc 16 (s.rf 0x390 63 48)))

/-- QMSG assembles an entry, QMSG_ACK frees it at its sender, QMSG_CREDIT returns credit; a FAB_OUT entry leaves (15_ports_fabric.md, R381 to R383 in part, 06_scratchpad_queues_tickets.md, R155 in part). The model's own choices that it rests on: log entries 51 (DEDUCED), 114 (DESIGN CHOICE), 135 (DESIGN CHOICE), 136 (DESIGN CHOICE). -/
def Obligations.QueueMessages : Prop :=
  ∀ (s : State), s.pins.fpUp = true →
    (∀ m : QMsg, m.place.toNat ≠ s.place → exec (.qmsg m) s = .next ((s.setRf 0x398 15 0 (satInc 16 (s.rf 0x398 15 0))).freeRx 3)) ∧
    (∀ m : QMsg,
      let n := m.rctx.toNat
      let k := m.ncar.toNat + 1
      let cars := [Car.mk (BitVec.ofNat 512 m.data.toNat) m.poison .good, Car.mk (BitVec.ofNat 512 (m.data.toNat >>> 512)) m.poison .good].take k
      m.place.toNat = s.place → k ≤ 2 → m.fidx = 0 → s.fab.twbuf = [] → s.fab.asm = [] → s.ctxBound n = true → s.ctxClass n = 6 → s.canAlloc n k = true →
      (m.ticket.toNat + 65536 - (s.ctx n).et) % 65536 < 32768 → (∀ x ∈ (s.ctx n).entries, x.tkt ≠ m.ticket.toNat) →
      ∃ t : State, exec (.qmsg m) s = .next t ∧ sameSpm s t ∧ sameRegs s t ∧ t.fab.asm = [] ∧ t.fab.twbuf = [] ∧
        (t.ctx n).entries = (s.ctx n).entries ++ [⟨m.ticket.toNat, cars, some (m.splace.toNat, m.sctx.toNat), none, none⟩] ∧
        t.link 4 = ((s.modLink 4 fun l => { l with sendq := l.sendq ++ [trAck m.sctx.toNat 0 m.ticket.toNat m.splace.toNat] }).pumpLink 4).link 4 ∧
        t.csr = if m.poison then (s.fault 0x0B 6 none n).csr else s.csr) ∧
    (∀ (sctx : BitVec 12) (ticket : W16) (place : BitVec 24) (e : Entry),
      let n := sctx.toNat
      s.ctxClass n = 5 → (s.ctx n).entries.find? (fun e => e.tkt = ticket.toNat && e.sent.isSome) = some e →
      let left := (s.ctx n).entries.filter fun x => !(x.tkt = e.tkt && x.sent.isSome)
      exec (.qmsgAck sctx ticket 0 place) s = .next ((s.modCtx n fun c => { c with entries := left }).freeRx 2) ∧
      ∀ st : BitVec 2, st ≠ 0 → exec (.qmsgAck sctx ticket st place) s =
        .next (((s.modCtx n fun c => { c with entries := left, reject := true }).raise evQueueFabricErr).freeRx 2)) ∧
    (∀ (sctx : BitVec 12) (cars : BitVec 5) (place : BitVec 24), s.ctxBound sctx.toNat = true → s.ctxClass sctx.toNat = 5 →
      exec (.qmsgCredit sctx cars place) s =
        .next ((s.modCtx sctx.toNat fun c => { c with credit := min (s.maxq sctx.toNat) (c.credit + cars.toNat) }).freeRx 2)) ∧
    (∀ (n : BitVec 12) (e : Entry), s.ctxBound n.toNat = true → s.ctxClass n.toNat = 5 → (s.ctx n.toNat).ordflt = false →
      (s.ctx n.toNat).headEntry = some e → e.sent = none → (∀ x ∈ e.cars, x.ecc = .good) → e.cars.length ≤ (s.ctx n.toNat).credit →
      s.slotTurn = some (16 + n.toNat) →
      ∃ t : State, exec (.fabOutSend n) s = .next t ∧ sameSpm s t ∧ sameRegs s t ∧ (t.ctx n.toNat).credit = (s.ctx n.toNat).credit - e.cars.length ∧
        (t.ctx n.toNat).et = ((s.ctx n.toNat).et + 1) % 65536 ∧
        t.fab.rr = 16 + n.toNat ∧ t.link 1 = ((qmsgFlits s n.toNat e).foldl (fun s m => s.send 1 (wqQmsg m)) s).link 1 ∧
        ∃ m, (t.ctx n.toNat).entries = (s.ctx n.toNat).entries.map fun x => if x = e then { e with sent := some m } else x) ∧
    ∀ n : BitVec 12, s.slotTurn ≠ some (16 + n.toNat) → exec (.fabOutSend n) s = .next s

/-- STRM.CTRL starts, stops, halts and resets a stream; STREAM_RESET_DONE leaves it as after reset (07_program_model.md, R199 to R203 in part, 00_scope.md, R6 in part, 05_vector_engine.md, R133 in part). The model's own choices that it rests on: log entry 46 (DEDUCED). -/
def Obligations.StreamControlCommands : Prop :=
  ∀ (s : State) (st : Sid), s.pins.stopReady = true → s.pins.bypassClosed = false → s.rb 8 0 = true →
    let state := (s.str st).st
    let ign := s.setRf (strmBase st + 8) 20 20 1
    let landed := match (s.str st).wait with | some w => s.wrRegs st w.late | none => s
    let refused := fun (t : State) (d : Nat) => (t.str st).st = .halted ∧ t.rb (haltBase st) 55 = true ∧ t.rb (haltBase st) 54 = false ∧
      t.rf (haltBase st) 63 56 = 0x19 ∧ t.rf (haltBase st + 16) 47 0 = d ∧ t.rf (strmBase st + 8) 15 8 = 0x19 ∧ t.rb 0x100 (evHalt st) = true ∧ sameSpm s t
    (state = .idle → s.rf 0x1808 6 5 ≠ 3 → s.rf 0x1808 6 5 ≠ 1 → s.bist = none → s.imageBad true = none → (st = .x → s.cke.rngCheck = false) →
      exec (.strmStart st) s = .next (s.modStr st fun _ =>
        { Stream.reset with st := .running, pc := BitVec.ofNat 17 (s.rf (strmBase st + 0x10) 16 4 * 16), fresh := true })) ∧
    (state = .stopped → s.bist = none → s.imageBad false = none → (st = .x → s.cke.rngCheck = false) →
      exec (.strmStart st) s = .next (s.modStr st fun t => { t with st := .running })) ∧
    (∀ d, state = .idle → s.rf 0x1808 6 5 ≠ 3 → s.rf 0x1808 6 5 ≠ 1 → s.bist = none → s.imageBad true = some d →
      ∃ t : State, exec (.strmStart st) s = .next t ∧ refused t d ∧ t.rf (haltBase st) 16 0 = s.rf (strmBase st + 0x10) 16 4 * 16 ∧ t.rd (haltBase st + 8) = 0 ∧
        t.str st = { Stream.reset with st := .halted, pc := BitVec.ofNat 17 (s.rf (strmBase st + 0x10) 16 4 * 16) }) ∧
    (∀ d, state = .stopped → s.bist = none → s.imageBad false = some d →
      ∃ t : State, exec (.strmStart st) s = .next t ∧ refused t d ∧ t.rf (haltBase st) 16 0 = (s.str st).pc.toNat ∧ t.rd (haltBase st + 8) = (s.str st).cc ∧ sameRegs landed t) ∧
    (state ≠ .idle → state ≠ .stopped → exec (.strmStart st) s = .next ign) ∧
    (state = .running → exec (.strmStop st) s = .next (s.modStr st fun t => { t with st := .stopping })) ∧
    (state ≠ .running → exec (.strmStop st) s = .next ign) ∧
    (state = .running ∨ state = .stopping → exec (.strmHalt st) s = .next (s.modStr st fun t => { t with haltReq := true })) ∧
    (state = .idle ∨ state = .halted ∨ state = .resetting → exec (.strmHalt st) s = .next ign) ∧
    (state = .resetting → exec (.strmReset st) s = .next ign) ∧
    (state = .stopped → ∃ t : State, exec (.strmHalt st) s = .next t ∧ (t.str st).st = .halted ∧ t.rb (haltBase st) 55 = true ∧ t.rf (haltBase st) 63 56 = 0x18 ∧
      sameSpm s t) ∧
    (state ≠ .resetting → (s.csu st).st = .opened → (s.csu st).due = none → (s.csu st).waiting = [] → s.cstate ≠ 1 →
      ∃ t : State, exec (.strmReset st) s = .next t ∧ (t.str st).st = .resetting ∧ (t.csu st).st = .rollback ∧ (t.csu st).code = 1 ∧ (t.csu st).detail = 1) ∧
    (state ≠ .resetting → (s.csu st).st = .idle ∨ (s.csu st).st = .rollback →
      ∃ t : State, exec (.strmReset st) s = .next t ∧ (t.str st).st = .resetting ∧ (t.str st).wait = none ∧ sameSpm s t ∧ sameRegs landed t ∧
        t.str (otherSid st) = s.str (otherSid st) ∧
        (st = .a → ∀ ch, ch < 16 → (t.ctx (16 + ch)).entries = [] ∧ (t.ctx (16 + ch)).et = (t.ctx (16 + ch)).nt) ∧
        (st = .x → t.vec.ve = [] ∧ t.vec.redq = [] ∧ t.arr.waiting = [] ∧ t.arr.running = [] ∧ t.arr.ftq = [] ∧ t.vec.m = s.vec.m)) ∧
    (state = .resetting → (s.str st).scal = [] →
      ∃ t : State, exec (.streamResetDone st) s = .next t ∧ t.str st = Stream.reset ∧ sameSpm s t ∧ t.str (otherSid st) = s.str (otherSid st) ∧
        t.rb (haltBase st) 55 = false ∧ t.rf (strmBase st + 8) 15 8 = 0 ∧
        (st = .x → t.vec.vlen = 0 ∧ t.vec.m = [] ∧ t.vec.k = [] ∧ t.keys = []))

/-- At a boundary a stream stops, halts, co-halts or takes a switch (07_program_model.md, R197, R198, R201, R202 in part, 09_translation_imem_debug.md, R245, R257 in part). The model's own choices that it rests on: log entry 156 (DEDUCED). -/
def Obligations.BoundariesHaltAndSwitch : Prop :=
  ∀ (s : State) (st : Sid), (s.str st).chain = 0 →
    let state := (s.str st).st
    let landed := match (s.str st).wait with | some w => s.wrRegs st w.late | none => s
    let halted := fun (t : State) (reason : Nat) (partner : Bool) => (t.str st).st = .halted ∧ (t.str st).wait = none ∧ sameSpm s t ∧ sameRegs landed t ∧
      t.rf (haltBase st) 63 56 = reason ∧ t.rb (haltBase st) 55 = true ∧ t.rb (haltBase st) 54 = false ∧ t.rb (haltBase st) 53 = partner ∧
      t.rf (haltBase st) 16 0 = (s.str st).pc.toNat ∧ t.rd (haltBase st + 8) = (s.str st).cc ∧ t.rf (strmBase st + 8) 15 8 = reason ∧
      t.rb 0x100 (evHalt st) = true
    (state = .stopping → (s.str st).wait = none → (s.str st).lockWait = false → (s.str st).haltReq = false → (s.str st).swPend = false →
      exec (.stopBoundary st) s = .next (s.modStr st fun t => { t with st := .stopped, stall := none })) ∧
    (state = .running ∨ state = .stopping → (s.str st).haltReq = true →
      ∃ t : State, exec (.hostHalt st) s = .next t ∧ halted t 0x18 false ∧
        (s.rb (strmBase (otherSid st)) 8 = true → (s.str (otherSid st)).st = .running → (t.str (otherSid st)).coReq = true)) ∧
    (state = .running ∨ state = .stopping ∨ state = .stopped → (s.str st).coReq = true →
      ∃ t : State, exec (.cohalt st) s = .next t ∧ halted t (s.rf (strmBase (otherSid st) + 8) 15 8) true ∧ t.str (otherSid st) = s.str (otherSid st)) ∧
    (state = .running → (s.str st).swPend = true → (s.str st).wait = none → (s.str st).lockWait = false → s.cstate ≠ 1 → s.imageBad false = none →
      ∃ t : State, exec (.streamTakesSwitch st) s = .next t ∧ (t.str st).st = .running ∧ (t.str st).swPend = false ∧ (t.str st).loops = [] ∧
        (t.str st).pc = BitVec.ofNat 17 (s.bankEntry s.runBank st) ∧ t.runBank = s.runBank ∧ sameSpm s t ∧ sameRegs s t ∧
        t.str (otherSid st) = s.str (otherSid st) ∧ t.rb 0x208 2 = (s.str (otherSid st)).swPend)

/-- IMEM_SWITCH exchanges the banks; HADDR loads a unit, HTAG commits it to the idle bank; corrected words are written back (09_translation_imem_debug.md, R243, R244, R246, R261 in part, Table 9-11, 06_scratchpad_queues_tickets.md, R137 in part). The model's own choices that it rests on: log entries 74 (DEDUCED), 106 (DESIGN CHOICE). -/
def Obligations.InstructionMemoryAndCorrections : Prop :=
  (∀ (s : State) (a : BitVec 24), let w := a.toNat / 8
    w ∈ s.spm.wb → s.spm.gone = [] → s.spm.eccW w = .single →
    ∃ t : State, exec (.spmEccWriteback a) s = .next t ∧ t = { s with spm := t.spm } ∧ t.spm.mem = s.spm.mem ∧ t.spm.eccW w = .good ∧ w ∉ t.spm.wb ∧
      ∀ k, k ≠ w → t.spm.eccW k = s.spm.eccW k) ∧
  (∀ (s : State) (b : Bool) (row : BitVec 13), let r := (if b then 8192 else 0) + row.toNat
    r ∈ s.imem.wb → tget .good s.imem.ecc r = .single →
    ∃ t : State, exec (.imemEccWriteback b row) s = .next t ∧ t = { s with imem := t.imem } ∧ t.imem.rows = s.imem.rows ∧ tget .good t.imem.ecc r = .good ∧ r ∉ t.imem.wb ∧
      ∀ k, k ≠ r → tget .good t.imem.ecc k = tget .good s.imem.ecc k) ∧
  ∀ (s : State) (v : W64), s.pins.stopReady = true → s.pins.bypassClosed = false → s.rb 8 0 = true →
    let quiet := ∀ st, (s.str st).st = .idle ∨ (s.str st).st = .halted
    let idle := 1 - s.runBank
    let unit := tget 0 s.imem.rows (fld v 17 4)
    let due := ∃ n, n < 16 ∧ s.slotDue n = true ∧ s.rf (0x1108 + 0x20 * n) 9 7 = 1
    (due → exec .imemSwitch s = .next (((List.range 16).foldl State.fireSlot s).setRf 0x208 1 1 1)) ∧
    (¬ due → quiet → s.loading idle = false → ∃ t : State, exec .imemSwitch s = .next t ∧ onlyCsr s t ∧ t.runBank = idle ∧
      t.rf 0x410 16 4 = s.rf (bankInfo idle + 8) 12 0 ∧ t.rf 0x510 16 4 = s.rf (bankInfo idle + 8) 28 16) ∧
    (¬ due → ¬ quiet ∨ s.loading idle = true → exec .imemSwitch s = .next (s.setRf 0x208 1 1 1)) ∧
    (∃ t : State, exec (.imemHaddrWrite v) s = .next t ∧ onlyCsr s t ∧ t.rf 0x220 17 4 = fld v 17 4 ∧ t.rd 0x228 = BitVec.ofNat 64 (fld unit 63 0) ∧
      t.rd 0x230 = BitVec.ofNat 64 (fld unit 127 64) ∧ t.rd 0x238 = BitVec.ofNat 64 (fld unit 159 128)) ∧
    (s.bankRunning (s.rf 0x220 17 17) = false → s.lcs ≠ 2 → s.lcs ≠ 4 →
      ∃ t : State, exec (.imemHtagWrite v) s = .next t ∧ sameSpm s t ∧ sameRegs s t ∧
        tget 0 t.imem.rows (s.rf 0x220 17 4) = BitVec.ofNat 160 ((s.rd 0x228).toNat + 2 ^ 64 * (s.rd 0x230).toNat + 2 ^ 128 * fld v 31 0) ∧
        tget .good t.imem.ecc (s.rf 0x220 17 4) = .good ∧ (∀ r, r ≠ s.rf 0x220 17 4 → tget 0 t.imem.rows r = tget 0 s.imem.rows r) ∧
        t.rb (bankInfo (s.rf 0x220 17 17)) 62 = true) ∧
    (s.bankRunning (s.rf 0x220 17 17) = true → ∃ t : State, exec (.imemHtagWrite v) s = .next t ∧ onlyCsr s t ∧ t.rb 0x208 0 = true)

/-- A write of STRM.CTRL with several actions lets only the highest act (R204). -/
def Obligations.OnlyTheHighestActionActs : Prop :=
  ∀ (s : State) (st : Sid) (v : W64), s.pins.stopReady = true → s.pins.bypassClosed = false → s.rb 8 0 = true →
    2 ≤ (([0, 1, 2, 3] : List Nat).filter fun i => bit v i).length →
    let s1 := s.setRf (strmBase st) 8 8 (fld v 8 8)
    ∃ s2 : State,
      (bit v 3 = true → exec (.strmReset st) s1 = .next s2) ∧
      (bit v 3 = false → bit v 2 = true → exec (.strmHalt st) s1 = .next s2) ∧
      (bit v 3 = false → bit v 2 = false → exec (.strmStop st) s1 = .next s2) ∧
      exec (.registerWrite (BitVec.ofNat 16 (strmBase st)) v) s = .next (s2.setRf (strmBase st + 8) 20 20 1)

/-- A checkpoint resumes, copies, completes or is abandoned; a restore starts, ends or fails (13_failure_survival.md, R334 to R336, R340, R342, R347 to R349, R352 in part). The model's own choices that it rests on: log entries 86 (DESIGN CHOICE), 87 (DEDUCED), 88 (DEDUCED), 146 (DEDUCED). -/
def Obligations.CheckpointCommands : Prop :=
  ∀ (s : State),
    let host := s.pins.stopReady = true ∧ s.pins.bypassClosed = false ∧ s.rb 8 0 = true
    let decides := s.cA.st = .deciding ∨ s.cX.st = .deciding
    (s.cstate = 1 → s.cke.sealed = true → s.cke.recap = false → s.cke.late = [] → s.ckeBusy = false → s.stopOver = true → s.chans = [] → s.fab.todo = [] → s.cA.due = none → s.cX.due = none →
      (∀ st w, (s.str st).wait = some w → w.kind ≠ .stores ∧ ∀ n g, w.kind ≠ .barrier n g) → exec .ckptResume s = .next (if s.cke.ct then (s.setRf 0x1808 2 0 2).ctTicket 13 else s.setRf 0x1808 2 0 2)) ∧
    (∀ pos n r, s.cstate = 2 → s.cke.job = none → ¬ decides → s.cke.urgent = [] → s.cke.staged = (pos, n) :: r →
      ∃ t : State, exec .ckptBlockCopy s = .next t ∧ t.cke.staged = r ∧ sameSpm s t ∧ sameRegs s t ∧
        t.cke.job = some ⟨.staged pos n, s.cke.jobs + 1, n / 128, []⟩ ∧
        t.fab.todo = s.fab.todo ++ (upto (n / 128)).map fun i => ⟨0, s.stageBase + pos + 128 * i, ckeCh, s.cke.jobs + 1, i, 0, false, none⟩) ∧
    (∀ p l rec, s.cstate = 2 → s.cke.job = none → ¬ decides → s.cke.urgent = p :: l → (s.region p.1).fab = false → s.chans = [] → s.cA.waiting = [] → s.cX.waiting = [] →
      (s.ckLayout.1.find? fun r => r.kind = 3 && r.region = p.1 && r.off = blockSize * p.2) = some rec →
      ∃ t : State, exec .ckptBlockCopy s = .next t ∧ t.spm.mem = s.spm.mem ∧ sameRegs s t ∧ t.cke.blocks = s.cke.blocks.filter (· ≠ p) ∧
        t.cke.urgent = s.cke.urgent.filter (· ≠ p) ∧
        ∃ q, t.fab.todo = s.fab.todo ++ q ∧ ∀ r ∈ q, r.ch = ckeCh ∧ r.sent.isSome = true ∧ s.halfBase + rec.pos ≤ r.addr) ∧
    (s.cstate = 2 → s.cke.trailer = true → s.ckeBusy = false → exec .ckptDone s = .next ((s.setRf 0x1808 2 0 3).raise evCkptDone)) ∧
    (host → s.cstate = 2 → s.chans = [] → s.cA.waiting = [] → s.cX.waiting = [] → ∃ t : State, exec .abandon s = .next t ∧ t.cstate = 4 ∧ t.rf 0x1808 39 32 = 4 ∧ t.rb 0x100 24 = true ∧
      t.cke.staged = [] ∧ t.cke.blocks = [] ∧ t.cke.job = none ∧ sameSpm s t ∧ sameRegs s t) ∧
    (host → s.cstate ≠ 2 → exec .abandon s = .next s) ∧
    (host → exec (.override true) s = .next (if s.lcs = 3 then s.setRf 0x1800 8 8 1 else (s.setRf 0x1800 8 8 0).setRf 0x7008 0 0 1)) ∧
    (host → exec (.override false) s = .next (s.setRf 0x1800 8 8 0)) ∧
    (∀ (off : W16) (v : W64), host → off.toNat % 8 = 0 → isCkeConfig off.toNat = true →
      exec (.ckeConfigWrite off v) s = .next (if s.cstate = 1 ∨ s.cstate = 2 then s.setRf 0x1808 9 9 1 else s.plainWrite off.toNat v)) ∧
    (host → s.sA.st = .idle → s.sX.st = .idle → s.cstate ≠ 1 → s.cstate ≠ 2 →
      (s.cke.key = none → exec .restore s = .next ((s.setRf 0x1808 39 32 2).setRf 0x1808 6 5 3)) ∧
      (s.cke.key ≠ none → ∃ t : State, exec .restore s = .next t ∧ t.rf 0x1808 6 5 = 1 ∧ sameSpm s t ∧ sameRegs s t ∧
        t.cke.job = some ⟨.trailer, s.cke.jobs + 1, recSize 64 / 128, []⟩ ∧
        ∀ i, i < recSize 64 / 128 → ∃ q ∈ t.fab.todo, q.ch = ckeCh ∧ q.sent = none ∧ q.addr = s.rf 0x1848 47 7 * 128 + 128 * i)) ∧
    (host → s.sA.st ≠ .idle ∨ s.sX.st ≠ .idle ∨ s.cstate = 1 ∨ s.cstate = 2 → exec .restore s = .next (s.setRf 0x1808 9 9 1)) ∧
    (∀ j, s.rf 0x1808 6 5 = 1 → s.cke.job = some j → s.cke.regions = true → s.ckeWriting = false →
      (s.rf 0x1850 2 0 = 0 → exec .restoreDone s = .next (s.ckeDrop.setRf 0x1808 6 5 2)) ∧
      (∀ f e, j.what = .area f → f / 4 % 2 = 1 → s.rb 0x1850 1 = true → (s.readRun 2 0 (some 36) 0 (pickRecords 2 0 j.records)).1 = e → e ≠ 0 → e < 256 →
        ∃ t : State, exec .restoreDone s = .next t ∧ t.rf 0x1808 6 5 = 3 ∧ t.rf 0x1808 39 32 = e ∧ t.spm.mem = []))

/-- A window swaps and is released, a trial moves its threshold, a self-test starts and ends (14_integrity_spares_test.md, R358, R363, R364, R366, R367, R369 in part, Tables 14-7, 14-8 and 14-9). The model's own choices that it rests on: log entry 89 (DEDUCED). -/
def Obligations.CalibrationAndSelfTest : Prop :=
  ∀ (s : State),
    (s.cal.isOpen = true → s.cal.swapped = false → s.calDrained = true → s.cstate ≠ 1 →
      ∃ t : State, exec .calSwap s = .next t ∧ t.cal.swapped = true ∧ t.cal.isOpen = true ∧ sameSpm s t ∧ sameRegs s t ∧
        (∀ k, k < 3 → t.appliedMarks k = s.marks k) ∧ t.rb 0x100 28 = true ∧ t.rb 0x118 5 = true) ∧
    (∀ n cmp, s.cal.isOpen = true → s.cal.sector = n → n < 4 →
      let o := 0x5890 + 8 * n
      (s.cal.tested = false → ∀ sk, ∃ t : State, exec (.calTrialEnd cmp true sk) s = .next t ∧ t.rf o 3 0 = min 15 (s.rf o 3 0 + s.rf 0x5880 15 8) ∧ t.rf o 6 4 = 2 ∧
        t.rf o 47 32 = satInc 16 (s.rf o 47 32)) ∧
      (s.cal.tested = false → ∃ t : State, exec (.calTrialEnd cmp false true) s = .next t ∧ t.rf o 3 0 = s.rf o 3 0 ∧ t.rf o 6 4 = 4) ∧
      (s.rf 0x5880 47 32 ≤ cmp → s.rf o 3 0 ≠ 0 → s.cal.tested = false → s.sectHeld n = false →
        ∃ t : State, exec (.calTrialEnd cmp false false) s = .next t ∧ t.rf o 3 0 = s.rf o 3 0 - 1 ∧ t.rf o 6 4 = 1) ∧
      (cmp < s.rf 0x5880 47 32 ∨ s.rf o 3 0 = 0 → s.cal.tested = false → ∃ t : State, exec (.calTrialEnd cmp false false) s = .next t ∧ t.rf o 3 0 = s.rf o 3 0 ∧ t.rf o 6 4 = 3) ∧
      (s.cal.tested = true → ∀ mis sk, ∃ t : State, exec (.calTrialEnd cmp mis sk) s = .next t ∧ t.rf o 3 0 = s.rf o 3 0 ∧ t.rf o 6 4 = 3 ∧ t.rf o 47 32 = s.rf o 47 32)) ∧
    (s.cal.isOpen = true → s.cal.swapped = true → s.cal.fin.toNat ≤ s.now.toNat → exec .calWindowRelease s = .next { s with cal := Cal.reset }) ∧
    (s.pins.stopReady = true → s.pins.bypassClosed = false → s.rb 8 0 = true → ∀ k : BitVec 6,
      (s.bist = none → s.bistOk k.toNat = true → ∃ t : State, exec (.bistStart k) s = .next t ∧ t.bist = some k.toNat ∧ t.rf 0x5808 0 0 = 1 ∧
        t.rf 0x5800 5 0 = k.toNat ∧ sameSpm s t ∧ sameRegs s t) ∧
      (s.bist = none → s.bistOk k.toNat = true → k ≠ 0x0F → k ≠ 0x01 → s.cal.sector = 4 →
        exec (.bistStart k) s = .next ({ s.setRf 0x5800 5 0 k.toNat with bist := some k.toNat }.setRf 0x5808 0 0 1)) ∧
      (s.bist ≠ none ∨ s.bistOk k.toNat = false → exec (.bistStart k) s = .next (s.setRf 0x5808 4 4 1))) ∧
    (∀ k time, s.bist = some k → 1 ≤ k → k < 0x10 → ∃ t : State, exec (.bistDone [] time) s = .next t ∧ t.bist = none ∧ sameSpm s t ∧ sameRegs s t ∧
      t.rf 0x5808 1 0 = 2 ∧ t.rf 0x5808 3 2 = 2 ∧ t.rf 0x5808 15 8 = k ∧ t.rf 0x5808 23 16 = 0 ∧ t.rf 0x5810 31 0 = time.toNat ∧ t.rb 0x100 29 = true)

/-- Host writes of the registers with an effect of their own (06_scratchpad_queues_tickets.md, R143 to R146 in part, 11_consists.md, R290, R301 in part, 17_register_map.md, R426, R428, R429, R432 in part, 14_integrity_spares_test.md, R361 in part, 09_translation_imem_debug.md, R256 in part). The model's own choices that it rests on: log entries 103 (DESIGN CHOICE), 47 (DEDUCED). -/
def Obligations.HostRegisterWrites : Prop :=
  ∀ (s : State) (v : W64), s.pins.stopReady = true → s.pins.bypassClosed = false → s.rb 8 0 = true →
    let n := s.rf 0x2000 11 0
    (ctxUnusable n = false → ctxFixed n = none → fld v 63 61 ∈ [0, 4, 5, 6] → bit (s.ctx n).w0 60 = false → bit v 60 = true → fld v 59 44 ≤ fld v 43 28 →
      s.minSum + fld v 59 44 ≤ s.rf 0x2048 15 0 →
      ∃ t : State, exec (.qctxW0Write v) s = .next t ∧ (t.ctx n).et = 0 ∧ (t.ctx n).nt = 0 ∧ (t.ctx n).entries = [] ∧ fld (t.ctx n).w0 63 26 = fld v 63 26 ∧
        (∀ k, k ≠ n → t.ctx k = s.ctx k) ∧ t.csr = s.csr ∧ sameSpm s t ∧ sameRegs s t) ∧
    (ctxUnusable n = false → ctxFixed n = none → bit (s.ctx n).w0 60 = true →
      (bit v 60 = false → s.ctxInUse n = false → fld v 63 61 ∈ [0, 4, 5, 6] → fld v 59 44 ≤ fld v 43 28 →
        ∃ t : State, exec (.qctxW0Write v) s = .next t ∧ bit (t.ctx n).w0 60 = false ∧ (t.ctx n).entries = [] ∧ fld (t.ctx n).w0 63 26 = fld v 63 26 ∧
          (∀ k, k ≠ n → t.ctx k = s.ctx k) ∧ t.csr = s.csr ∧ sameSpm s t ∧ sameRegs s t) ∧
      (bit v 60 = true ∨ s.ctxInUse n = true → exec (.qctxW0Write v) s = .next (s.qsyDeny 1))) ∧
    (∀ st, let o := 0x1400 + 8 * sidNat st
      let p := 0x1400 + 8 * sidNat (otherSid st)
      let base := fld v 23 12
      let size := fld v 44 32
      (s.cA.st = .idle → s.cX.st = .idle → base + size ≤ 4096 → size + s.rf p 44 32 ≤ 1024 →
        size = 0 ∨ s.rf p 44 32 = 0 ∨ base + size ≤ s.rf p 23 12 ∨ s.rf p 23 12 + s.rf p 44 32 ≤ base →
        ∃ t : State, exec (.csuShadowWrite st v) s = .next t ∧ onlyCsr s t ∧ t.rf o 23 12 = base ∧ t.rf o 44 32 = size) ∧
      (s.cA.st ≠ .idle ∨ s.cX.st ≠ .idle → exec (.csuShadowWrite st v) s = .next (s.setRf 0x1418 11 11 1))) ∧
    (∀ off : W16, off.toNat % 8 = 0 → 0x1500 ≤ off.toNat → off.toNat < 0x1600 →
      exec (.csuVgWrite off v) s = .next (if s.roundOpen ((off.toNat - 0x1500) / 16) then s.setRf 0x1418 11 11 1 else s.plainWrite off.toNat v)) ∧
    (let i := s.rf 0x150 6 0
     i < 16 → (s.bar i).busy = false →
      (∃ t : State, exec (.barWrite true v) s = .next t ∧ (t.bar i).w0 = (s.bar i).w0 ∧ fld (t.bar i).w1 35 12 = fld v 35 12 ∧ fld (t.bar i).w1 3 0 = fld v 3 0 ∧
        fld (t.bar i).w1 11 4 = 0 ∧ t.csr = s.csr ∧ ∀ k, k ≠ i → t.bar k = s.bar k) ∧
      (1 ≤ fld v 59 53 → fld v 59 53 ≤ 64 → fld v 52 47 + fld v 46 40 ≤ 64 →
        ∃ t : State, exec (.barWrite false v) s = .next t ∧ fld (t.bar i).w0 63 40 = fld v 63 40 ∧ (t.bar i).w1 = (s.bar i).w1 ∧ t.csr = s.csr ∧
          (∀ k, k ≠ i → t.bar k = s.bar k) ∧
          (bit v 63 = true → bit (s.bar i).w0 63 = false → (t.bar i).o = 0 ∧ (t.bar i).ga = 0 ∧ (t.bar i).gx = 0)) ∧
      (fld v 59 53 = 0 → exec (.barWrite false v) s = .next (s.setRf 0x168 0 0 1))) ∧
    (∀ off : W16, off.toNat % 8 = 0 → isRecord off.toNat = true →
      exec (.repRecordWrite off v) s = .next (if s.lcs = 4 then s.setRf 0x7008 0 0 1 else s.plainWrite off.toNat v)) ∧
    (s.lcs ≠ 4 → s.lcs ≠ 2 → exec (.dbgModeWrite v) s = .next (s.setRf 0x8080 1 0 (fld v 1 0))) ∧
    (s.lcs = 2 → fld v 1 0 = 1 ∨ fld v 1 0 = 2 → exec (.dbgModeWrite v) s = .next (s.setRf 0x7008 0 0 1)) ∧
    (s.lcs = 2 → fld v 1 0 = 0 ∨ fld v 1 0 = 3 → exec (.dbgModeWrite v) s = .next (s.setRf 0x8080 1 0 (fld v 1 0))) ∧
    (s.lcs = 4 → fld v 1 0 ≠ 0 → exec (.dbgModeWrite v) s = .next (s.setRf 0x7008 0 0 1)) ∧
    (∃ t : State, exec (.evTestWrite v) s = .next t ∧ onlyCsrRing s t ∧ t.rd 0x118 = s.rd 0x118 ∧ ∀ i, i < 32 → t.rb 0x100 i = (s.rb 0x100 i || bit v i)) ∧
    (∃ t : State, exec .perfClear s = .next t ∧ onlyCsr s t ∧ t.rd 0x9008 = 0 ∧ ∀ k, k < 16 → t.rd (0x9100 + 8 * k) = 0) ∧
    (∀ k : BitVec 4, ∃ t : State, exec (.spmEcccntWrite k v) s = .next t ∧ onlyCsr s t ∧
      t.rf (0x180 + 8 * k.toNat) 15 0 = (if fld v 15 0 = 0 then 0 else s.rf (0x180 + 8 * k.toNat) 15 0) ∧
      t.rf (0x180 + 8 * k.toNat) 47 32 = (if fld v 47 32 = 0 then 0 else s.rf (0x180 + 8 * k.toNat) 47 32)) ∧
    (∀ k : BitVec 4, s.rb 0x9000 1 = false → ∃ t : State, exec (.perfCounterWrap k) s = .next t ∧ onlyCsrRing s t ∧ t.rf (0x9100 + 8 * k.toNat) 47 0 = 0 ∧
      t.rf (0x9100 + 8 * k.toNat) 63 48 = satInc 16 (s.rf (0x9100 + 8 * k.toNat) 63 48) ∧ t.rb 0x9008 k.toNat = true ∧ t.rb 0x100 31 = true)

/-- The stop answers requests, forwards other packets, sends events and traces; the closed bypass cell answers ABSENT (15_ports_fabric.md, R385 to R391 in part, Tables 15-6 and 15-7). -/
def Obligations.RingPacketsAndBypass : Prop :=
  ∀ (s : State) (hdr data : W64),
    let in' := s.pins.stopReady = true ∧ s.pins.bypassClosed = false
    let mine := fld hdr 59 54 = s.rf 0x18 5 0
    let off := fld hdr 31 16 / 8 * 8
    let answer := fun (p : List W64) (status len : Nat) => ∃ h, p = h :: p.drop 1 ∧ p.length = 1 + len ∧ packetOk h (p.drop 1) = true ∧ fld h 63 60 = 3 ∧
      fld h 59 54 = fld hdr 53 48 ∧ fld h 53 48 = s.rf 0x18 5 0 ∧ fld h 47 40 = fld hdr 47 40 ∧ fld h 39 36 = len ∧ fld h 35 32 = status ∧
      fld h 31 16 = fld hdr 31 16
    let out := fun (p : List W64) => { s with ring := { s.ring with out := s.ring.out ++ [p] } }
    (in' → mine → fld hdr 63 60 = 1 → packetOk hdr [] = true → s.rb 8 0 = true →
      ∃ p, exec (.csrRd hdr) s = .next (out p) ∧ answer p 0 1 ∧ p[1]? = some (s.hostRead off)) ∧
    (in' → mine → fld hdr 63 60 = 1 → packetOk hdr [] = false → exec (.csrRd hdr) s = .next (s.setRf 0x3C8 31 16 (satInc 16 (s.rf 0x3C8 31 16)))) ∧
    (in' → mine → fld hdr 63 60 = 2 → packetOk hdr [data] = true → s.rb 8 0 = true →
      ∃ s1 t : State, exec (.registerWrite (BitVec.ofNat 16 (fld hdr 31 16)) data) s = .next s1 ∧ exec (.csrWr hdr data) s = .next t ∧
        (s1.pins.stopReady = false ∨ s1.pins.bypassClosed = true → t = s1) ∧
        (s1.pins.stopReady = true → s1.pins.bypassClosed = false → s1.rf 0x18 5 0 = s.rf 0x18 5 0 →
          ∃ p, t = { s1 with ring := { s1.ring with out := s1.ring.out ++ [p] } } ∧ answer p 0 0)) ∧
    (∀ ws, in' → (fld hdr 63 60 ≠ 1 ∧ fld hdr 63 60 ≠ 2 ∨ ¬ mine) → fld hdr 63 60 ≠ 4 →
      let counted := if packetOk hdr ws then s else s.setRf 0x3C8 31 16 (satInc 16 (s.rf 0x3C8 31 16))
      exec (.ringForward (hdr :: ws)) s = .next (if packetOk hdr ws = false ∧ mine then counted
        else { counted with ring := { s.ring with out := s.ring.out ++ [hdr :: ws] } })) ∧
    (∀ src r, in' → s.ring.ev = src :: r → src < 32 → ∃ h,
      exec .event s = .next { s with ring := { s.ring with ev := r, out := s.ring.out ++ [[h]] } } ∧ packetOk h [] = true ∧ fld h 63 60 = 6 ∧
        fld h 59 54 = s.rf 0x3C0 29 24 ∧ fld h 53 48 = s.rf 0x18 5 0 ∧ fld h 31 16 = src) ∧
    (∀ h ws r, in' → s.ring.tr = (h :: ws) :: r → s.ring.ev = [] → ∃ h',
      exec .trace s = .next { s with ring := { s.ring with tr := r, out := s.ring.out ++ [h' :: ws] } } ∧ packetOk h' ws = true ∧
        fld h' 59 54 = s.rf 0x3C0 23 18 ∧ fld h' 53 48 = s.rf 0x18 5 0 ∧ fld h' 63 60 = fld h 63 60 ∧ fld h' 47 16 = fld h 47 16) ∧
    (s.pins.stopReady = false → exec .bypassClose s = .next { s with pins := { s.pins with bypassClosed := true } }) ∧
    (s.pins.stopReady = true → exec .bypassOpen s = .next { s with pins := { s.pins with bypassClosed := false } }) ∧
    (s.pins.bypassClosed = true → mine → fld hdr 63 60 = 1 ∨ fld hdr 63 60 = 2 → ∃ p,
      exec (.bypassCsrRequest hdr data) s = .next (out p) ∧ answer p 1 0) ∧
    (∀ age ws, s.pins.bypassClosed = true → (fld hdr 63 60 ≠ 1 ∧ fld hdr 63 60 ≠ 2 ∨ ¬ mine) →
      (fld hdr 63 60 ≠ 4 → exec (.bypassForward age (hdr :: ws)) s = .next (out (hdr :: ws))) ∧
      (fld hdr 63 60 = 4 → ∃ h, exec (.bypassForward age (hdr :: ws)) s = .next (out (h :: ws)) ∧ packetOk h ws = true ∧
        fld h 63 36 = fld hdr 63 36 ∧ fld h 35 16 = min 0xFFFFF (fld hdr 35 16 + age.toNat)))

/-- Cold and warm reset lose the state but for what each keeps; the wipe ends them (16_reset_power_lifecycle.md, R399 to R404 in part, Table 16-2, 14_integrity_spares_test.md, R359 in part). The model's own choices that it rests on: log entries 98 (DEDUCED), 100 (DEDUCED). -/
def Obligations.ResetsAndWipe : Prop :=
  ∀ (s : State),
    let lost := fun (t : State) => t.spm.mem = [] ∧ t.spm.ecc = [] ∧ t.imem = ⟨[], [], []⟩ ∧ t.sA = Stream.reset ∧ t.sX = Stream.reset ∧ t.qsy = [] ∧ t.vec = Vec.reset ∧
      t.mer = Mer.reset ∧ t.cA = Csu.reset ∧ t.cX = Csu.reset ∧ t.keys = [] ∧ t.rb 8 0 = false ∧ t.pins.fpUp = false ∧ t.pending = s.pending
    (∃ t : State, exec .coldResetAssert s = .next t ∧ lost t ∧ t.cke.key = none ∧ t.rf 8 9 8 = 0 ∧ t.rep = ⟨[], []⟩ ∧ t.pins.coldLow = true ∧ t.pins.aclkLocked = false ∧
      t.pins.stopReady = false) ∧
    (∀ p, s.pins.coldLow = true → ∃ t : State, exec (.coldResetRelease p) s = .next t ∧ t.pins.coldLow = false ∧ t.rf 0x18 31 24 = p.feed.toNat ∧
      t.rf 0x18 23 8 = p.pkg.toNat ∧ t.rf 0x18 7 6 = p.die.toNat ∧ t.rf 0x18 5 0 = p.core.toNat ∧ sameSpm s t) ∧
    (s.pins.aclkLocked = false → s.pins.coldLow = false → s.pins.warmLow = false →
      ∃ t : State, exec .aclkLock s = .next t ∧ t.pins.aclkLocked = true ∧ t.pins.stopReady = !s.tp.testMode ∧ t.rb 8 1 = true ∧ t.rb 8 0 = false ∧
        (∀ k, k < 9 → t.appliedMarks k = s.marks k) ∧ (1 ∉ s.pins.dead → t.pins.multUsed = s.rf 0x6000 23 20)) ∧
    (s.pins.coldLow = false → ∃ t : State, exec .warmResetAssert s = .next t ∧ lost t ∧ t.cke.key = s.cke.key ∧ t.rf 8 9 8 = 1 ∧ t.rf 8 15 13 = s.lcs ∧
      t.rf 0x18 31 0 = s.rf 0x18 31 0 ∧ t.rd 0x5050 = s.rd 0x5050 ∧ t.pins.warmLow = true ∧ t.pins.stopReady = false ∧
      t.rep.applied = s.rep.applied) ∧
    (s.pins.coldLow = false → s.pins.warmLow = true → s.pins.aclkLocked = true →
      (s.pins.multUsed = s.rf 0x6000 23 20 → ∃ t : State, exec .warmResetRelease s = .next t ∧ t.pins.warmLow = false ∧ t.rb 8 1 = true ∧
        t.pins.stopReady = (!s.tp.testMode) ∧ ∀ k, k < 9 → t.appliedMarks k = s.marks k) ∧
      (s.pins.multUsed ≠ s.rf 0x6000 23 20 → 1 ∉ s.pins.dead →
        exec .warmResetRelease s = .next { s with pins := { s.pins with warmLow := false, aclkLocked := false } })) ∧
    (s.pins.stopReady = true → s.pins.bypassClosed = false →
      (∀ k : Byte, k ≠ 0xA5 → exec (.idResetKey k) s = .next s) ∧
      ∃ t : State, exec (.idResetKey 0xA5) s = .next t ∧ lost t ∧ t.cke.key = s.cke.key ∧ t.rf 8 9 8 = 1 ∧ t.pins.warmLow = false ∧ t.pins.bypassClosed = true) ∧
    (s.rb 8 1 = true → ∃ t : State, exec (.wipeComplete []) s = .next t ∧ t.rb 8 1 = false ∧ t.rb 8 0 = true ∧ sameSpm s t ∧ sameRegs s t ∧
      t.pins.fpUp = if s.rf 0x388 1 0 = 0 ∧ s.tp.testMode = false then true else s.pins.fpUp)

/-- The lifecycle moves on request; keys and tokens arrive at the key port (16_reset_power_lifecycle.md, R414 to R417, R421 in part, Tables 16-5 and 16-8, 15_ports_fabric.md, R393 in part). The model's own choices that it rests on: log entries 101 (DEDUCED), 99 (DEDUCED). -/
def Obligations.LifecycleAndKeys : Prop :=
  ∀ (s : State) (cf : Byte),
    let host := s.pins.stopReady = true ∧ s.pins.bypassClosed = false ∧ s.rb 8 0 = true
    let err := s.setRf 0x7008 1 1 1
    let entered := fun (t : State) (n : Nat) => t.lcs = n ∧ t.rb 8 1 = true ∧ t.rb 8 0 = false ∧ t.spm.mem = [] ∧ t.cke.key = none ∧ t.sA = Stream.reset ∧
      t.sX = Stream.reset ∧ (s.bist ≠ some 0x01 → t.mer = s.mer) ∧ t.pins.stopReady = s.pins.stopReady
    (s.pins.stopReady = true → s.pins.bypassClosed = false → s.pins.unlockAc = true → s.lcs = 3 → exec (.lcRetire 0xC3) s = .next (s.setRf 8 15 13 4)) ∧
    (host → s.rb 8 1 = false → s.pins.unlockAc = false →
      (if s.lcs = 0 then ∃ t : State, exec .lcProvision s = .next t ∧ entered t 1 else exec .lcProvision s = .next err) ∧
      (if s.lcs = 1 then ∃ t : State, exec .lcSecure s = .next t ∧ entered t 2 else exec .lcSecure s = .next err) ∧
      (if s.lcs < 4 ∧ cf = 0xC3 then ∃ t : State, exec (.lcRetire cf) s = .next t ∧ entered t 4 else exec (.lcRetire cf) s = .next err) ∧
      exec .lcUnlock s = .next (if s.lcs = 2 ∧ s.rf 0x7008 15 8 < 3 then s.setRf 0x7008 2 2 1 else err)) ∧
    (s.rb 0x7008 2 = true → ∃ t : State, exec .unlockTimeout s = .next t ∧ onlyCsr s t ∧ t.rb 0x7008 2 = false ∧ t.rb 0x7008 3 = true ∧
      t.rf 0x7008 15 8 = satInc 8 (s.rf 0x7008 15 8)) ∧
    (s.inReset = false → s.tp.testMode = false → s.lcs ≠ 4 → ∀ ws : List W64,
      (ws.length = 4 → ∃ t : State, exec (.keyDelivery 0 ws) s = .next t ∧
        t.cke.key = some (BitVec.ofNat 256 (((ws.getD 0 0).toNat) + 2 ^ 64 * (ws.getD 1 0).toNat + 2 ^ 128 * (ws.getD 2 0).toNat + 2 ^ 192 * (ws.getD 3 0).toNat)) ∧
        t.cke.keyed = true ∧ t.rf 0x1830 31 0 = 0 ∧ t.pins.kpAck = true ∧ t.pins.kpErr = false ∧ sameSpm s t ∧ sameRegs s t) ∧
      (ws.length ≠ 4 → ∀ k, exec (.keyDelivery k ws) s =
        .next ({ s with pins := { s.pins with kpAck := false, kpErr := true } }.setRf 0x7008 4 4 1)) ∧
      (ws.length = 4 → s.rb 0x7008 2 = true → s.tokenOk ws = true → ∃ t : State, exec (.keyDelivery 1 ws) s = .next t ∧ entered t 3 ∧ t.pins.kpAck = true ∧ t.pins.unlockAc = true) ∧
      (ws.length = 4 → s.rb 0x7008 2 = true → s.tokenOk ws = false → ∃ t : State, exec (.keyDelivery 1 ws) s = .next t ∧ t.lcs = s.lcs ∧ t.rb 0x7008 2 = false ∧
        t.rb 0x7008 3 = true ∧ t.rf 0x7008 15 8 = satInc 8 (s.rf 0x7008 15 8) ∧ t.pins.kpAck = true))

/-- The power requests move by steps; droop, canaries and sector skew are recorded (16_reset_power_lifecycle.md, R406 to R408, R410 to R413 in part). The model's own choices that it rests on: log entries 102 (DEDUCED), 11 (DESIGN CHOICE), 137 (DESIGN CHOICE). -/
def Obligations.PowerDroopAndLockstep : Prop :=
  ∀ (s : State) (k : BitVec 4) (sec : BitVec 2) (strip : BitVec 3),
    let on := s.rb 8 0 = true ∧ s.tp.testMode = false
    let root := s.pins.aclkLocked = true ∧ s.pins.coldLow = false ∧ s.pins.warmLow = false ∧ s.tp.testMode = false
    let r := s.rf 0x6008 11 8
    let v := s.rf 0x6008 23 18
    let goalLevel := fun n => min (s.rf 0x6000 11 8) n
    let cth := fun n => s.rf (0x5890 + 8 * n) 3 0
    let goal := min 0x3C (s.rf 0x6000 19 14 + 2 * max (max (cth 0) (cth 1)) (max (cth 2) (cth 3)))
    let o := 0x6040 + 8 * sec.toNat
    exec (.pwrGntChange k) s = .next (if s.tp.testMode then s else s.setRf 0x6008 15 12 k.toNat) ∧
    exec (.pwrReqStep k) s = .next (if on ∧ ((k.toNat = r + 1 ∧ r < s.pwrHigh) ∨ (k.toNat + 1 = r ∧ s.pwrLow < r)) then s.setRf 0x6008 11 8 k.toNat else s) ∧
    s.pwrLow ≤ s.pwrHigh ∧ s.pwrHigh ≤ s.rf 0x6000 11 8 ∧
    (s.spins = true → min (s.rf 0x6000 11 8) r ≤ s.pwrLow) ∧
    (s.spins = false → s.arr.running = [] → s.arr.waiting = [] → s.pwrLow = goalLevel (if s.vec.ve = [] then 3 else 6) ∧ s.pwrHigh = s.pwrLow) ∧
    (∀ n, s.spins = false → s.passLevels ≠ [] → (∀ l ∈ s.passLevels, l = n) → s.vec.ve = [] ∨ n = 12 → s.pwrLow = goalLevel n ∧ s.pwrHigh = s.pwrLow) ∧
    (s.passLevels ≠ [] → s.vec.ve ≠ [] → s.workLevel ≠ 12 → s.pwrHigh = s.rf 0x6000 11 8) ∧
    (∀ p, s.arr.running = [p] → s.arr.waiting = [] → s.passLevels = [pairLevel p.west p.north]) ∧
    (¬ on → exec .vddcReqStep s = .next s) ∧
    (on → s.bist ≠ some 0x0E → exec .vddcReqStep s = .next (if v < goal then s.setRf 0x6008 23 18 (v + 1) else if goal < v then s.setRf 0x6008 23 18 (v - 1) else s)) ∧
    (root → sec.toNat ∉ s.pins.tripping → ∃ t : State, exec (.droopTrip sec) s = .next t ∧ t.rf o 15 0 = satInc 16 (s.rf o 15 0) ∧ t.rb 0x6008 2 = true ∧
      t.pins.tripping = s.pins.tripping ++ [sec.toNat] ∧ sameSpm s t ∧ sameRegs s t) ∧
    (root → sec.toNat ∈ s.pins.tripping → ∃ t : State, exec (.droopTripEnd sec) s = .next t ∧ t.pins.tripping = s.pins.tripping.filter (· ≠ sec.toNat) ∧
      t.pins.droopAc = 8 ∧ sameSpm s t ∧ sameRegs s t ∧ t.csr = s.csr) ∧
    (s.rb 0x6008 2 = true → s.stretchTick.rb 0x6008 2 = (s.tp.testMode || !s.pins.tripping.isEmpty || decide (1 < s.pins.droopAc)) ∧
      s.stretchTick.pins.droopAc = s.pins.droopAc - 1 ∧ s.stretchTick.pins.tripping = s.pins.tripping) ∧
    (¬ root ∨ sec.toNat ∈ s.pins.tripping → exec (.droopTrip sec) s = .next s) ∧
    (¬ root ∨ sec.toNat ∉ s.pins.tripping → exec (.droopTripEnd sec) s = .next s) ∧
    (root → strip.toNat ≤ 4 → ∃ t : State, exec (.canaryStretch strip) s = .next t ∧ t = { s with pins := t.pins } ∧
      ∀ j, j < 4 → t.strOf j = (s.strOf j + if (j = strip.toNat ∨ s.rb 0x6008 0 = true) ∧ (j, 0) ∉ s.pins.stretched then 1 else 0) ∧
        fld (t.hostRead (0x6040 + 8 * j)) 31 24 = min 255 (t.strOf j)) ∧
    (¬ root ∨ 4 < strip.toNat → exec (.canaryStretch strip) s = .next s) ∧
    (∀ q : List SectReading, q.length = 4 → s.rb 8 0 = true → s.rb 0x6008 0 = false → s.pins.dead = [] → s.bist = none → (s.putReadings q).pastLimits = true →
      ∃ t : State, exec (.lockstepEnter q) s = .next t ∧ onlyCsrRing s t ∧ t.rb 0x6008 0 = true ∧ t.rb 0x6008 1 = true ∧ t.rb 0x100 26 = true ∧
        t.rf 0x6008 47 32 = satInc 16 (s.rf 0x6008 47 32) ∧
        ∀ n x, q[n]? = some x → t.rf (0x6040 + 8 * n) 63 52 = x.temp.toNat ∧ t.rf (0x6040 + 8 * n) 47 36 = x.vmeas.toNat) ∧
    exec .lockstepExit s = .next (if s.pastLimits then s else s.setRf 0x6008 0 0 0)

/-- The wrapper instruction register takes each code; test modes take the ports; shifts pass through (15_ports_fabric.md, R395 to R397 in part, Table 15-8, 17_register_map.md, Table 17-9). The model's own choices that it rests on: log entries 97 (DEDUCED), 142 (DEDUCED). -/
def Obligations.WrapperSerialPort : Prop :=
  ∀ (s : State) (bits : List Bool),
    let idle : State := { s with tp := { s.tp with out := none } }
    let load := fun (n : Nat) => idle.setRf 0xF000 5 0 n
    let high := s.pins.coldLow = false ∧ s.pins.warmLow = false
    let test := fun (n : Nat) (out : Option (BitVec wbrCells)) => { (load n).setRf 0x388 0 0 0 with
      pins := { s.pins with stopReady := false, fpUp := false }, tp := { s.tp with testMode := true, out := out } }
    let denied := fun (t : State) => onlyCsr idle t ∧ t.rf 0xF000 5 0 = 0 ∧ t.rb 0x7008 0 = true ∧ t.rf 0xF000 31 16 = satInc 16 (s.rf 0xF000 31 16)
    exec .tpReset s = .next (load 0) ∧ exec .wsBypass s = .next (load 0) ∧ exec .wsPreload s = .next (load 2) ∧ exec .mxId s = .next (load 0x10) ∧
    exec .wsExtest s = .next (test 1 (some s.tp.wbr)) ∧ exec .wsClamp s = .next (test 3 (some s.tp.wbr)) ∧
    exec .wsSafe s = .next (test 4 (some safeCells)) ∧
    (s.lcs ≠ 2 → s.lcs ≠ 4 → exec .wsIntestScan s = .next (test 5 none) ∧ exec .mxIjtag s = .next (load 0x11)) ∧
    (s.lcs = 2 ∨ s.lcs = 4 → (∃ t : State, exec .wsIntestScan s = .next t ∧ denied t) ∧ ∃ t : State, exec .mxIjtag s = .next t ∧ denied t) ∧
    (high → bits.length = 6 → bitVal bits = 0 ∨ bitVal bits = 2 ∨ bitVal bits = 0x10 →
      exec (.wrapperSerialShift true bits) s = .next { load (bitVal bits) with
        tp := { s.tp with shift := (List.range 6).map fun i => (s.rf 0xF000 5 0).testBit i, out := none } }) ∧
    (high → s.rf 0xF000 5 0 = 0 → bits ≠ [] → exec (.wrapperSerialShift false bits) s =
      .next { s with tp := { s.tp with wby := bits.getLastD false, shift := (s.tp.wby :: bits).dropLast } }) ∧
    (high → s.rf 0xF000 5 0 = 0x10 → bits.length = 32 → exec (.wrapperSerialShift false bits) s =
      .next { s with tp := { s.tp with shift := (List.range 32).map fun i => bit (s.rd 0) (32 + i) } }) ∧
    (high → s.rf 0xF000 5 0 = 2 → bits.length = wbrCells → exec (.wrapperSerialShift false bits) s =
      .next { s with freeCount := s.freeCount + 1, tp := { s.tp with wbr := BitVec.ofNat wbrCells (bitVal bits), shift := bitList s.captureWbr.tp.wbr.toNat wbrCells, out := none } }) ∧
    (let cells := fun (i w : Nat) => s.captureWbr.tp.wbr.toNat / 2 ^ i % 2 ^ w
     cells (cellPower + 4) 4 = s.rf 0x6008 15 12 ∧ cells cellStraps 32 = s.rf 0x18 23 8 + 2 ^ 16 * s.rf 0x18 7 6 + 2 ^ 18 * s.rf 0x18 5 0 + 2 ^ 24 * s.rf 0x18 31 24 ∧
     (high → s.tp.out = none → cells 0 1 = b2n s.pins.fpUp ∧ cells (cellPower - 1) 1 = b2n s.pins.stopReady ∧ cells cellPower 4 = s.rf 0x6008 11 8 ∧
       cells (cellPower + 8) 1 = s.rf 0x6008 2 2 ∧ cells (cellPower + 9) 6 = s.rf 0x6008 23 18 ∧ cells (cellKeys + 68) 2 = b2n s.pins.kpAck + 2 * b2n s.pins.kpErr) ∧
     (∀ v, high → s.tp.out = some v → cells 0 1 = v.toNat % 2 ∧ cells cellPower 4 = v.toNat / 2 ^ cellPower % 16) ∧
     (¬ high → cells 0 1 = 0 ∧ cells (cellPower - 1) 1 = 0 ∧ cells cellPower 4 = 0 ∧ cells (cellPower + 8) 1 = 0 ∧ cells (cellPower + 9) 6 = 0x3F ∧ cells (cellKeys + 68) 6 = 0)) ∧
    (¬ high → ∀ wir, ∃ t : State, exec (.wrapperSerialShift wir bits) s = .next t ∧ t.tp.shift = bits.map fun _ => false)

/-- A write and a read of a register follow the access codes of its fields (00_scope.md, R12 to R15 in part, 17_register_map.md, R422, R423). -/
def Obligations.RegisterAccessCodes : Prop :=
  (∀ (s : State) (off : W16) (v : W64), s.pins.stopReady = true → s.pins.bypassClosed = false → s.rb 8 0 = true →
    let o := off.toNat / 8 * 8
    let fs := regFields o
    ownWrite o = false → (isVgReg o = true → ∀ g, s.roundOpen g = false) → (isCkeConfig o = true → s.cstate ≠ 1 ∧ s.cstate ≠ 2) →
    (isRecord o = true → s.lcs ≠ 4) →
    ∃ t : State, exec (.registerWrite off v) s = .next t ∧ onlyCsr s t ∧ (∀ k, k ≠ o → k ≠ 0x7008 → t.rd k = s.rd k) ∧
      (o ≠ 0x7008 → t.rd 0x7008 = if 2 ≤ s.lcs ∧ fs.any (fun f => f.acc = .rwl) = true then putFld (s.rd 0x7008) 0 0 1 else s.rd 0x7008) ∧
      (∀ f ∈ fs, ∀ i, f.lo ≤ i → i ≤ f.hi → bit (t.rd o) i = f.after (decide (2 ≤ s.lcs)) (s.rd o) v i) ∧
      (∀ i, (∀ f ∈ fs, ¬ (f.lo ≤ i ∧ i ≤ f.hi)) → bit (t.rd o) i = bit (s.rd o) i)) ∧
  ∀ (s : State) (off : Nat), off % 8 = 0 → ownRead off = false →
    (∀ f ∈ regFields off, ∀ i, f.lo ≤ i → i ≤ f.hi → bit (s.hostRead off) i = (decide (f.acc ≠ .wo) && bit (s.rd off) i)) ∧
    (∀ i, (∀ f ∈ regFields off, ¬ (f.lo ≤ i ∧ i ≤ f.hi)) → bit (s.hostRead off) i = false)

/-- What a vector command computes in a lane, and a reduction over its elements (05_vector_engine.md, R111, R112, R114, R117, R130 in part, Tables 5-6 and 5-7). The model's own choices that it rests on: log entries 5 (DESIGN CHOICE), 33 (DEDUCED), 41 (DEDUCED), 108 (DEDUCED). -/
def Obligations.VectorLaneResults : Prop :=
  (∀ (c : Slot) (scale tA tB : W32) (sel : Bool) (r : Rnd) (a b d : Nat),
    let t := vOt c
    let w := fmtBits t
    let out := (laneOp c scale tA tB sel r a b d).code
    let low := (2 : Int) ^ (w - 1)
    let x := sgn w a
    let y := sgn w b
    let wrap := fun (v : Int) => some (v % 2 ^ w).toNat
    let fit := fun (v : Int) => wrap (max (-low) (min (low - 1) v))
    let u := decodeElem t a
    let v := decodeElem t b
    (isIntLane t = true → a < 2 ^ w → b < 2 ^ w →
      (c.opc = 0x40 → out = if vSat c then fit (x + y) else some ((a + b) % 2 ^ w)) ∧
      (c.opc = 0x41 → out = if vSat c then fit (x - y) else some ((a + 2 ^ w - b) % 2 ^ w)) ∧
      (c.opc = 0x42 → out = if vSat c then fit (x * y) else some (a * b % 2 ^ w)) ∧
      (c.opc = 0x43 → out = some (if x ≤ y then a else b)) ∧ (c.opc = 0x44 → out = some (if x ≤ y then b else a)) ∧
      (c.opc = 0x45 → out = if a = 2 ^ (w - 1) then none else some (if a < 2 ^ (w - 1) then a else 2 ^ w - a)) ∧
      (c.opc = 0x46 → out = if a = 2 ^ (w - 1) then none else some ((2 ^ w - a) % 2 ^ w)) ∧
      (c.opc = 0x47 → out = some (a &&& b)) ∧ (c.opc = 0x48 → out = some (a ||| b)) ∧ (c.opc = 0x49 → out = some (a ^^^ b)) ∧
      (c.opc = 0x4A → out = some (2 ^ w - 1 - a)) ∧
      (c.opc = 0x4B → out = some (a * 2 ^ (b % 256) % 2 ^ w)) ∧ (c.opc = 0x4C → out = some (a / 2 ^ (b % 256))) ∧
      (c.opc = 0x4D → out = wrap (x / 2 ^ (b % 256))) ∧
      (∀ fn, vCmp t fn a b = match fn with
        | 0 => decide (a = b) | 1 => decide (a ≠ b) | 2 => decide (x < y) | 3 => decide (x ≤ y) | 4 => decide (y < x) | 5 => decide (y ≤ x)
        | 6 => false | _ => true)) ∧
    (isFloatLane t = true → u.isFin = true → v.isFin = true →
      (c.opc = 0x40 → u.val + v.val ≠ 0 → out = some (roundTo t (Num.ofRat (u.val + v.val)))) ∧
      (a < 2 ^ w → c.opc = 0x45 → ∃ k, out = some k ∧ (decodeElem t k).isFin = true ∧ (decodeElem t k).val = |u.val|) ∧
      (a < 2 ^ w → c.opc = 0x46 → ∃ k, out = some k ∧ (decodeElem t k).isFin = true ∧ (decodeElem t k).val = -u.val) ∧
      (c.opc = 0x41 → u.val - v.val ≠ 0 → out = some (roundTo t (Num.ofRat (u.val - v.val)))) ∧
      (c.opc = 0x42 → u.val * v.val ≠ 0 → out = some (roundTo t (Num.ofRat (u.val * v.val)))) ∧
      (c.opc = 0x52 → (decodeElem t d).isFin = true → u.val * v.val + (decodeElem t d).val ≠ 0 →
        out = some (roundTo t (Num.ofRat (u.val * v.val + (decodeElem t d).val)))) ∧
      (∀ fn, fn < 6 → vCmp t fn a b = match fn with
        | 0 => decide (u.val = v.val) | 1 => decide (u.val ≠ v.val) | 2 => decide (u.val < v.val) | 3 => decide (u.val ≤ v.val)
        | 4 => decide (v.val < u.val) | _ => decide (v.val ≤ u.val))) ∧
    (isFloatLane t = true → vCmp t 6 a b = (u.isNan || v.isNan) ∧ vCmp t 7 a b = !(u.isNan || v.isNan)) ∧
    (c.opc = 0x4F → out = some (if sel then a else b)) ∧
    (c.opc = 0x50 → isFloatLane (vFn c) = true → out = some (drainTo (vFn c) (if vFn c = 0 then .rne else r) (vSat c) (u.divPos (fp32 scale).val)).1) ∧
    (c.opc = 0x59 → out = some (((wordLedger (BitVec.ofNat 128 a)).merge (wordLedger (BitVec.ofNat 128 b))).1.word.toNat)) ∧
    (c.opc = 0x5A → out = some (drainTo (vFn c) r (vSat c) ((wordLedger (BitVec.ofNat 128 a)).value ((fp32 tA).val * (fp32 tB).val))).1) ∧
    (c.opc = 0x5B → out = some ((ledgerOf [(decodeElem 0 a, 24)]).word.toNat))) ∧
  ∀ (c : Slot) (l : List Nat),
    let g := l.zipIdx.foldl (fun g p => redElem c g p.2 p.1) RedAcc.zero
    let num := fun (code : Nat) => decodeElem (vOt c) code
    (l ≠ [] → (∀ k ∈ l, (num k).isNan = false) →
      (c.opc = 0x61 → ∃ k ∈ l, g.best = some (num k) ∧ ∀ j ∈ l, (num k).lt true (num j) = false) ∧
      (c.opc = 0x62 → ∃ k ∈ l, g.best = some (num k) ∧ ∀ j ∈ l, (num j).lt true (num k) = false) ∧
      (c.opc = 0x63 → ∃ i k, l[i]? = some k ∧ redResult c g = i ∧ (∀ j ∈ l, (num k).lt true (num j) = false) ∧
        ∀ j q, j < i → l[j]? = some q → (num q).lt true (num k) = true)) ∧
    (c.opc = 0x64 → redResult c g = (l.filter fun k => redNonzero c k).length) ∧
    (c.opc = 0x60 → vOt c ≠ 8 → vFn c < 2 →
      redResult c g = if vFn c = 0 then (ledgerOf (l.map fun k => (num k, sigWidth (vOt c)))).word.toNat
        else roundTo 0 ((ledgerOf (l.map fun k => (num k, sigWidth (vOt c)))).value 1)) ∧
    (c.opc = 0x60 → vOt c ≠ 8 → vFn c < 2 → (l.filter fun k => !(num k).isFin).length ≤ g.nf)

/-- What a beat of a vector command reads and writes (05_vector_engine.md, R107, R114, R116, R120 to R122, R125, R129 in part, 04_scale_trackers.md, R85, R86, R94 in part). The model's own choices that it rests on: log entry 35 (DEDUCED). -/
def Obligations.VectorBeatResults : Prop :=
  ∀ (s : State) (w : VeWork) (rest : List VeWork) (m : VeMem) (base : Nat), OneBeat s w rest →
    let n := w.vlen
    let act := fun (m : VeMem) (e : Nat) => s.maskBit (vMsk m.c) e
    let on := fun (m : VeMem) => (List.range n).filter (act m)
    let zero := if vZero m.c then some 0 else none
    let z := fmtBytes (dstTy m.c)
    let t0 := formCode s m
    let gives := fun (code : Nat → Option Nat) => ∃ t : State, exec (.veBeat []) s = .next t ∧ t.vec.ve = rest ∧ stored s t base z n code
    (w.mems = [m] → elementwise m.c = true → (∀ i, i < laneSrcs m.c → isForm (vSrc m.c i) = true) → Dense m n base →
      gives fun e => if act m e then some (laneCode s w m e (if 0 < laneSrcs m.c then t0 0 e else 0) (if 1 < laneSrcs m.c then t0 1 e else 0)
        (if 2 < laneSrcs m.c then t0 2 e else 0)) else zero) ∧
    (w.mems = [m] → elementwise m.c = true → (∀ i, i < laneSrcs m.c → isForm (vSrc m.c i) = true) → Dense m n base → isProd m.c = false → dstTy m.c ≠ 8 → m.c.opc ≠ 0x5A →
      let got := fun (e : Nat) => laneNum (dstTy m.c) (laneCode s w m e (if 0 < laneSrcs m.c then t0 0 e else 0) (if 1 < laneSrcs m.c then t0 1 e else 0)
        (if 2 < laneSrcs m.c then t0 2 e else 0))
      let amax := (on m).foldl (fun a e => maxBits a (finBits (got e))) 0
      ∃ t : State, exec (.veBeat []) s = .next t ∧ t.trk =
        if vTrk m.c = 0x7F then s.trk else (s.merge m.trk none amax { nonfin := ((on m).filter fun e => !(got e).isFin).length } (on m).length).trk) ∧
    (let d := bsdAt m.regs m.c (wSrc m.c 0)
     w.mems = [m] → m.c.opc = 0x58 → vSrc m.c 0 = 0x1C → d.sq = false → isBlockFmt d.fmt = true → n ≤ d.rows * d.cols → Dense m n base →
      gives fun e => if act m e then some (roundTo (vOt m.c) ((rowElem d.fmt (s.readBlk d (e / d.cols) (e % d.cols / 32)).1 (e % d.cols % 32)).v.mul (fp32 m.scale)))
        else zero) ∧
    (w.mems = [m] → m.c.opc = 0x5C → isForm (vSrc m.c 0) = true → isForm (vDst m.c) = true →
      (∀ e, e < (on m).length → (vDstForm m.regs m.c).addrN e = base + z * e) → base + z * (on m).length ≤ spmSize →
      ((on m).length ≤ (vDstForm m.regs m.c).count → ∃ t : State, exec (.veBeat []) s = .next t ∧ t.vec.ve = rest ∧
        stored s t base z (on m).length (fun k => ((on m)[k]?).map (t0 0)) ∧
        (w.pend.contains (0, vFn m.c) = true → t.sX.rdN (vFn m.c) = BitVec.ofNat 32 (on m).length)) ∧
      ((vDstForm m.regs m.c).count < (on m).length → ∃ t : State, exec (.veBeat []) s = .next t ∧ t.vec.ve = rest ∧ sameSpm s t ∧ sameRegs s t ∧
        (s.sX.st = .running → s.sX.chain = 0 → t.sX.st = .halted ∧ t.rf 0x840 63 56 = 6 ∧ t.rb 0x840 54 = true ∧ t.rf 0x840 47 32 = m.c.tag.toNat))) ∧
    (w.mems = [m] → m.c.opc = 0x5D → isForm (vSrc m.c 0) = true → (on m).length ≤ (vForm m.regs m.c 0).count → Dense m n base →
      gives fun e => if act m e then some (t0 0 ((List.range e).filter (act m)).length) else zero) ∧
    (w.mems = [m] → m.c.opc = 0x4E → isForm (vSrc m.c 0) = true → isForm (vSrc m.c 1) = true → ∀ k, 1 ≤ k → k < 8 → vDst m.c = 0x20 + k →
      ∃ t : State, exec (.veBeat []) s = .next t ∧ t.vec.ve = rest ∧ sameSpm s t ∧ sameRegs s t ∧
        (∀ e, e < n → t.maskBit k e = if act m e then vCmp (vOt m.c) (vFn m.c) (t0 0 e) (t0 1 e) else !vZero m.c && s.maskBit k e) ∧
        ∀ e, n ≤ e → t.maskBit k e = s.maskBit k e) ∧
    (w.mems = [m] → m.c.opc = 0x57 → isForm (vSrc m.c 0) = true → vMsk m.c = 0 →
      let d := bsdAt m.regs m.c 0
      let row := ((List.range n).map fun e => some ((decodeElem (vOt m.c) (t0 0 e)).divPos (fp32 m.scale).val)) ++ List.replicate (32 - n) none
      let q := quantBlock d.fmt (decide (vFn m.c = 1)) (fun i k => srRnd (vSr m.c) w.key (i * d.cols + k + srBase m.c)) [row]
      let bytes := (blkBytes d 0 0 (q.1.headD ⟨[], 0, none⟩)).flatMap fun p => p.2.zipIdx.map fun (b, j) => (p.1 + j, b)
      d.sq = false → d.rows = 1 → d.cols = n → n ≤ 32 → q.1.length = 1 → (bytes.map (·.1)).Nodup → (∀ p ∈ bytes, p.1 < spmSize) →
      ∃ t : State, exec (.veBeat []) s = .next t ∧ t.vec.ve = rest ∧ sameRegs s t ∧ (∀ p ∈ bytes, t.spm.byte p.1 = p.2) ∧
        t.trk = (s.merge m.trk none ((List.range n).foldl (fun a e => maxBits a (finBits (laneNum (vOt m.c) (t0 0 e)))) 0) q.2 n).trk ∧
        ∀ x, x ∉ bytes.map (·.1) → t.spm.byte x = s.spm.byte x) ∧
    (w.mems = [m] → isRed m.c = true → isForm (vSrc m.c 0) = true → isN (vDst m.c) = true → redSeg m.c = 0 → redPv m.c = false →
      w.pend.contains (0, vDst m.c - 8) = true → (m.c.opc = 0x60 → vFn m.c = 1) →
      let g := (on m).foldl (fun g e => redElem m.c g e (t0 0 e)) RedAcc.zero
      ∃ t : State, exec (.veBeat []) s = .next t ∧ t.vec.ve = rest ∧ sameSpm s t ∧ sameRegs s t ∧
        t.vec.redq = s.vec.redq ++ [⟨[⟨0, vDst m.c - 8, redResult m.c g⟩], false, none, m.c.tag⟩] ∧ t.trk = s.trk ∧
        t.rf 0x9820 47 0 = min (2 ^ 48 - 1) (s.rf 0x9820 47 0 + g.nf)) ∧
    (∀ m1 : VeMem, w.mems = [m1, m] → elementwise m1.c = true → elementwise m.c = true → isForm (vSrc m1.c 0) = true → laneSrcs m1.c = 1 →
      laneSrcs m.c = 1 → isK (vDst m1.c) = true → vSrc m.c 0 = vDst m1.c → fmtBits (srcTy m.c 0) = fmtBits (dstTy m1.c) → vMsk m1.c = 0 → Dense m n base →
      gives fun e => if act m e then some (laneCode s w m e (laneCode s w m1 e (formCode s m1 0 e) 0 0) 0 0) else zero)

/-- A ledger holds the exact sum of its contributions, in any order and however they are joined (02_narrow_numbers.md, R46 to R57 in part, 01_system_context.md, R20 in part). The model's own choices that it rests on: log entries 123 (DESIGN CHOICE), 18 (DEDUCED). -/
def Obligations.LedgersAreExact : Prop :=
  (∀ l : List (Machine.Num × Nat), Contributions l → l.length ≤ 2 ^ 24 → windowOf l ≤ 511 →
    let g := ledgerOf l
    g.spec = 0 ∧ g.x = windowOf l ∧ g.cnt = l.length ∧ g.resErr = false ∧
    ((∀ p ∈ l, windowOf l ≤ lowBit p) → g.inx = false ∧ (g.w : Rat) * pow2 g.x = sumVal l ∧ (∀ scale, g.value scale = Num.ofRat (sumVal l * scale)) ∧
      ∀ l', l.Perm l' → ledgerOf l' = g) ∧
    ((∃ p ∈ l, lowBit p < windowOf l) → g.inx = true ∧ 0 ≤ sumVal l - g.w * pow2 g.x ∧ sumVal l - g.w * pow2 g.x < 2 * l.length * pow2 g.x)) ∧
  (∀ l l' : List (Machine.Num × Nat), let all := l ++ l'
    Contributions all → all.length ≤ 2 ^ 24 → windowOf all ≤ 511 → (∀ p ∈ all, windowOf all ≤ lowBit p) →
    ((wordLedger (ledgerOf l).word).merge (wordLedger (ledgerOf l').word)).1.word = (ledgerOf all).word) ∧
  (∀ l : List (Machine.Num × Nat), (∃ p ∈ l, p.1.isNan = true) → (ledgerOf l).word = ({ Ledger.empty with spec := 3 } : Ledger).word) ∧
  ∀ (p : Pass) (grid : Tbl Ledger) (i j : Nat) (west north : Feed), p.west = some west → p.north = some north →
    tget Ledger.empty grid (p.at' i j) = Ledger.empty →
    let l := ((List.range p.k).map fun k => ((west.elem i k).v.mul (north.elem j k).v, (west.elem i k).s + (north.elem j k).s)).filter
      fun q => decide (q.1 ≠ .fin false 0) && decide (q.1 ≠ .fin true 0)
    let g := ledgerOf l
    (p.cell grid i j).1 = g ∧
    (p.drain grid i j).cnts.spread = (if g.inx = true then 1 else 0) ∧
    (mxpOut p.c = 3 → (p.drain grid i j).bits = g.word.toNat ∧ (p.drain grid i j).amax = 0) ∧
    (mxpOut p.c ≠ 3 → let v := decodeElem (mxpOut p.c) (p.drain grid i j).bits; (p.drain grid i j).amax = if v.isFin then bits32 v.abs else 0) ∧
    (mxpOut p.c ≠ 3 → (p.drain grid i j).bits =
      (drainTo (mxpOut p.c) (srRnd (bit p.c.base 18) p.key (fld (p.c.x 1) 31 0 + i * mxpN p.c + j)) (bit p.c.base 17) (g.value p.scale)).1)
end

