-- ==== Sys2Proof/Laws/Fields.lean ====
section
/-!
SUPPORT. Bit fields: reading a field after a write of the same or of another field, bit by bit and as numbers.
-/

namespace Sys2Proof.Machine

/-- A bit of a word with a field written: inside the field the written number's bit, outside it the old bit. -/
theorem bit_putFld (x : W64) {hi lo i : Nat} (v : Nat) (h : lo ≤ hi) (hi64 : i < 64) :
    bit (putFld x hi lo v) i = if lo ≤ i ∧ i ≤ hi then v.testBit (i - lo) else bit x i := by
  unfold putFld bit
  simp only [BitVec.getLsbD_or, BitVec.getLsbD_and, BitVec.getLsbD_not, BitVec.getLsbD_ofNat, hi64, decide_true, Bool.true_and,
    Nat.testBit_shiftLeft, Nat.testBit_two_pow_sub_one, Nat.testBit_mod_two_pow]
  by_cases h1 : lo ≤ i
  · by_cases h2 : i ≤ hi
    · have : i - lo < hi - lo + 1 := by omega
      simp [h1, h2, this]
    · have : ¬ i - lo < hi - lo + 1 := by omega
      simp [h1, h2, this]
  · simp [h1]

/-- Bit j of a field is bit lo + j of the word. -/
theorem testBit_fld {w : Nat} (x : BitVec w) (hi lo j : Nat) : (fld x hi lo).testBit j = (decide (j < hi - lo + 1) && bit x (lo + j)) := by
  rw [fld, Nat.testBit_mod_two_pow, Nat.testBit_shiftRight]; rfl

/-- A field reads as it was written, cut to its width. -/
theorem fld_putFld_same (x : W64) {hi lo : Nat} (v : Nat) (h : lo ≤ hi) (h64 : hi < 64) :
    fld (putFld x hi lo v) hi lo = v % 2 ^ (hi - lo + 1) := by
  apply Nat.eq_of_testBit_eq
  intro j
  rw [testBit_fld, Nat.testBit_mod_two_pow]
  by_cases hj : j < hi - lo + 1
  · rw [bit_putFld x v h (by omega), if_pos (by omega), Nat.add_sub_cancel_left]
  · simp [hj]

/-- A field is as before a write of another field. -/
theorem fld_putFld_other (x : W64) {hi lo hi' lo' : Nat} (v : Nat) (h : lo ≤ hi) (h' : lo' ≤ hi') (h64 : hi' < 64)
    (hd : hi < lo' ∨ hi' < lo) : fld (putFld x hi lo v) hi' lo' = fld x hi' lo' := by
  apply Nat.eq_of_testBit_eq
  intro j
  rw [testBit_fld, testBit_fld]
  by_cases hj : j < hi' - lo' + 1
  · rw [bit_putFld x v h (by omega), if_neg (by omega)]
  · simp [hj]

/-- A packet sealed with its CRC passes the check of it (15 R385). -/
theorem packetOk_seal (h : W64) (ws : List W64) : packetOk (putFld h 15 0 (packetCrc h ws).toNat) ws = true := by
  have e : bitsDown (putFld h 15 0 (packetCrc h ws).toNat) 63 16 = bitsDown h 63 16 := by
    unfold bitsDown upto
    refine List.map_congr_left fun i hi => ?_
    have : i < 48 := by simpa using hi
    rw [bit_putFld h _ (by omega) (by omega), if_neg (by omega)]
  have c : packetCrc (putFld h 15 0 (packetCrc h ws).toNat) ws = packetCrc h ws := by
    show crc16 (bitsDown _ 63 16 ++ _) = crc16 _
    rw [e]
  unfold packetOk
  rw [c, fld_putFld_same h _ (by omega) (by omega), Nat.mod_eq_of_lt (packetCrc h ws).isLt, decide_eq_true rfl]

end Sys2Proof.Machine
end

