-- ==== Sys2Proof/Laws/State.lean ====
section
/-!
SUPPORT. What each update of the state leaves alone, one lemma per field and update.
-/

namespace Sys2Proof.Machine

/-! ### Updates of one field -/

@[simp] theorem State.wr_pending (s : State) (off : Nat) (v : W64) : (s.wr off v).pending = s.pending := rfl
@[simp] theorem State.wr_sA (s : State) (off : Nat) (v : W64) : (s.wr off v).sA = s.sA := rfl
@[simp] theorem State.wr_sX (s : State) (off : Nat) (v : W64) : (s.wr off v).sX = s.sX := rfl
@[simp] theorem State.wr_vec (s : State) (off : Nat) (v : W64) : (s.wr off v).vec = s.vec := rfl
@[simp] theorem State.wr_spm (s : State) (off : Nat) (v : W64) : (s.wr off v).spm = s.spm := rfl
@[simp] theorem State.wr_qsy (s : State) (off : Nat) (v : W64) : (s.wr off v).qsy = s.qsy := rfl
@[simp] theorem State.wr_bars (s : State) (off : Nat) (v : W64) : (s.wr off v).bars = s.bars := rfl
@[simp] theorem State.wr_chans (s : State) (off : Nat) (v : W64) : (s.wr off v).chans = s.chans := rfl
@[simp] theorem State.wr_fab (s : State) (off : Nat) (v : W64) : (s.wr off v).fab = s.fab := rfl
@[simp] theorem State.wr_imem (s : State) (off : Nat) (v : W64) : (s.wr off v).imem = s.imem := rfl
@[simp] theorem State.wr_mer (s : State) (off : Nat) (v : W64) : (s.wr off v).mer = s.mer := rfl
@[simp] theorem State.wr_cA (s : State) (off : Nat) (v : W64) : (s.wr off v).cA = s.cA := rfl
@[simp] theorem State.wr_cX (s : State) (off : Nat) (v : W64) : (s.wr off v).cX = s.cX := rfl
@[simp] theorem State.wr_rounds (s : State) (off : Nat) (v : W64) : (s.wr off v).rounds = s.rounds := rfl
@[simp] theorem State.wr_trk (s : State) (off : Nat) (v : W64) : (s.wr off v).trk = s.trk := rfl
@[simp] theorem State.wr_arr (s : State) (off : Nat) (v : W64) : (s.wr off v).arr = s.arr := rfl
@[simp] theorem State.wr_orr (s : State) (off : Nat) (v : W64) : (s.wr off v).orr = s.orr := rfl
@[simp] theorem State.wr_keys (s : State) (off : Nat) (v : W64) : (s.wr off v).keys = s.keys := rfl
@[simp] theorem State.wr_cke (s : State) (off : Nat) (v : W64) : (s.wr off v).cke = s.cke := rfl
@[simp] theorem State.wr_rep (s : State) (off : Nat) (v : W64) : (s.wr off v).rep = s.rep := rfl
@[simp] theorem State.wr_cal (s : State) (off : Nat) (v : W64) : (s.wr off v).cal = s.cal := rfl
@[simp] theorem State.wr_bist (s : State) (off : Nat) (v : W64) : (s.wr off v).bist = s.bist := rfl
@[simp] theorem State.wr_ring (s : State) (off : Nat) (v : W64) : (s.wr off v).ring = s.ring := rfl
@[simp] theorem State.wr_pins (s : State) (off : Nat) (v : W64) : (s.wr off v).pins = s.pins := rfl
@[simp] theorem State.wr_tp (s : State) (off : Nat) (v : W64) : (s.wr off v).tp = s.tp := rfl
@[simp] theorem State.wr_freeCount (s : State) (off : Nat) (v : W64) : (s.wr off v).freeCount = s.freeCount := rfl
@[simp] theorem State.setRf_pending (s : State) (off hi lo v : Nat) : (s.setRf off hi lo v).pending = s.pending := rfl
@[simp] theorem State.setRf_sA (s : State) (off hi lo v : Nat) : (s.setRf off hi lo v).sA = s.sA := rfl
@[simp] theorem State.setRf_sX (s : State) (off hi lo v : Nat) : (s.setRf off hi lo v).sX = s.sX := rfl
@[simp] theorem State.setRf_vec (s : State) (off hi lo v : Nat) : (s.setRf off hi lo v).vec = s.vec := rfl
@[simp] theorem State.setRf_spm (s : State) (off hi lo v : Nat) : (s.setRf off hi lo v).spm = s.spm := rfl
@[simp] theorem State.setRf_qsy (s : State) (off hi lo v : Nat) : (s.setRf off hi lo v).qsy = s.qsy := rfl
@[simp] theorem State.setRf_bars (s : State) (off hi lo v : Nat) : (s.setRf off hi lo v).bars = s.bars := rfl
@[simp] theorem State.setRf_chans (s : State) (off hi lo v : Nat) : (s.setRf off hi lo v).chans = s.chans := rfl
@[simp] theorem State.setRf_fab (s : State) (off hi lo v : Nat) : (s.setRf off hi lo v).fab = s.fab := rfl
@[simp] theorem State.setRf_imem (s : State) (off hi lo v : Nat) : (s.setRf off hi lo v).imem = s.imem := rfl
@[simp] theorem State.setRf_mer (s : State) (off hi lo v : Nat) : (s.setRf off hi lo v).mer = s.mer := rfl
@[simp] theorem State.setRf_cA (s : State) (off hi lo v : Nat) : (s.setRf off hi lo v).cA = s.cA := rfl
@[simp] theorem State.setRf_cX (s : State) (off hi lo v : Nat) : (s.setRf off hi lo v).cX = s.cX := rfl
@[simp] theorem State.setRf_rounds (s : State) (off hi lo v : Nat) : (s.setRf off hi lo v).rounds = s.rounds := rfl
@[simp] theorem State.setRf_trk (s : State) (off hi lo v : Nat) : (s.setRf off hi lo v).trk = s.trk := rfl
@[simp] theorem State.setRf_arr (s : State) (off hi lo v : Nat) : (s.setRf off hi lo v).arr = s.arr := rfl
@[simp] theorem State.setRf_orr (s : State) (off hi lo v : Nat) : (s.setRf off hi lo v).orr = s.orr := rfl
@[simp] theorem State.setRf_keys (s : State) (off hi lo v : Nat) : (s.setRf off hi lo v).keys = s.keys := rfl
@[simp] theorem State.setRf_cke (s : State) (off hi lo v : Nat) : (s.setRf off hi lo v).cke = s.cke := rfl
@[simp] theorem State.setRf_rep (s : State) (off hi lo v : Nat) : (s.setRf off hi lo v).rep = s.rep := rfl
@[simp] theorem State.setRf_cal (s : State) (off hi lo v : Nat) : (s.setRf off hi lo v).cal = s.cal := rfl
@[simp] theorem State.setRf_bist (s : State) (off hi lo v : Nat) : (s.setRf off hi lo v).bist = s.bist := rfl
@[simp] theorem State.setRf_ring (s : State) (off hi lo v : Nat) : (s.setRf off hi lo v).ring = s.ring := rfl
@[simp] theorem State.setRf_pins (s : State) (off hi lo v : Nat) : (s.setRf off hi lo v).pins = s.pins := rfl
@[simp] theorem State.setRf_tp (s : State) (off hi lo v : Nat) : (s.setRf off hi lo v).tp = s.tp := rfl
@[simp] theorem State.setRf_freeCount (s : State) (off hi lo v : Nat) : (s.setRf off hi lo v).freeCount = s.freeCount := rfl
@[simp] theorem State.incRf_pending (s : State) (off hi lo : Nat) : (s.incRf off hi lo).pending = s.pending := rfl
@[simp] theorem State.incRf_sA (s : State) (off hi lo : Nat) : (s.incRf off hi lo).sA = s.sA := rfl
@[simp] theorem State.incRf_sX (s : State) (off hi lo : Nat) : (s.incRf off hi lo).sX = s.sX := rfl
@[simp] theorem State.incRf_vec (s : State) (off hi lo : Nat) : (s.incRf off hi lo).vec = s.vec := rfl
@[simp] theorem State.incRf_spm (s : State) (off hi lo : Nat) : (s.incRf off hi lo).spm = s.spm := rfl
@[simp] theorem State.incRf_qsy (s : State) (off hi lo : Nat) : (s.incRf off hi lo).qsy = s.qsy := rfl
@[simp] theorem State.incRf_bars (s : State) (off hi lo : Nat) : (s.incRf off hi lo).bars = s.bars := rfl
@[simp] theorem State.incRf_chans (s : State) (off hi lo : Nat) : (s.incRf off hi lo).chans = s.chans := rfl
@[simp] theorem State.incRf_fab (s : State) (off hi lo : Nat) : (s.incRf off hi lo).fab = s.fab := rfl
@[simp] theorem State.incRf_imem (s : State) (off hi lo : Nat) : (s.incRf off hi lo).imem = s.imem := rfl
@[simp] theorem State.incRf_mer (s : State) (off hi lo : Nat) : (s.incRf off hi lo).mer = s.mer := rfl
@[simp] theorem State.incRf_cA (s : State) (off hi lo : Nat) : (s.incRf off hi lo).cA = s.cA := rfl
@[simp] theorem State.incRf_cX (s : State) (off hi lo : Nat) : (s.incRf off hi lo).cX = s.cX := rfl
@[simp] theorem State.incRf_rounds (s : State) (off hi lo : Nat) : (s.incRf off hi lo).rounds = s.rounds := rfl
@[simp] theorem State.incRf_trk (s : State) (off hi lo : Nat) : (s.incRf off hi lo).trk = s.trk := rfl
@[simp] theorem State.incRf_arr (s : State) (off hi lo : Nat) : (s.incRf off hi lo).arr = s.arr := rfl
@[simp] theorem State.incRf_orr (s : State) (off hi lo : Nat) : (s.incRf off hi lo).orr = s.orr := rfl
@[simp] theorem State.incRf_keys (s : State) (off hi lo : Nat) : (s.incRf off hi lo).keys = s.keys := rfl
@[simp] theorem State.incRf_cke (s : State) (off hi lo : Nat) : (s.incRf off hi lo).cke = s.cke := rfl
@[simp] theorem State.incRf_rep (s : State) (off hi lo : Nat) : (s.incRf off hi lo).rep = s.rep := rfl
@[simp] theorem State.incRf_cal (s : State) (off hi lo : Nat) : (s.incRf off hi lo).cal = s.cal := rfl
@[simp] theorem State.incRf_bist (s : State) (off hi lo : Nat) : (s.incRf off hi lo).bist = s.bist := rfl
@[simp] theorem State.incRf_ring (s : State) (off hi lo : Nat) : (s.incRf off hi lo).ring = s.ring := rfl
@[simp] theorem State.incRf_pins (s : State) (off hi lo : Nat) : (s.incRf off hi lo).pins = s.pins := rfl
@[simp] theorem State.incRf_tp (s : State) (off hi lo : Nat) : (s.incRf off hi lo).tp = s.tp := rfl
@[simp] theorem State.incRf_freeCount (s : State) (off hi lo : Nat) : (s.incRf off hi lo).freeCount = s.freeCount := rfl
@[simp] theorem State.modStr_pending (s : State) (st : Sid) (f : Stream → Stream) : (s.modStr st f).pending = s.pending := by cases st <;> rfl
@[simp] theorem State.modStr_csr (s : State) (st : Sid) (f : Stream → Stream) : (s.modStr st f).csr = s.csr := by cases st <;> rfl
@[simp] theorem State.modStr_vec (s : State) (st : Sid) (f : Stream → Stream) : (s.modStr st f).vec = s.vec := by cases st <;> rfl
@[simp] theorem State.modStr_spm (s : State) (st : Sid) (f : Stream → Stream) : (s.modStr st f).spm = s.spm := by cases st <;> rfl
@[simp] theorem State.modStr_qsy (s : State) (st : Sid) (f : Stream → Stream) : (s.modStr st f).qsy = s.qsy := by cases st <;> rfl
@[simp] theorem State.modStr_bars (s : State) (st : Sid) (f : Stream → Stream) : (s.modStr st f).bars = s.bars := by cases st <;> rfl
@[simp] theorem State.modStr_chans (s : State) (st : Sid) (f : Stream → Stream) : (s.modStr st f).chans = s.chans := by cases st <;> rfl
@[simp] theorem State.modStr_fab (s : State) (st : Sid) (f : Stream → Stream) : (s.modStr st f).fab = s.fab := by cases st <;> rfl
@[simp] theorem State.modStr_imem (s : State) (st : Sid) (f : Stream → Stream) : (s.modStr st f).imem = s.imem := by cases st <;> rfl
@[simp] theorem State.modStr_mer (s : State) (st : Sid) (f : Stream → Stream) : (s.modStr st f).mer = s.mer := by cases st <;> rfl
@[simp] theorem State.modStr_cA (s : State) (st : Sid) (f : Stream → Stream) : (s.modStr st f).cA = s.cA := by cases st <;> rfl
@[simp] theorem State.modStr_cX (s : State) (st : Sid) (f : Stream → Stream) : (s.modStr st f).cX = s.cX := by cases st <;> rfl
@[simp] theorem State.modStr_rounds (s : State) (st : Sid) (f : Stream → Stream) : (s.modStr st f).rounds = s.rounds := by cases st <;> rfl
@[simp] theorem State.modStr_trk (s : State) (st : Sid) (f : Stream → Stream) : (s.modStr st f).trk = s.trk := by cases st <;> rfl
@[simp] theorem State.modStr_arr (s : State) (st : Sid) (f : Stream → Stream) : (s.modStr st f).arr = s.arr := by cases st <;> rfl
@[simp] theorem State.modStr_orr (s : State) (st : Sid) (f : Stream → Stream) : (s.modStr st f).orr = s.orr := by cases st <;> rfl
@[simp] theorem State.modStr_keys (s : State) (st : Sid) (f : Stream → Stream) : (s.modStr st f).keys = s.keys := by cases st <;> rfl
@[simp] theorem State.modStr_cke (s : State) (st : Sid) (f : Stream → Stream) : (s.modStr st f).cke = s.cke := by cases st <;> rfl
@[simp] theorem State.modStr_rep (s : State) (st : Sid) (f : Stream → Stream) : (s.modStr st f).rep = s.rep := by cases st <;> rfl
@[simp] theorem State.modStr_cal (s : State) (st : Sid) (f : Stream → Stream) : (s.modStr st f).cal = s.cal := by cases st <;> rfl
@[simp] theorem State.modStr_bist (s : State) (st : Sid) (f : Stream → Stream) : (s.modStr st f).bist = s.bist := by cases st <;> rfl
@[simp] theorem State.modStr_ring (s : State) (st : Sid) (f : Stream → Stream) : (s.modStr st f).ring = s.ring := by cases st <;> rfl
@[simp] theorem State.modStr_pins (s : State) (st : Sid) (f : Stream → Stream) : (s.modStr st f).pins = s.pins := by cases st <;> rfl
@[simp] theorem State.modStr_tp (s : State) (st : Sid) (f : Stream → Stream) : (s.modStr st f).tp = s.tp := by cases st <;> rfl
@[simp] theorem State.modStr_freeCount (s : State) (st : Sid) (f : Stream → Stream) : (s.modStr st f).freeCount = s.freeCount := by cases st <;> rfl
@[simp] theorem State.modCsu_pending (s : State) (st : Sid) (f : Csu → Csu) : (s.modCsu st f).pending = s.pending := by cases st <;> rfl
@[simp] theorem State.modCsu_csr (s : State) (st : Sid) (f : Csu → Csu) : (s.modCsu st f).csr = s.csr := by cases st <;> rfl
@[simp] theorem State.modCsu_sA (s : State) (st : Sid) (f : Csu → Csu) : (s.modCsu st f).sA = s.sA := by cases st <;> rfl
@[simp] theorem State.modCsu_sX (s : State) (st : Sid) (f : Csu → Csu) : (s.modCsu st f).sX = s.sX := by cases st <;> rfl
@[simp] theorem State.modCsu_vec (s : State) (st : Sid) (f : Csu → Csu) : (s.modCsu st f).vec = s.vec := by cases st <;> rfl
@[simp] theorem State.modCsu_spm (s : State) (st : Sid) (f : Csu → Csu) : (s.modCsu st f).spm = s.spm := by cases st <;> rfl
@[simp] theorem State.modCsu_qsy (s : State) (st : Sid) (f : Csu → Csu) : (s.modCsu st f).qsy = s.qsy := by cases st <;> rfl
@[simp] theorem State.modCsu_bars (s : State) (st : Sid) (f : Csu → Csu) : (s.modCsu st f).bars = s.bars := by cases st <;> rfl
@[simp] theorem State.modCsu_chans (s : State) (st : Sid) (f : Csu → Csu) : (s.modCsu st f).chans = s.chans := by cases st <;> rfl
@[simp] theorem State.modCsu_fab (s : State) (st : Sid) (f : Csu → Csu) : (s.modCsu st f).fab = s.fab := by cases st <;> rfl
@[simp] theorem State.modCsu_imem (s : State) (st : Sid) (f : Csu → Csu) : (s.modCsu st f).imem = s.imem := by cases st <;> rfl
@[simp] theorem State.modCsu_mer (s : State) (st : Sid) (f : Csu → Csu) : (s.modCsu st f).mer = s.mer := by cases st <;> rfl
@[simp] theorem State.modCsu_rounds (s : State) (st : Sid) (f : Csu → Csu) : (s.modCsu st f).rounds = s.rounds := by cases st <;> rfl
@[simp] theorem State.modCsu_trk (s : State) (st : Sid) (f : Csu → Csu) : (s.modCsu st f).trk = s.trk := by cases st <;> rfl
@[simp] theorem State.modCsu_arr (s : State) (st : Sid) (f : Csu → Csu) : (s.modCsu st f).arr = s.arr := by cases st <;> rfl
@[simp] theorem State.modCsu_orr (s : State) (st : Sid) (f : Csu → Csu) : (s.modCsu st f).orr = s.orr := by cases st <;> rfl
@[simp] theorem State.modCsu_keys (s : State) (st : Sid) (f : Csu → Csu) : (s.modCsu st f).keys = s.keys := by cases st <;> rfl
@[simp] theorem State.modCsu_cke (s : State) (st : Sid) (f : Csu → Csu) : (s.modCsu st f).cke = s.cke := by cases st <;> rfl
@[simp] theorem State.modCsu_rep (s : State) (st : Sid) (f : Csu → Csu) : (s.modCsu st f).rep = s.rep := by cases st <;> rfl
@[simp] theorem State.modCsu_cal (s : State) (st : Sid) (f : Csu → Csu) : (s.modCsu st f).cal = s.cal := by cases st <;> rfl
@[simp] theorem State.modCsu_bist (s : State) (st : Sid) (f : Csu → Csu) : (s.modCsu st f).bist = s.bist := by cases st <;> rfl
@[simp] theorem State.modCsu_ring (s : State) (st : Sid) (f : Csu → Csu) : (s.modCsu st f).ring = s.ring := by cases st <;> rfl
@[simp] theorem State.modCsu_pins (s : State) (st : Sid) (f : Csu → Csu) : (s.modCsu st f).pins = s.pins := by cases st <;> rfl
@[simp] theorem State.modCsu_tp (s : State) (st : Sid) (f : Csu → Csu) : (s.modCsu st f).tp = s.tp := by cases st <;> rfl
@[simp] theorem State.modCsu_freeCount (s : State) (st : Sid) (f : Csu → Csu) : (s.modCsu st f).freeCount = s.freeCount := by cases st <;> rfl
@[simp] theorem State.modCtx_pending (s : State) (n : Nat) (f : Ctx → Ctx) : (s.modCtx n f).pending = s.pending := rfl
@[simp] theorem State.modCtx_csr (s : State) (n : Nat) (f : Ctx → Ctx) : (s.modCtx n f).csr = s.csr := rfl
@[simp] theorem State.modCtx_sA (s : State) (n : Nat) (f : Ctx → Ctx) : (s.modCtx n f).sA = s.sA := rfl
@[simp] theorem State.modCtx_sX (s : State) (n : Nat) (f : Ctx → Ctx) : (s.modCtx n f).sX = s.sX := rfl
@[simp] theorem State.modCtx_vec (s : State) (n : Nat) (f : Ctx → Ctx) : (s.modCtx n f).vec = s.vec := rfl
@[simp] theorem State.modCtx_spm (s : State) (n : Nat) (f : Ctx → Ctx) : (s.modCtx n f).spm = s.spm := rfl
@[simp] theorem State.modCtx_bars (s : State) (n : Nat) (f : Ctx → Ctx) : (s.modCtx n f).bars = s.bars := rfl
@[simp] theorem State.modCtx_chans (s : State) (n : Nat) (f : Ctx → Ctx) : (s.modCtx n f).chans = s.chans := rfl
@[simp] theorem State.modCtx_fab (s : State) (n : Nat) (f : Ctx → Ctx) : (s.modCtx n f).fab = s.fab := rfl
@[simp] theorem State.modCtx_imem (s : State) (n : Nat) (f : Ctx → Ctx) : (s.modCtx n f).imem = s.imem := rfl
@[simp] theorem State.modCtx_mer (s : State) (n : Nat) (f : Ctx → Ctx) : (s.modCtx n f).mer = s.mer := rfl
@[simp] theorem State.modCtx_cA (s : State) (n : Nat) (f : Ctx → Ctx) : (s.modCtx n f).cA = s.cA := rfl
@[simp] theorem State.modCtx_cX (s : State) (n : Nat) (f : Ctx → Ctx) : (s.modCtx n f).cX = s.cX := rfl
@[simp] theorem State.modCtx_rounds (s : State) (n : Nat) (f : Ctx → Ctx) : (s.modCtx n f).rounds = s.rounds := rfl
@[simp] theorem State.modCtx_trk (s : State) (n : Nat) (f : Ctx → Ctx) : (s.modCtx n f).trk = s.trk := rfl
@[simp] theorem State.modCtx_arr (s : State) (n : Nat) (f : Ctx → Ctx) : (s.modCtx n f).arr = s.arr := rfl
@[simp] theorem State.modCtx_orr (s : State) (n : Nat) (f : Ctx → Ctx) : (s.modCtx n f).orr = s.orr := rfl
@[simp] theorem State.modCtx_keys (s : State) (n : Nat) (f : Ctx → Ctx) : (s.modCtx n f).keys = s.keys := rfl
@[simp] theorem State.modCtx_cke (s : State) (n : Nat) (f : Ctx → Ctx) : (s.modCtx n f).cke = s.cke := rfl
@[simp] theorem State.modCtx_rep (s : State) (n : Nat) (f : Ctx → Ctx) : (s.modCtx n f).rep = s.rep := rfl
@[simp] theorem State.modCtx_cal (s : State) (n : Nat) (f : Ctx → Ctx) : (s.modCtx n f).cal = s.cal := rfl
@[simp] theorem State.modCtx_bist (s : State) (n : Nat) (f : Ctx → Ctx) : (s.modCtx n f).bist = s.bist := rfl
@[simp] theorem State.modCtx_ring (s : State) (n : Nat) (f : Ctx → Ctx) : (s.modCtx n f).ring = s.ring := rfl
@[simp] theorem State.modCtx_pins (s : State) (n : Nat) (f : Ctx → Ctx) : (s.modCtx n f).pins = s.pins := rfl
@[simp] theorem State.modCtx_tp (s : State) (n : Nat) (f : Ctx → Ctx) : (s.modCtx n f).tp = s.tp := rfl
@[simp] theorem State.modCtx_freeCount (s : State) (n : Nat) (f : Ctx → Ctx) : (s.modCtx n f).freeCount = s.freeCount := rfl
@[simp] theorem State.modBar_pending (s : State) (n : Nat) (f : BarCtx → BarCtx) : (s.modBar n f).pending = s.pending := rfl
@[simp] theorem State.modBar_csr (s : State) (n : Nat) (f : BarCtx → BarCtx) : (s.modBar n f).csr = s.csr := rfl
@[simp] theorem State.modBar_sA (s : State) (n : Nat) (f : BarCtx → BarCtx) : (s.modBar n f).sA = s.sA := rfl
@[simp] theorem State.modBar_sX (s : State) (n : Nat) (f : BarCtx → BarCtx) : (s.modBar n f).sX = s.sX := rfl
@[simp] theorem State.modBar_vec (s : State) (n : Nat) (f : BarCtx → BarCtx) : (s.modBar n f).vec = s.vec := rfl
@[simp] theorem State.modBar_spm (s : State) (n : Nat) (f : BarCtx → BarCtx) : (s.modBar n f).spm = s.spm := rfl
@[simp] theorem State.modBar_qsy (s : State) (n : Nat) (f : BarCtx → BarCtx) : (s.modBar n f).qsy = s.qsy := rfl
@[simp] theorem State.modBar_chans (s : State) (n : Nat) (f : BarCtx → BarCtx) : (s.modBar n f).chans = s.chans := rfl
@[simp] theorem State.modBar_fab (s : State) (n : Nat) (f : BarCtx → BarCtx) : (s.modBar n f).fab = s.fab := rfl
@[simp] theorem State.modBar_imem (s : State) (n : Nat) (f : BarCtx → BarCtx) : (s.modBar n f).imem = s.imem := rfl
@[simp] theorem State.modBar_mer (s : State) (n : Nat) (f : BarCtx → BarCtx) : (s.modBar n f).mer = s.mer := rfl
@[simp] theorem State.modBar_cA (s : State) (n : Nat) (f : BarCtx → BarCtx) : (s.modBar n f).cA = s.cA := rfl
@[simp] theorem State.modBar_cX (s : State) (n : Nat) (f : BarCtx → BarCtx) : (s.modBar n f).cX = s.cX := rfl
@[simp] theorem State.modBar_rounds (s : State) (n : Nat) (f : BarCtx → BarCtx) : (s.modBar n f).rounds = s.rounds := rfl
@[simp] theorem State.modBar_trk (s : State) (n : Nat) (f : BarCtx → BarCtx) : (s.modBar n f).trk = s.trk := rfl
@[simp] theorem State.modBar_arr (s : State) (n : Nat) (f : BarCtx → BarCtx) : (s.modBar n f).arr = s.arr := rfl
@[simp] theorem State.modBar_orr (s : State) (n : Nat) (f : BarCtx → BarCtx) : (s.modBar n f).orr = s.orr := rfl
@[simp] theorem State.modBar_keys (s : State) (n : Nat) (f : BarCtx → BarCtx) : (s.modBar n f).keys = s.keys := rfl
@[simp] theorem State.modBar_cke (s : State) (n : Nat) (f : BarCtx → BarCtx) : (s.modBar n f).cke = s.cke := rfl
@[simp] theorem State.modBar_rep (s : State) (n : Nat) (f : BarCtx → BarCtx) : (s.modBar n f).rep = s.rep := rfl
@[simp] theorem State.modBar_cal (s : State) (n : Nat) (f : BarCtx → BarCtx) : (s.modBar n f).cal = s.cal := rfl
@[simp] theorem State.modBar_bist (s : State) (n : Nat) (f : BarCtx → BarCtx) : (s.modBar n f).bist = s.bist := rfl
@[simp] theorem State.modBar_ring (s : State) (n : Nat) (f : BarCtx → BarCtx) : (s.modBar n f).ring = s.ring := rfl
@[simp] theorem State.modBar_pins (s : State) (n : Nat) (f : BarCtx → BarCtx) : (s.modBar n f).pins = s.pins := rfl
@[simp] theorem State.modBar_tp (s : State) (n : Nat) (f : BarCtx → BarCtx) : (s.modBar n f).tp = s.tp := rfl
@[simp] theorem State.modBar_freeCount (s : State) (n : Nat) (f : BarCtx → BarCtx) : (s.modBar n f).freeCount = s.freeCount := rfl
@[simp] theorem State.modTrk_pending (s : State) (n : Nat) (f : Trk → Trk) : (s.modTrk n f).pending = s.pending := rfl
@[simp] theorem State.modTrk_csr (s : State) (n : Nat) (f : Trk → Trk) : (s.modTrk n f).csr = s.csr := rfl
@[simp] theorem State.modTrk_sA (s : State) (n : Nat) (f : Trk → Trk) : (s.modTrk n f).sA = s.sA := rfl
@[simp] theorem State.modTrk_sX (s : State) (n : Nat) (f : Trk → Trk) : (s.modTrk n f).sX = s.sX := rfl
@[simp] theorem State.modTrk_vec (s : State) (n : Nat) (f : Trk → Trk) : (s.modTrk n f).vec = s.vec := rfl
@[simp] theorem State.modTrk_spm (s : State) (n : Nat) (f : Trk → Trk) : (s.modTrk n f).spm = s.spm := rfl
@[simp] theorem State.modTrk_qsy (s : State) (n : Nat) (f : Trk → Trk) : (s.modTrk n f).qsy = s.qsy := rfl
@[simp] theorem State.modTrk_bars (s : State) (n : Nat) (f : Trk → Trk) : (s.modTrk n f).bars = s.bars := rfl
@[simp] theorem State.modTrk_chans (s : State) (n : Nat) (f : Trk → Trk) : (s.modTrk n f).chans = s.chans := rfl
@[simp] theorem State.modTrk_fab (s : State) (n : Nat) (f : Trk → Trk) : (s.modTrk n f).fab = s.fab := rfl
@[simp] theorem State.modTrk_imem (s : State) (n : Nat) (f : Trk → Trk) : (s.modTrk n f).imem = s.imem := rfl
@[simp] theorem State.modTrk_mer (s : State) (n : Nat) (f : Trk → Trk) : (s.modTrk n f).mer = s.mer := rfl
@[simp] theorem State.modTrk_cA (s : State) (n : Nat) (f : Trk → Trk) : (s.modTrk n f).cA = s.cA := rfl
@[simp] theorem State.modTrk_cX (s : State) (n : Nat) (f : Trk → Trk) : (s.modTrk n f).cX = s.cX := rfl
@[simp] theorem State.modTrk_rounds (s : State) (n : Nat) (f : Trk → Trk) : (s.modTrk n f).rounds = s.rounds := rfl
@[simp] theorem State.modTrk_arr (s : State) (n : Nat) (f : Trk → Trk) : (s.modTrk n f).arr = s.arr := rfl
@[simp] theorem State.modTrk_orr (s : State) (n : Nat) (f : Trk → Trk) : (s.modTrk n f).orr = s.orr := rfl
@[simp] theorem State.modTrk_keys (s : State) (n : Nat) (f : Trk → Trk) : (s.modTrk n f).keys = s.keys := rfl
@[simp] theorem State.modTrk_cke (s : State) (n : Nat) (f : Trk → Trk) : (s.modTrk n f).cke = s.cke := rfl
@[simp] theorem State.modTrk_rep (s : State) (n : Nat) (f : Trk → Trk) : (s.modTrk n f).rep = s.rep := rfl
@[simp] theorem State.modTrk_cal (s : State) (n : Nat) (f : Trk → Trk) : (s.modTrk n f).cal = s.cal := rfl
@[simp] theorem State.modTrk_bist (s : State) (n : Nat) (f : Trk → Trk) : (s.modTrk n f).bist = s.bist := rfl
@[simp] theorem State.modTrk_ring (s : State) (n : Nat) (f : Trk → Trk) : (s.modTrk n f).ring = s.ring := rfl
@[simp] theorem State.modTrk_pins (s : State) (n : Nat) (f : Trk → Trk) : (s.modTrk n f).pins = s.pins := rfl
@[simp] theorem State.modTrk_tp (s : State) (n : Nat) (f : Trk → Trk) : (s.modTrk n f).tp = s.tp := rfl
@[simp] theorem State.modTrk_freeCount (s : State) (n : Nat) (f : Trk → Trk) : (s.modTrk n f).freeCount = s.freeCount := rfl
@[simp] theorem State.modChan_pending (s : State) (ch tkt : Nat) (f : Chan → Chan) : (s.modChan ch tkt f).pending = s.pending := rfl
@[simp] theorem State.modChan_csr (s : State) (ch tkt : Nat) (f : Chan → Chan) : (s.modChan ch tkt f).csr = s.csr := rfl
@[simp] theorem State.modChan_sA (s : State) (ch tkt : Nat) (f : Chan → Chan) : (s.modChan ch tkt f).sA = s.sA := rfl
@[simp] theorem State.modChan_sX (s : State) (ch tkt : Nat) (f : Chan → Chan) : (s.modChan ch tkt f).sX = s.sX := rfl
@[simp] theorem State.modChan_vec (s : State) (ch tkt : Nat) (f : Chan → Chan) : (s.modChan ch tkt f).vec = s.vec := rfl
@[simp] theorem State.modChan_spm (s : State) (ch tkt : Nat) (f : Chan → Chan) : (s.modChan ch tkt f).spm = s.spm := rfl
@[simp] theorem State.modChan_qsy (s : State) (ch tkt : Nat) (f : Chan → Chan) : (s.modChan ch tkt f).qsy = s.qsy := rfl
@[simp] theorem State.modChan_bars (s : State) (ch tkt : Nat) (f : Chan → Chan) : (s.modChan ch tkt f).bars = s.bars := rfl
@[simp] theorem State.modChan_fab (s : State) (ch tkt : Nat) (f : Chan → Chan) : (s.modChan ch tkt f).fab = s.fab := rfl
@[simp] theorem State.modChan_imem (s : State) (ch tkt : Nat) (f : Chan → Chan) : (s.modChan ch tkt f).imem = s.imem := rfl
@[simp] theorem State.modChan_mer (s : State) (ch tkt : Nat) (f : Chan → Chan) : (s.modChan ch tkt f).mer = s.mer := rfl
@[simp] theorem State.modChan_cA (s : State) (ch tkt : Nat) (f : Chan → Chan) : (s.modChan ch tkt f).cA = s.cA := rfl
@[simp] theorem State.modChan_cX (s : State) (ch tkt : Nat) (f : Chan → Chan) : (s.modChan ch tkt f).cX = s.cX := rfl
@[simp] theorem State.modChan_rounds (s : State) (ch tkt : Nat) (f : Chan → Chan) : (s.modChan ch tkt f).rounds = s.rounds := rfl
@[simp] theorem State.modChan_trk (s : State) (ch tkt : Nat) (f : Chan → Chan) : (s.modChan ch tkt f).trk = s.trk := rfl
@[simp] theorem State.modChan_arr (s : State) (ch tkt : Nat) (f : Chan → Chan) : (s.modChan ch tkt f).arr = s.arr := rfl
@[simp] theorem State.modChan_orr (s : State) (ch tkt : Nat) (f : Chan → Chan) : (s.modChan ch tkt f).orr = s.orr := rfl
@[simp] theorem State.modChan_keys (s : State) (ch tkt : Nat) (f : Chan → Chan) : (s.modChan ch tkt f).keys = s.keys := rfl
@[simp] theorem State.modChan_cke (s : State) (ch tkt : Nat) (f : Chan → Chan) : (s.modChan ch tkt f).cke = s.cke := rfl
@[simp] theorem State.modChan_rep (s : State) (ch tkt : Nat) (f : Chan → Chan) : (s.modChan ch tkt f).rep = s.rep := rfl
@[simp] theorem State.modChan_cal (s : State) (ch tkt : Nat) (f : Chan → Chan) : (s.modChan ch tkt f).cal = s.cal := rfl
@[simp] theorem State.modChan_bist (s : State) (ch tkt : Nat) (f : Chan → Chan) : (s.modChan ch tkt f).bist = s.bist := rfl
@[simp] theorem State.modChan_ring (s : State) (ch tkt : Nat) (f : Chan → Chan) : (s.modChan ch tkt f).ring = s.ring := rfl
@[simp] theorem State.modChan_pins (s : State) (ch tkt : Nat) (f : Chan → Chan) : (s.modChan ch tkt f).pins = s.pins := rfl
@[simp] theorem State.modChan_tp (s : State) (ch tkt : Nat) (f : Chan → Chan) : (s.modChan ch tkt f).tp = s.tp := rfl
@[simp] theorem State.modChan_freeCount (s : State) (ch tkt : Nat) (f : Chan → Chan) : (s.modChan ch tkt f).freeCount = s.freeCount := rfl
@[simp] theorem State.modMer_pending (s : State) (f : Mer → Mer) : (s.modMer f).pending = s.pending := rfl
@[simp] theorem State.modMer_csr (s : State) (f : Mer → Mer) : (s.modMer f).csr = s.csr := rfl
@[simp] theorem State.modMer_sA (s : State) (f : Mer → Mer) : (s.modMer f).sA = s.sA := rfl
@[simp] theorem State.modMer_sX (s : State) (f : Mer → Mer) : (s.modMer f).sX = s.sX := rfl
@[simp] theorem State.modMer_vec (s : State) (f : Mer → Mer) : (s.modMer f).vec = s.vec := rfl
@[simp] theorem State.modMer_spm (s : State) (f : Mer → Mer) : (s.modMer f).spm = s.spm := rfl
@[simp] theorem State.modMer_qsy (s : State) (f : Mer → Mer) : (s.modMer f).qsy = s.qsy := rfl
@[simp] theorem State.modMer_bars (s : State) (f : Mer → Mer) : (s.modMer f).bars = s.bars := rfl
@[simp] theorem State.modMer_chans (s : State) (f : Mer → Mer) : (s.modMer f).chans = s.chans := rfl
@[simp] theorem State.modMer_fab (s : State) (f : Mer → Mer) : (s.modMer f).fab = s.fab := rfl
@[simp] theorem State.modMer_imem (s : State) (f : Mer → Mer) : (s.modMer f).imem = s.imem := rfl
@[simp] theorem State.modMer_cA (s : State) (f : Mer → Mer) : (s.modMer f).cA = s.cA := rfl
@[simp] theorem State.modMer_cX (s : State) (f : Mer → Mer) : (s.modMer f).cX = s.cX := rfl
@[simp] theorem State.modMer_rounds (s : State) (f : Mer → Mer) : (s.modMer f).rounds = s.rounds := rfl
@[simp] theorem State.modMer_trk (s : State) (f : Mer → Mer) : (s.modMer f).trk = s.trk := rfl
@[simp] theorem State.modMer_arr (s : State) (f : Mer → Mer) : (s.modMer f).arr = s.arr := rfl
@[simp] theorem State.modMer_orr (s : State) (f : Mer → Mer) : (s.modMer f).orr = s.orr := rfl
@[simp] theorem State.modMer_keys (s : State) (f : Mer → Mer) : (s.modMer f).keys = s.keys := rfl
@[simp] theorem State.modMer_cke (s : State) (f : Mer → Mer) : (s.modMer f).cke = s.cke := rfl
@[simp] theorem State.modMer_rep (s : State) (f : Mer → Mer) : (s.modMer f).rep = s.rep := rfl
@[simp] theorem State.modMer_cal (s : State) (f : Mer → Mer) : (s.modMer f).cal = s.cal := rfl
@[simp] theorem State.modMer_bist (s : State) (f : Mer → Mer) : (s.modMer f).bist = s.bist := rfl
@[simp] theorem State.modMer_ring (s : State) (f : Mer → Mer) : (s.modMer f).ring = s.ring := rfl
@[simp] theorem State.modMer_pins (s : State) (f : Mer → Mer) : (s.modMer f).pins = s.pins := rfl
@[simp] theorem State.modMer_tp (s : State) (f : Mer → Mer) : (s.modMer f).tp = s.tp := rfl
@[simp] theorem State.modMer_freeCount (s : State) (f : Mer → Mer) : (s.modMer f).freeCount = s.freeCount := rfl
@[simp] theorem modPins_pending (s : State) (f : Pins → Pins) : (modPins s f).pending = s.pending := rfl
@[simp] theorem modPins_csr (s : State) (f : Pins → Pins) : (modPins s f).csr = s.csr := rfl
@[simp] theorem modPins_sA (s : State) (f : Pins → Pins) : (modPins s f).sA = s.sA := rfl
@[simp] theorem modPins_sX (s : State) (f : Pins → Pins) : (modPins s f).sX = s.sX := rfl
@[simp] theorem modPins_vec (s : State) (f : Pins → Pins) : (modPins s f).vec = s.vec := rfl
@[simp] theorem modPins_spm (s : State) (f : Pins → Pins) : (modPins s f).spm = s.spm := rfl
@[simp] theorem modPins_qsy (s : State) (f : Pins → Pins) : (modPins s f).qsy = s.qsy := rfl
@[simp] theorem modPins_bars (s : State) (f : Pins → Pins) : (modPins s f).bars = s.bars := rfl
@[simp] theorem modPins_chans (s : State) (f : Pins → Pins) : (modPins s f).chans = s.chans := rfl
@[simp] theorem modPins_fab (s : State) (f : Pins → Pins) : (modPins s f).fab = s.fab := rfl
@[simp] theorem modPins_imem (s : State) (f : Pins → Pins) : (modPins s f).imem = s.imem := rfl
@[simp] theorem modPins_mer (s : State) (f : Pins → Pins) : (modPins s f).mer = s.mer := rfl
@[simp] theorem modPins_cA (s : State) (f : Pins → Pins) : (modPins s f).cA = s.cA := rfl
@[simp] theorem modPins_cX (s : State) (f : Pins → Pins) : (modPins s f).cX = s.cX := rfl
@[simp] theorem modPins_rounds (s : State) (f : Pins → Pins) : (modPins s f).rounds = s.rounds := rfl
@[simp] theorem modPins_trk (s : State) (f : Pins → Pins) : (modPins s f).trk = s.trk := rfl
@[simp] theorem modPins_arr (s : State) (f : Pins → Pins) : (modPins s f).arr = s.arr := rfl
@[simp] theorem modPins_orr (s : State) (f : Pins → Pins) : (modPins s f).orr = s.orr := rfl
@[simp] theorem modPins_keys (s : State) (f : Pins → Pins) : (modPins s f).keys = s.keys := rfl
@[simp] theorem modPins_cke (s : State) (f : Pins → Pins) : (modPins s f).cke = s.cke := rfl
@[simp] theorem modPins_rep (s : State) (f : Pins → Pins) : (modPins s f).rep = s.rep := rfl
@[simp] theorem modPins_cal (s : State) (f : Pins → Pins) : (modPins s f).cal = s.cal := rfl
@[simp] theorem modPins_bist (s : State) (f : Pins → Pins) : (modPins s f).bist = s.bist := rfl
@[simp] theorem modPins_ring (s : State) (f : Pins → Pins) : (modPins s f).ring = s.ring := rfl
@[simp] theorem modPins_tp (s : State) (f : Pins → Pins) : (modPins s f).tp = s.tp := rfl
@[simp] theorem modPins_freeCount (s : State) (f : Pins → Pins) : (modPins s f).freeCount = s.freeCount := rfl
@[simp] theorem State.ringOut_pending (s : State) (p : List W64) : (s.ringOut p).pending = s.pending := rfl
@[simp] theorem State.ringOut_csr (s : State) (p : List W64) : (s.ringOut p).csr = s.csr := rfl
@[simp] theorem State.ringOut_sA (s : State) (p : List W64) : (s.ringOut p).sA = s.sA := rfl
@[simp] theorem State.ringOut_sX (s : State) (p : List W64) : (s.ringOut p).sX = s.sX := rfl
@[simp] theorem State.ringOut_vec (s : State) (p : List W64) : (s.ringOut p).vec = s.vec := rfl
@[simp] theorem State.ringOut_spm (s : State) (p : List W64) : (s.ringOut p).spm = s.spm := rfl
@[simp] theorem State.ringOut_qsy (s : State) (p : List W64) : (s.ringOut p).qsy = s.qsy := rfl
@[simp] theorem State.ringOut_bars (s : State) (p : List W64) : (s.ringOut p).bars = s.bars := rfl
@[simp] theorem State.ringOut_chans (s : State) (p : List W64) : (s.ringOut p).chans = s.chans := rfl
@[simp] theorem State.ringOut_fab (s : State) (p : List W64) : (s.ringOut p).fab = s.fab := rfl
@[simp] theorem State.ringOut_imem (s : State) (p : List W64) : (s.ringOut p).imem = s.imem := rfl
@[simp] theorem State.ringOut_mer (s : State) (p : List W64) : (s.ringOut p).mer = s.mer := rfl
@[simp] theorem State.ringOut_cA (s : State) (p : List W64) : (s.ringOut p).cA = s.cA := rfl
@[simp] theorem State.ringOut_cX (s : State) (p : List W64) : (s.ringOut p).cX = s.cX := rfl
@[simp] theorem State.ringOut_rounds (s : State) (p : List W64) : (s.ringOut p).rounds = s.rounds := rfl
@[simp] theorem State.ringOut_trk (s : State) (p : List W64) : (s.ringOut p).trk = s.trk := rfl
@[simp] theorem State.ringOut_arr (s : State) (p : List W64) : (s.ringOut p).arr = s.arr := rfl
@[simp] theorem State.ringOut_orr (s : State) (p : List W64) : (s.ringOut p).orr = s.orr := rfl
@[simp] theorem State.ringOut_keys (s : State) (p : List W64) : (s.ringOut p).keys = s.keys := rfl
@[simp] theorem State.ringOut_cke (s : State) (p : List W64) : (s.ringOut p).cke = s.cke := rfl
@[simp] theorem State.ringOut_rep (s : State) (p : List W64) : (s.ringOut p).rep = s.rep := rfl
@[simp] theorem State.ringOut_cal (s : State) (p : List W64) : (s.ringOut p).cal = s.cal := rfl
@[simp] theorem State.ringOut_bist (s : State) (p : List W64) : (s.ringOut p).bist = s.bist := rfl
@[simp] theorem State.ringOut_pins (s : State) (p : List W64) : (s.ringOut p).pins = s.pins := rfl
@[simp] theorem State.ringOut_tp (s : State) (p : List W64) : (s.ringOut p).tp = s.tp := rfl
@[simp] theorem State.ringOut_freeCount (s : State) (p : List W64) : (s.ringOut p).freeCount = s.freeCount := rfl
@[simp] theorem State.setSched_pending (s : State) (n : Nat) (x : Sched) : (s.setSched n x).pending = s.pending := rfl
@[simp] theorem State.setSched_csr (s : State) (n : Nat) (x : Sched) : (s.setSched n x).csr = s.csr := rfl
@[simp] theorem State.setSched_sA (s : State) (n : Nat) (x : Sched) : (s.setSched n x).sA = s.sA := rfl
@[simp] theorem State.setSched_sX (s : State) (n : Nat) (x : Sched) : (s.setSched n x).sX = s.sX := rfl
@[simp] theorem State.setSched_vec (s : State) (n : Nat) (x : Sched) : (s.setSched n x).vec = s.vec := rfl
@[simp] theorem State.setSched_spm (s : State) (n : Nat) (x : Sched) : (s.setSched n x).spm = s.spm := rfl
@[simp] theorem State.setSched_qsy (s : State) (n : Nat) (x : Sched) : (s.setSched n x).qsy = s.qsy := rfl
@[simp] theorem State.setSched_bars (s : State) (n : Nat) (x : Sched) : (s.setSched n x).bars = s.bars := rfl
@[simp] theorem State.setSched_chans (s : State) (n : Nat) (x : Sched) : (s.setSched n x).chans = s.chans := rfl
@[simp] theorem State.setSched_fab (s : State) (n : Nat) (x : Sched) : (s.setSched n x).fab = s.fab := rfl
@[simp] theorem State.setSched_imem (s : State) (n : Nat) (x : Sched) : (s.setSched n x).imem = s.imem := rfl
@[simp] theorem State.setSched_mer (s : State) (n : Nat) (x : Sched) : (s.setSched n x).mer = s.mer := rfl
@[simp] theorem State.setSched_cA (s : State) (n : Nat) (x : Sched) : (s.setSched n x).cA = s.cA := rfl
@[simp] theorem State.setSched_cX (s : State) (n : Nat) (x : Sched) : (s.setSched n x).cX = s.cX := rfl
@[simp] theorem State.setSched_rounds (s : State) (n : Nat) (x : Sched) : (s.setSched n x).rounds = s.rounds := rfl
@[simp] theorem State.setSched_trk (s : State) (n : Nat) (x : Sched) : (s.setSched n x).trk = s.trk := rfl
@[simp] theorem State.setSched_arr (s : State) (n : Nat) (x : Sched) : (s.setSched n x).arr = s.arr := rfl
@[simp] theorem State.setSched_keys (s : State) (n : Nat) (x : Sched) : (s.setSched n x).keys = s.keys := rfl
@[simp] theorem State.setSched_cke (s : State) (n : Nat) (x : Sched) : (s.setSched n x).cke = s.cke := rfl
@[simp] theorem State.setSched_rep (s : State) (n : Nat) (x : Sched) : (s.setSched n x).rep = s.rep := rfl
@[simp] theorem State.setSched_cal (s : State) (n : Nat) (x : Sched) : (s.setSched n x).cal = s.cal := rfl
@[simp] theorem State.setSched_bist (s : State) (n : Nat) (x : Sched) : (s.setSched n x).bist = s.bist := rfl
@[simp] theorem State.setSched_ring (s : State) (n : Nat) (x : Sched) : (s.setSched n x).ring = s.ring := rfl
@[simp] theorem State.setSched_pins (s : State) (n : Nat) (x : Sched) : (s.setSched n x).pins = s.pins := rfl
@[simp] theorem State.setSched_tp (s : State) (n : Nat) (x : Sched) : (s.setSched n x).tp = s.tp := rfl
@[simp] theorem State.setSched_freeCount (s : State) (n : Nat) (x : Sched) : (s.setSched n x).freeCount = s.freeCount := rfl

/-! ### Updates built from them -/

@[simp] theorem State.raise_pending (s : State) (src : Nat) : (s.raise src).pending = s.pending := by unfold State.raise; dsimp only; split <;> rfl
@[simp] theorem State.raise_sA (s : State) (src : Nat) : (s.raise src).sA = s.sA := by unfold State.raise; dsimp only; split <;> rfl
@[simp] theorem State.raise_sX (s : State) (src : Nat) : (s.raise src).sX = s.sX := by unfold State.raise; dsimp only; split <;> rfl
@[simp] theorem State.raise_vec (s : State) (src : Nat) : (s.raise src).vec = s.vec := by unfold State.raise; dsimp only; split <;> rfl
@[simp] theorem State.raise_spm (s : State) (src : Nat) : (s.raise src).spm = s.spm := by unfold State.raise; dsimp only; split <;> rfl
@[simp] theorem State.raise_qsy (s : State) (src : Nat) : (s.raise src).qsy = s.qsy := by unfold State.raise; dsimp only; split <;> rfl
@[simp] theorem State.raise_bars (s : State) (src : Nat) : (s.raise src).bars = s.bars := by unfold State.raise; dsimp only; split <;> rfl
@[simp] theorem State.raise_chans (s : State) (src : Nat) : (s.raise src).chans = s.chans := by unfold State.raise; dsimp only; split <;> rfl
@[simp] theorem State.raise_fab (s : State) (src : Nat) : (s.raise src).fab = s.fab := by unfold State.raise; dsimp only; split <;> rfl
@[simp] theorem State.raise_imem (s : State) (src : Nat) : (s.raise src).imem = s.imem := by unfold State.raise; dsimp only; split <;> rfl
@[simp] theorem State.raise_mer (s : State) (src : Nat) : (s.raise src).mer = s.mer := by unfold State.raise; dsimp only; split <;> rfl
@[simp] theorem State.raise_cA (s : State) (src : Nat) : (s.raise src).cA = s.cA := by unfold State.raise; dsimp only; split <;> rfl
@[simp] theorem State.raise_cX (s : State) (src : Nat) : (s.raise src).cX = s.cX := by unfold State.raise; dsimp only; split <;> rfl
@[simp] theorem State.raise_rounds (s : State) (src : Nat) : (s.raise src).rounds = s.rounds := by unfold State.raise; dsimp only; split <;> rfl
@[simp] theorem State.raise_trk (s : State) (src : Nat) : (s.raise src).trk = s.trk := by unfold State.raise; dsimp only; split <;> rfl
@[simp] theorem State.raise_arr (s : State) (src : Nat) : (s.raise src).arr = s.arr := by unfold State.raise; dsimp only; split <;> rfl
@[simp] theorem State.raise_orr (s : State) (src : Nat) : (s.raise src).orr = s.orr := by unfold State.raise; dsimp only; split <;> rfl
@[simp] theorem State.raise_keys (s : State) (src : Nat) : (s.raise src).keys = s.keys := by unfold State.raise; dsimp only; split <;> rfl
@[simp] theorem State.raise_cke (s : State) (src : Nat) : (s.raise src).cke = s.cke := by unfold State.raise; dsimp only; split <;> rfl
@[simp] theorem State.raise_rep (s : State) (src : Nat) : (s.raise src).rep = s.rep := by unfold State.raise; dsimp only; split <;> rfl
@[simp] theorem State.raise_cal (s : State) (src : Nat) : (s.raise src).cal = s.cal := by unfold State.raise; dsimp only; split <;> rfl
@[simp] theorem State.raise_bist (s : State) (src : Nat) : (s.raise src).bist = s.bist := by unfold State.raise; dsimp only; split <;> rfl
@[simp] theorem State.raise_pins (s : State) (src : Nat) : (s.raise src).pins = s.pins := by unfold State.raise; dsimp only; split <;> rfl
@[simp] theorem State.raise_tp (s : State) (src : Nat) : (s.raise src).tp = s.tp := by unfold State.raise; dsimp only; split <;> rfl
@[simp] theorem State.raise_freeCount (s : State) (src : Nat) : (s.raise src).freeCount = s.freeCount := by unfold State.raise; dsimp only; split <;> rfl
@[simp] theorem State.raiseCause_pending (s : State) (src k : Nat) : (s.raiseCause src k).pending = s.pending := by simp [State.raiseCause]
@[simp] theorem State.raiseCause_sA (s : State) (src k : Nat) : (s.raiseCause src k).sA = s.sA := by simp [State.raiseCause]
@[simp] theorem State.raiseCause_sX (s : State) (src k : Nat) : (s.raiseCause src k).sX = s.sX := by simp [State.raiseCause]
@[simp] theorem State.raiseCause_vec (s : State) (src k : Nat) : (s.raiseCause src k).vec = s.vec := by simp [State.raiseCause]
@[simp] theorem State.raiseCause_spm (s : State) (src k : Nat) : (s.raiseCause src k).spm = s.spm := by simp [State.raiseCause]
@[simp] theorem State.raiseCause_qsy (s : State) (src k : Nat) : (s.raiseCause src k).qsy = s.qsy := by simp [State.raiseCause]
@[simp] theorem State.raiseCause_bars (s : State) (src k : Nat) : (s.raiseCause src k).bars = s.bars := by simp [State.raiseCause]
@[simp] theorem State.raiseCause_chans (s : State) (src k : Nat) : (s.raiseCause src k).chans = s.chans := by simp [State.raiseCause]
@[simp] theorem State.raiseCause_fab (s : State) (src k : Nat) : (s.raiseCause src k).fab = s.fab := by simp [State.raiseCause]
@[simp] theorem State.raiseCause_imem (s : State) (src k : Nat) : (s.raiseCause src k).imem = s.imem := by simp [State.raiseCause]
@[simp] theorem State.raiseCause_mer (s : State) (src k : Nat) : (s.raiseCause src k).mer = s.mer := by simp [State.raiseCause]
@[simp] theorem State.raiseCause_cA (s : State) (src k : Nat) : (s.raiseCause src k).cA = s.cA := by simp [State.raiseCause]
@[simp] theorem State.raiseCause_cX (s : State) (src k : Nat) : (s.raiseCause src k).cX = s.cX := by simp [State.raiseCause]
@[simp] theorem State.raiseCause_rounds (s : State) (src k : Nat) : (s.raiseCause src k).rounds = s.rounds := by simp [State.raiseCause]
@[simp] theorem State.raiseCause_trk (s : State) (src k : Nat) : (s.raiseCause src k).trk = s.trk := by simp [State.raiseCause]
@[simp] theorem State.raiseCause_arr (s : State) (src k : Nat) : (s.raiseCause src k).arr = s.arr := by simp [State.raiseCause]
@[simp] theorem State.raiseCause_orr (s : State) (src k : Nat) : (s.raiseCause src k).orr = s.orr := by simp [State.raiseCause]
@[simp] theorem State.raiseCause_keys (s : State) (src k : Nat) : (s.raiseCause src k).keys = s.keys := by simp [State.raiseCause]
@[simp] theorem State.raiseCause_cke (s : State) (src k : Nat) : (s.raiseCause src k).cke = s.cke := by simp [State.raiseCause]
@[simp] theorem State.raiseCause_rep (s : State) (src k : Nat) : (s.raiseCause src k).rep = s.rep := by simp [State.raiseCause]
@[simp] theorem State.raiseCause_cal (s : State) (src k : Nat) : (s.raiseCause src k).cal = s.cal := by simp [State.raiseCause]
@[simp] theorem State.raiseCause_bist (s : State) (src k : Nat) : (s.raiseCause src k).bist = s.bist := by simp [State.raiseCause]
@[simp] theorem State.raiseCause_pins (s : State) (src k : Nat) : (s.raiseCause src k).pins = s.pins := by simp [State.raiseCause]
@[simp] theorem State.raiseCause_tp (s : State) (src k : Nat) : (s.raiseCause src k).tp = s.tp := by simp [State.raiseCause]
@[simp] theorem State.raiseCause_freeCount (s : State) (src k : Nat) : (s.raiseCause src k).freeCount = s.freeCount := by simp [State.raiseCause]
@[simp] theorem State.perf_pending (s : State) (n k : Nat) : (s.perf n k).pending = s.pending := by
  simp only [State.perf, apply_ite State.pending, State.raise_pending, State.setRf_pending, State.incRf_pending, ite_self]
@[simp] theorem State.perf_sA (s : State) (n k : Nat) : (s.perf n k).sA = s.sA := by
  simp only [State.perf, apply_ite State.sA, State.raise_sA, State.setRf_sA, State.incRf_sA, ite_self]
@[simp] theorem State.perf_sX (s : State) (n k : Nat) : (s.perf n k).sX = s.sX := by
  simp only [State.perf, apply_ite State.sX, State.raise_sX, State.setRf_sX, State.incRf_sX, ite_self]
@[simp] theorem State.perf_vec (s : State) (n k : Nat) : (s.perf n k).vec = s.vec := by
  simp only [State.perf, apply_ite State.vec, State.raise_vec, State.setRf_vec, State.incRf_vec, ite_self]
@[simp] theorem State.perf_spm (s : State) (n k : Nat) : (s.perf n k).spm = s.spm := by
  simp only [State.perf, apply_ite State.spm, State.raise_spm, State.setRf_spm, State.incRf_spm, ite_self]
@[simp] theorem State.perf_qsy (s : State) (n k : Nat) : (s.perf n k).qsy = s.qsy := by
  simp only [State.perf, apply_ite State.qsy, State.raise_qsy, State.setRf_qsy, State.incRf_qsy, ite_self]
@[simp] theorem State.perf_bars (s : State) (n k : Nat) : (s.perf n k).bars = s.bars := by
  simp only [State.perf, apply_ite State.bars, State.raise_bars, State.setRf_bars, State.incRf_bars, ite_self]
@[simp] theorem State.perf_chans (s : State) (n k : Nat) : (s.perf n k).chans = s.chans := by
  simp only [State.perf, apply_ite State.chans, State.raise_chans, State.setRf_chans, State.incRf_chans, ite_self]
@[simp] theorem State.perf_fab (s : State) (n k : Nat) : (s.perf n k).fab = s.fab := by
  simp only [State.perf, apply_ite State.fab, State.raise_fab, State.setRf_fab, State.incRf_fab, ite_self]
@[simp] theorem State.perf_imem (s : State) (n k : Nat) : (s.perf n k).imem = s.imem := by
  simp only [State.perf, apply_ite State.imem, State.raise_imem, State.setRf_imem, State.incRf_imem, ite_self]
@[simp] theorem State.perf_mer (s : State) (n k : Nat) : (s.perf n k).mer = s.mer := by
  simp only [State.perf, apply_ite State.mer, State.raise_mer, State.setRf_mer, State.incRf_mer, ite_self]
@[simp] theorem State.perf_cA (s : State) (n k : Nat) : (s.perf n k).cA = s.cA := by
  simp only [State.perf, apply_ite State.cA, State.raise_cA, State.setRf_cA, State.incRf_cA, ite_self]
@[simp] theorem State.perf_cX (s : State) (n k : Nat) : (s.perf n k).cX = s.cX := by
  simp only [State.perf, apply_ite State.cX, State.raise_cX, State.setRf_cX, State.incRf_cX, ite_self]
@[simp] theorem State.perf_rounds (s : State) (n k : Nat) : (s.perf n k).rounds = s.rounds := by
  simp only [State.perf, apply_ite State.rounds, State.raise_rounds, State.setRf_rounds, State.incRf_rounds, ite_self]
@[simp] theorem State.perf_trk (s : State) (n k : Nat) : (s.perf n k).trk = s.trk := by
  simp only [State.perf, apply_ite State.trk, State.raise_trk, State.setRf_trk, State.incRf_trk, ite_self]
@[simp] theorem State.perf_arr (s : State) (n k : Nat) : (s.perf n k).arr = s.arr := by
  simp only [State.perf, apply_ite State.arr, State.raise_arr, State.setRf_arr, State.incRf_arr, ite_self]
@[simp] theorem State.perf_orr (s : State) (n k : Nat) : (s.perf n k).orr = s.orr := by
  simp only [State.perf, apply_ite State.orr, State.raise_orr, State.setRf_orr, State.incRf_orr, ite_self]
@[simp] theorem State.perf_keys (s : State) (n k : Nat) : (s.perf n k).keys = s.keys := by
  simp only [State.perf, apply_ite State.keys, State.raise_keys, State.setRf_keys, State.incRf_keys, ite_self]
@[simp] theorem State.perf_cke (s : State) (n k : Nat) : (s.perf n k).cke = s.cke := by
  simp only [State.perf, apply_ite State.cke, State.raise_cke, State.setRf_cke, State.incRf_cke, ite_self]
@[simp] theorem State.perf_rep (s : State) (n k : Nat) : (s.perf n k).rep = s.rep := by
  simp only [State.perf, apply_ite State.rep, State.raise_rep, State.setRf_rep, State.incRf_rep, ite_self]
@[simp] theorem State.perf_cal (s : State) (n k : Nat) : (s.perf n k).cal = s.cal := by
  simp only [State.perf, apply_ite State.cal, State.raise_cal, State.setRf_cal, State.incRf_cal, ite_self]
@[simp] theorem State.perf_bist (s : State) (n k : Nat) : (s.perf n k).bist = s.bist := by
  simp only [State.perf, apply_ite State.bist, State.raise_bist, State.setRf_bist, State.incRf_bist, ite_self]
@[simp] theorem State.perf_pins (s : State) (n k : Nat) : (s.perf n k).pins = s.pins := by
  simp only [State.perf, apply_ite State.pins, State.raise_pins, State.setRf_pins, State.incRf_pins, ite_self]
@[simp] theorem State.perf_tp (s : State) (n k : Nat) : (s.perf n k).tp = s.tp := by
  simp only [State.perf, apply_ite State.tp, State.raise_tp, State.setRf_tp, State.incRf_tp, ite_self]
@[simp] theorem State.perf_freeCount (s : State) (n k : Nat) : (s.perf n k).freeCount = s.freeCount := by
  simp only [State.perf, apply_ite State.freeCount, State.raise_freeCount, State.setRf_freeCount, State.incRf_freeCount, ite_self]
@[simp] theorem State.faultPut_pending (s : State) (i : Nat) (w loc : W64) : (s.faultPut i w loc).pending = s.pending := rfl
@[simp] theorem State.faultPut_sA (s : State) (i : Nat) (w loc : W64) : (s.faultPut i w loc).sA = s.sA := rfl
@[simp] theorem State.faultPut_sX (s : State) (i : Nat) (w loc : W64) : (s.faultPut i w loc).sX = s.sX := rfl
@[simp] theorem State.faultPut_vec (s : State) (i : Nat) (w loc : W64) : (s.faultPut i w loc).vec = s.vec := rfl
@[simp] theorem State.faultPut_spm (s : State) (i : Nat) (w loc : W64) : (s.faultPut i w loc).spm = s.spm := rfl
@[simp] theorem State.faultPut_qsy (s : State) (i : Nat) (w loc : W64) : (s.faultPut i w loc).qsy = s.qsy := rfl
@[simp] theorem State.faultPut_bars (s : State) (i : Nat) (w loc : W64) : (s.faultPut i w loc).bars = s.bars := rfl
@[simp] theorem State.faultPut_chans (s : State) (i : Nat) (w loc : W64) : (s.faultPut i w loc).chans = s.chans := rfl
@[simp] theorem State.faultPut_fab (s : State) (i : Nat) (w loc : W64) : (s.faultPut i w loc).fab = s.fab := rfl
@[simp] theorem State.faultPut_imem (s : State) (i : Nat) (w loc : W64) : (s.faultPut i w loc).imem = s.imem := rfl
@[simp] theorem State.faultPut_mer (s : State) (i : Nat) (w loc : W64) : (s.faultPut i w loc).mer = s.mer := rfl
@[simp] theorem State.faultPut_cA (s : State) (i : Nat) (w loc : W64) : (s.faultPut i w loc).cA = s.cA := rfl
@[simp] theorem State.faultPut_cX (s : State) (i : Nat) (w loc : W64) : (s.faultPut i w loc).cX = s.cX := rfl
@[simp] theorem State.faultPut_rounds (s : State) (i : Nat) (w loc : W64) : (s.faultPut i w loc).rounds = s.rounds := rfl
@[simp] theorem State.faultPut_trk (s : State) (i : Nat) (w loc : W64) : (s.faultPut i w loc).trk = s.trk := rfl
@[simp] theorem State.faultPut_arr (s : State) (i : Nat) (w loc : W64) : (s.faultPut i w loc).arr = s.arr := rfl
@[simp] theorem State.faultPut_orr (s : State) (i : Nat) (w loc : W64) : (s.faultPut i w loc).orr = s.orr := rfl
@[simp] theorem State.faultPut_keys (s : State) (i : Nat) (w loc : W64) : (s.faultPut i w loc).keys = s.keys := rfl
@[simp] theorem State.faultPut_cke (s : State) (i : Nat) (w loc : W64) : (s.faultPut i w loc).cke = s.cke := rfl
@[simp] theorem State.faultPut_rep (s : State) (i : Nat) (w loc : W64) : (s.faultPut i w loc).rep = s.rep := rfl
@[simp] theorem State.faultPut_cal (s : State) (i : Nat) (w loc : W64) : (s.faultPut i w loc).cal = s.cal := rfl
@[simp] theorem State.faultPut_bist (s : State) (i : Nat) (w loc : W64) : (s.faultPut i w loc).bist = s.bist := rfl
@[simp] theorem State.faultPut_ring (s : State) (i : Nat) (w loc : W64) : (s.faultPut i w loc).ring = s.ring := rfl
@[simp] theorem State.faultPut_pins (s : State) (i : Nat) (w loc : W64) : (s.faultPut i w loc).pins = s.pins := rfl
@[simp] theorem State.faultPut_tp (s : State) (i : Nat) (w loc : W64) : (s.faultPut i w loc).tp = s.tp := rfl
@[simp] theorem State.faultPut_freeCount (s : State) (i : Nat) (w loc : W64) : (s.faultPut i w loc).freeCount = s.freeCount := rfl
@[simp] theorem State.faultLog_pending (s : State) (w loc : W64) : (s.faultLog w loc).pending = s.pending := by
  simp only [State.faultLog, apply_ite State.pending, State.raise_pending, State.setRf_pending, State.faultPut_pending, State.incRf_pending, ite_self]
@[simp] theorem State.faultLog_sA (s : State) (w loc : W64) : (s.faultLog w loc).sA = s.sA := by
  simp only [State.faultLog, apply_ite State.sA, State.raise_sA, State.setRf_sA, State.faultPut_sA, State.incRf_sA, ite_self]
@[simp] theorem State.faultLog_sX (s : State) (w loc : W64) : (s.faultLog w loc).sX = s.sX := by
  simp only [State.faultLog, apply_ite State.sX, State.raise_sX, State.setRf_sX, State.faultPut_sX, State.incRf_sX, ite_self]
@[simp] theorem State.faultLog_vec (s : State) (w loc : W64) : (s.faultLog w loc).vec = s.vec := by
  simp only [State.faultLog, apply_ite State.vec, State.raise_vec, State.setRf_vec, State.faultPut_vec, State.incRf_vec, ite_self]
@[simp] theorem State.faultLog_spm (s : State) (w loc : W64) : (s.faultLog w loc).spm = s.spm := by
  simp only [State.faultLog, apply_ite State.spm, State.raise_spm, State.setRf_spm, State.faultPut_spm, State.incRf_spm, ite_self]
@[simp] theorem State.faultLog_qsy (s : State) (w loc : W64) : (s.faultLog w loc).qsy = s.qsy := by
  simp only [State.faultLog, apply_ite State.qsy, State.raise_qsy, State.setRf_qsy, State.faultPut_qsy, State.incRf_qsy, ite_self]
@[simp] theorem State.faultLog_bars (s : State) (w loc : W64) : (s.faultLog w loc).bars = s.bars := by
  simp only [State.faultLog, apply_ite State.bars, State.raise_bars, State.setRf_bars, State.faultPut_bars, State.incRf_bars, ite_self]
@[simp] theorem State.faultLog_chans (s : State) (w loc : W64) : (s.faultLog w loc).chans = s.chans := by
  simp only [State.faultLog, apply_ite State.chans, State.raise_chans, State.setRf_chans, State.faultPut_chans, State.incRf_chans, ite_self]
@[simp] theorem State.faultLog_fab (s : State) (w loc : W64) : (s.faultLog w loc).fab = s.fab := by
  simp only [State.faultLog, apply_ite State.fab, State.raise_fab, State.setRf_fab, State.faultPut_fab, State.incRf_fab, ite_self]
@[simp] theorem State.faultLog_imem (s : State) (w loc : W64) : (s.faultLog w loc).imem = s.imem := by
  simp only [State.faultLog, apply_ite State.imem, State.raise_imem, State.setRf_imem, State.faultPut_imem, State.incRf_imem, ite_self]
@[simp] theorem State.faultLog_mer (s : State) (w loc : W64) : (s.faultLog w loc).mer = s.mer := by
  simp only [State.faultLog, apply_ite State.mer, State.raise_mer, State.setRf_mer, State.faultPut_mer, State.incRf_mer, ite_self]
@[simp] theorem State.faultLog_cA (s : State) (w loc : W64) : (s.faultLog w loc).cA = s.cA := by
  simp only [State.faultLog, apply_ite State.cA, State.raise_cA, State.setRf_cA, State.faultPut_cA, State.incRf_cA, ite_self]
@[simp] theorem State.faultLog_cX (s : State) (w loc : W64) : (s.faultLog w loc).cX = s.cX := by
  simp only [State.faultLog, apply_ite State.cX, State.raise_cX, State.setRf_cX, State.faultPut_cX, State.incRf_cX, ite_self]
@[simp] theorem State.faultLog_rounds (s : State) (w loc : W64) : (s.faultLog w loc).rounds = s.rounds := by
  simp only [State.faultLog, apply_ite State.rounds, State.raise_rounds, State.setRf_rounds, State.faultPut_rounds, State.incRf_rounds, ite_self]
@[simp] theorem State.faultLog_trk (s : State) (w loc : W64) : (s.faultLog w loc).trk = s.trk := by
  simp only [State.faultLog, apply_ite State.trk, State.raise_trk, State.setRf_trk, State.faultPut_trk, State.incRf_trk, ite_self]
@[simp] theorem State.faultLog_arr (s : State) (w loc : W64) : (s.faultLog w loc).arr = s.arr := by
  simp only [State.faultLog, apply_ite State.arr, State.raise_arr, State.setRf_arr, State.faultPut_arr, State.incRf_arr, ite_self]
@[simp] theorem State.faultLog_orr (s : State) (w loc : W64) : (s.faultLog w loc).orr = s.orr := by
  simp only [State.faultLog, apply_ite State.orr, State.raise_orr, State.setRf_orr, State.faultPut_orr, State.incRf_orr, ite_self]
@[simp] theorem State.faultLog_keys (s : State) (w loc : W64) : (s.faultLog w loc).keys = s.keys := by
  simp only [State.faultLog, apply_ite State.keys, State.raise_keys, State.setRf_keys, State.faultPut_keys, State.incRf_keys, ite_self]
@[simp] theorem State.faultLog_cke (s : State) (w loc : W64) : (s.faultLog w loc).cke = s.cke := by
  simp only [State.faultLog, apply_ite State.cke, State.raise_cke, State.setRf_cke, State.faultPut_cke, State.incRf_cke, ite_self]
@[simp] theorem State.faultLog_rep (s : State) (w loc : W64) : (s.faultLog w loc).rep = s.rep := by
  simp only [State.faultLog, apply_ite State.rep, State.raise_rep, State.setRf_rep, State.faultPut_rep, State.incRf_rep, ite_self]
@[simp] theorem State.faultLog_cal (s : State) (w loc : W64) : (s.faultLog w loc).cal = s.cal := by
  simp only [State.faultLog, apply_ite State.cal, State.raise_cal, State.setRf_cal, State.faultPut_cal, State.incRf_cal, ite_self]
@[simp] theorem State.faultLog_bist (s : State) (w loc : W64) : (s.faultLog w loc).bist = s.bist := by
  simp only [State.faultLog, apply_ite State.bist, State.raise_bist, State.setRf_bist, State.faultPut_bist, State.incRf_bist, ite_self]
@[simp] theorem State.faultLog_pins (s : State) (w loc : W64) : (s.faultLog w loc).pins = s.pins := by
  simp only [State.faultLog, apply_ite State.pins, State.raise_pins, State.setRf_pins, State.faultPut_pins, State.incRf_pins, ite_self]
@[simp] theorem State.faultLog_tp (s : State) (w loc : W64) : (s.faultLog w loc).tp = s.tp := by
  simp only [State.faultLog, apply_ite State.tp, State.raise_tp, State.setRf_tp, State.faultPut_tp, State.incRf_tp, ite_self]
@[simp] theorem State.faultLog_freeCount (s : State) (w loc : W64) : (s.faultLog w loc).freeCount = s.freeCount := by
  simp only [State.faultLog, apply_ite State.freeCount, State.raise_freeCount, State.setRf_freeCount, State.faultPut_freeCount, State.incRf_freeCount, ite_self]
@[simp] theorem State.fault_pending (s : State) (unit kind : Nat) (who : Option (Sid × W16)) (loc : Nat) : (s.fault unit kind who loc).pending = s.pending := by rw [State.fault, State.faultLog_pending]
@[simp] theorem State.fault_sA (s : State) (unit kind : Nat) (who : Option (Sid × W16)) (loc : Nat) : (s.fault unit kind who loc).sA = s.sA := by rw [State.fault, State.faultLog_sA]
@[simp] theorem State.fault_sX (s : State) (unit kind : Nat) (who : Option (Sid × W16)) (loc : Nat) : (s.fault unit kind who loc).sX = s.sX := by rw [State.fault, State.faultLog_sX]
@[simp] theorem State.fault_vec (s : State) (unit kind : Nat) (who : Option (Sid × W16)) (loc : Nat) : (s.fault unit kind who loc).vec = s.vec := by rw [State.fault, State.faultLog_vec]
@[simp] theorem State.fault_spm (s : State) (unit kind : Nat) (who : Option (Sid × W16)) (loc : Nat) : (s.fault unit kind who loc).spm = s.spm := by rw [State.fault, State.faultLog_spm]
@[simp] theorem State.fault_qsy (s : State) (unit kind : Nat) (who : Option (Sid × W16)) (loc : Nat) : (s.fault unit kind who loc).qsy = s.qsy := by rw [State.fault, State.faultLog_qsy]
@[simp] theorem State.fault_bars (s : State) (unit kind : Nat) (who : Option (Sid × W16)) (loc : Nat) : (s.fault unit kind who loc).bars = s.bars := by rw [State.fault, State.faultLog_bars]
@[simp] theorem State.fault_chans (s : State) (unit kind : Nat) (who : Option (Sid × W16)) (loc : Nat) : (s.fault unit kind who loc).chans = s.chans := by rw [State.fault, State.faultLog_chans]
@[simp] theorem State.fault_fab (s : State) (unit kind : Nat) (who : Option (Sid × W16)) (loc : Nat) : (s.fault unit kind who loc).fab = s.fab := by rw [State.fault, State.faultLog_fab]
@[simp] theorem State.fault_imem (s : State) (unit kind : Nat) (who : Option (Sid × W16)) (loc : Nat) : (s.fault unit kind who loc).imem = s.imem := by rw [State.fault, State.faultLog_imem]
@[simp] theorem State.fault_mer (s : State) (unit kind : Nat) (who : Option (Sid × W16)) (loc : Nat) : (s.fault unit kind who loc).mer = s.mer := by rw [State.fault, State.faultLog_mer]
@[simp] theorem State.fault_cA (s : State) (unit kind : Nat) (who : Option (Sid × W16)) (loc : Nat) : (s.fault unit kind who loc).cA = s.cA := by rw [State.fault, State.faultLog_cA]
@[simp] theorem State.fault_cX (s : State) (unit kind : Nat) (who : Option (Sid × W16)) (loc : Nat) : (s.fault unit kind who loc).cX = s.cX := by rw [State.fault, State.faultLog_cX]
@[simp] theorem State.fault_rounds (s : State) (unit kind : Nat) (who : Option (Sid × W16)) (loc : Nat) : (s.fault unit kind who loc).rounds = s.rounds := by rw [State.fault, State.faultLog_rounds]
@[simp] theorem State.fault_trk (s : State) (unit kind : Nat) (who : Option (Sid × W16)) (loc : Nat) : (s.fault unit kind who loc).trk = s.trk := by rw [State.fault, State.faultLog_trk]
@[simp] theorem State.fault_arr (s : State) (unit kind : Nat) (who : Option (Sid × W16)) (loc : Nat) : (s.fault unit kind who loc).arr = s.arr := by rw [State.fault, State.faultLog_arr]
@[simp] theorem State.fault_orr (s : State) (unit kind : Nat) (who : Option (Sid × W16)) (loc : Nat) : (s.fault unit kind who loc).orr = s.orr := by rw [State.fault, State.faultLog_orr]
@[simp] theorem State.fault_keys (s : State) (unit kind : Nat) (who : Option (Sid × W16)) (loc : Nat) : (s.fault unit kind who loc).keys = s.keys := by rw [State.fault, State.faultLog_keys]
@[simp] theorem State.fault_cke (s : State) (unit kind : Nat) (who : Option (Sid × W16)) (loc : Nat) : (s.fault unit kind who loc).cke = s.cke := by rw [State.fault, State.faultLog_cke]
@[simp] theorem State.fault_rep (s : State) (unit kind : Nat) (who : Option (Sid × W16)) (loc : Nat) : (s.fault unit kind who loc).rep = s.rep := by rw [State.fault, State.faultLog_rep]
@[simp] theorem State.fault_cal (s : State) (unit kind : Nat) (who : Option (Sid × W16)) (loc : Nat) : (s.fault unit kind who loc).cal = s.cal := by rw [State.fault, State.faultLog_cal]
@[simp] theorem State.fault_bist (s : State) (unit kind : Nat) (who : Option (Sid × W16)) (loc : Nat) : (s.fault unit kind who loc).bist = s.bist := by rw [State.fault, State.faultLog_bist]
@[simp] theorem State.fault_pins (s : State) (unit kind : Nat) (who : Option (Sid × W16)) (loc : Nat) : (s.fault unit kind who loc).pins = s.pins := by rw [State.fault, State.faultLog_pins]
@[simp] theorem State.fault_tp (s : State) (unit kind : Nat) (who : Option (Sid × W16)) (loc : Nat) : (s.fault unit kind who loc).tp = s.tp := by rw [State.fault, State.faultLog_tp]
@[simp] theorem State.fault_freeCount (s : State) (unit kind : Nat) (who : Option (Sid × W16)) (loc : Nat) : (s.fault unit kind who loc).freeCount = s.freeCount := by rw [State.fault, State.faultLog_freeCount]
@[simp] theorem State.wrRegs_pending (s : State) (st : Sid) (ws : List RegWr) : (s.wrRegs st ws).pending = s.pending := by simp [State.wrRegs]
@[simp] theorem State.wrRegs_csr (s : State) (st : Sid) (ws : List RegWr) : (s.wrRegs st ws).csr = s.csr := by simp [State.wrRegs]
@[simp] theorem State.wrRegs_vec (s : State) (st : Sid) (ws : List RegWr) : (s.wrRegs st ws).vec = s.vec := by simp [State.wrRegs]
@[simp] theorem State.wrRegs_spm (s : State) (st : Sid) (ws : List RegWr) : (s.wrRegs st ws).spm = s.spm := by simp [State.wrRegs]
@[simp] theorem State.wrRegs_qsy (s : State) (st : Sid) (ws : List RegWr) : (s.wrRegs st ws).qsy = s.qsy := by simp [State.wrRegs]
@[simp] theorem State.wrRegs_bars (s : State) (st : Sid) (ws : List RegWr) : (s.wrRegs st ws).bars = s.bars := by simp [State.wrRegs]
@[simp] theorem State.wrRegs_chans (s : State) (st : Sid) (ws : List RegWr) : (s.wrRegs st ws).chans = s.chans := by simp [State.wrRegs]
@[simp] theorem State.wrRegs_fab (s : State) (st : Sid) (ws : List RegWr) : (s.wrRegs st ws).fab = s.fab := by simp [State.wrRegs]
@[simp] theorem State.wrRegs_imem (s : State) (st : Sid) (ws : List RegWr) : (s.wrRegs st ws).imem = s.imem := by simp [State.wrRegs]
@[simp] theorem State.wrRegs_mer (s : State) (st : Sid) (ws : List RegWr) : (s.wrRegs st ws).mer = s.mer := by simp [State.wrRegs]
@[simp] theorem State.wrRegs_cA (s : State) (st : Sid) (ws : List RegWr) : (s.wrRegs st ws).cA = s.cA := by simp [State.wrRegs]
@[simp] theorem State.wrRegs_cX (s : State) (st : Sid) (ws : List RegWr) : (s.wrRegs st ws).cX = s.cX := by simp [State.wrRegs]
@[simp] theorem State.wrRegs_rounds (s : State) (st : Sid) (ws : List RegWr) : (s.wrRegs st ws).rounds = s.rounds := by simp [State.wrRegs]
@[simp] theorem State.wrRegs_trk (s : State) (st : Sid) (ws : List RegWr) : (s.wrRegs st ws).trk = s.trk := by simp [State.wrRegs]
@[simp] theorem State.wrRegs_arr (s : State) (st : Sid) (ws : List RegWr) : (s.wrRegs st ws).arr = s.arr := by simp [State.wrRegs]
@[simp] theorem State.wrRegs_orr (s : State) (st : Sid) (ws : List RegWr) : (s.wrRegs st ws).orr = s.orr := by simp [State.wrRegs]
@[simp] theorem State.wrRegs_keys (s : State) (st : Sid) (ws : List RegWr) : (s.wrRegs st ws).keys = s.keys := by simp [State.wrRegs]
@[simp] theorem State.wrRegs_cke (s : State) (st : Sid) (ws : List RegWr) : (s.wrRegs st ws).cke = s.cke := by simp [State.wrRegs]
@[simp] theorem State.wrRegs_rep (s : State) (st : Sid) (ws : List RegWr) : (s.wrRegs st ws).rep = s.rep := by simp [State.wrRegs]
@[simp] theorem State.wrRegs_cal (s : State) (st : Sid) (ws : List RegWr) : (s.wrRegs st ws).cal = s.cal := by simp [State.wrRegs]
@[simp] theorem State.wrRegs_bist (s : State) (st : Sid) (ws : List RegWr) : (s.wrRegs st ws).bist = s.bist := by simp [State.wrRegs]
@[simp] theorem State.wrRegs_ring (s : State) (st : Sid) (ws : List RegWr) : (s.wrRegs st ws).ring = s.ring := by simp [State.wrRegs]
@[simp] theorem State.wrRegs_pins (s : State) (st : Sid) (ws : List RegWr) : (s.wrRegs st ws).pins = s.pins := by simp [State.wrRegs]
@[simp] theorem State.wrRegs_tp (s : State) (st : Sid) (ws : List RegWr) : (s.wrRegs st ws).tp = s.tp := by simp [State.wrRegs]
@[simp] theorem State.wrRegs_freeCount (s : State) (st : Sid) (ws : List RegWr) : (s.wrRegs st ws).freeCount = s.freeCount := by simp [State.wrRegs]
@[simp] theorem State.setReg_pending (s : State) (st : Sid) (k i v : Nat) : (s.setReg st k i v).pending = s.pending := by simp [State.setReg]
@[simp] theorem State.setReg_csr (s : State) (st : Sid) (k i v : Nat) : (s.setReg st k i v).csr = s.csr := by simp [State.setReg]
@[simp] theorem State.setReg_vec (s : State) (st : Sid) (k i v : Nat) : (s.setReg st k i v).vec = s.vec := by simp [State.setReg]
@[simp] theorem State.setReg_spm (s : State) (st : Sid) (k i v : Nat) : (s.setReg st k i v).spm = s.spm := by simp [State.setReg]
@[simp] theorem State.setReg_qsy (s : State) (st : Sid) (k i v : Nat) : (s.setReg st k i v).qsy = s.qsy := by simp [State.setReg]
@[simp] theorem State.setReg_bars (s : State) (st : Sid) (k i v : Nat) : (s.setReg st k i v).bars = s.bars := by simp [State.setReg]
@[simp] theorem State.setReg_chans (s : State) (st : Sid) (k i v : Nat) : (s.setReg st k i v).chans = s.chans := by simp [State.setReg]
@[simp] theorem State.setReg_fab (s : State) (st : Sid) (k i v : Nat) : (s.setReg st k i v).fab = s.fab := by simp [State.setReg]
@[simp] theorem State.setReg_imem (s : State) (st : Sid) (k i v : Nat) : (s.setReg st k i v).imem = s.imem := by simp [State.setReg]
@[simp] theorem State.setReg_mer (s : State) (st : Sid) (k i v : Nat) : (s.setReg st k i v).mer = s.mer := by simp [State.setReg]
@[simp] theorem State.setReg_cA (s : State) (st : Sid) (k i v : Nat) : (s.setReg st k i v).cA = s.cA := by simp [State.setReg]
@[simp] theorem State.setReg_cX (s : State) (st : Sid) (k i v : Nat) : (s.setReg st k i v).cX = s.cX := by simp [State.setReg]
@[simp] theorem State.setReg_rounds (s : State) (st : Sid) (k i v : Nat) : (s.setReg st k i v).rounds = s.rounds := by simp [State.setReg]
@[simp] theorem State.setReg_trk (s : State) (st : Sid) (k i v : Nat) : (s.setReg st k i v).trk = s.trk := by simp [State.setReg]
@[simp] theorem State.setReg_arr (s : State) (st : Sid) (k i v : Nat) : (s.setReg st k i v).arr = s.arr := by simp [State.setReg]
@[simp] theorem State.setReg_orr (s : State) (st : Sid) (k i v : Nat) : (s.setReg st k i v).orr = s.orr := by simp [State.setReg]
@[simp] theorem State.setReg_keys (s : State) (st : Sid) (k i v : Nat) : (s.setReg st k i v).keys = s.keys := by simp [State.setReg]
@[simp] theorem State.setReg_cke (s : State) (st : Sid) (k i v : Nat) : (s.setReg st k i v).cke = s.cke := by simp [State.setReg]
@[simp] theorem State.setReg_rep (s : State) (st : Sid) (k i v : Nat) : (s.setReg st k i v).rep = s.rep := by simp [State.setReg]
@[simp] theorem State.setReg_cal (s : State) (st : Sid) (k i v : Nat) : (s.setReg st k i v).cal = s.cal := by simp [State.setReg]
@[simp] theorem State.setReg_bist (s : State) (st : Sid) (k i v : Nat) : (s.setReg st k i v).bist = s.bist := by simp [State.setReg]
@[simp] theorem State.setReg_ring (s : State) (st : Sid) (k i v : Nat) : (s.setReg st k i v).ring = s.ring := by simp [State.setReg]
@[simp] theorem State.setReg_pins (s : State) (st : Sid) (k i v : Nat) : (s.setReg st k i v).pins = s.pins := by simp [State.setReg]
@[simp] theorem State.setReg_tp (s : State) (st : Sid) (k i v : Nat) : (s.setReg st k i v).tp = s.tp := by simp [State.setReg]
@[simp] theorem State.setReg_freeCount (s : State) (st : Sid) (k i v : Nat) : (s.setReg st k i v).freeCount = s.freeCount := by simp [State.setReg]
@[simp] theorem State.bumpCc_pending (s : State) (st : Sid) : (s.bumpCc st).pending = s.pending := by simp [State.bumpCc]
@[simp] theorem State.bumpCc_csr (s : State) (st : Sid) : (s.bumpCc st).csr = s.csr := by simp [State.bumpCc]
@[simp] theorem State.bumpCc_vec (s : State) (st : Sid) : (s.bumpCc st).vec = s.vec := by simp [State.bumpCc]
@[simp] theorem State.bumpCc_spm (s : State) (st : Sid) : (s.bumpCc st).spm = s.spm := by simp [State.bumpCc]
@[simp] theorem State.bumpCc_qsy (s : State) (st : Sid) : (s.bumpCc st).qsy = s.qsy := by simp [State.bumpCc]
@[simp] theorem State.bumpCc_bars (s : State) (st : Sid) : (s.bumpCc st).bars = s.bars := by simp [State.bumpCc]
@[simp] theorem State.bumpCc_chans (s : State) (st : Sid) : (s.bumpCc st).chans = s.chans := by simp [State.bumpCc]
@[simp] theorem State.bumpCc_fab (s : State) (st : Sid) : (s.bumpCc st).fab = s.fab := by simp [State.bumpCc]
@[simp] theorem State.bumpCc_imem (s : State) (st : Sid) : (s.bumpCc st).imem = s.imem := by simp [State.bumpCc]
@[simp] theorem State.bumpCc_mer (s : State) (st : Sid) : (s.bumpCc st).mer = s.mer := by simp [State.bumpCc]
@[simp] theorem State.bumpCc_cA (s : State) (st : Sid) : (s.bumpCc st).cA = s.cA := by simp [State.bumpCc]
@[simp] theorem State.bumpCc_cX (s : State) (st : Sid) : (s.bumpCc st).cX = s.cX := by simp [State.bumpCc]
@[simp] theorem State.bumpCc_rounds (s : State) (st : Sid) : (s.bumpCc st).rounds = s.rounds := by simp [State.bumpCc]
@[simp] theorem State.bumpCc_trk (s : State) (st : Sid) : (s.bumpCc st).trk = s.trk := by simp [State.bumpCc]
@[simp] theorem State.bumpCc_arr (s : State) (st : Sid) : (s.bumpCc st).arr = s.arr := by simp [State.bumpCc]
@[simp] theorem State.bumpCc_orr (s : State) (st : Sid) : (s.bumpCc st).orr = s.orr := by simp [State.bumpCc]
@[simp] theorem State.bumpCc_keys (s : State) (st : Sid) : (s.bumpCc st).keys = s.keys := by simp [State.bumpCc]
@[simp] theorem State.bumpCc_cke (s : State) (st : Sid) : (s.bumpCc st).cke = s.cke := by simp [State.bumpCc]
@[simp] theorem State.bumpCc_rep (s : State) (st : Sid) : (s.bumpCc st).rep = s.rep := by simp [State.bumpCc]
@[simp] theorem State.bumpCc_cal (s : State) (st : Sid) : (s.bumpCc st).cal = s.cal := by simp [State.bumpCc]
@[simp] theorem State.bumpCc_bist (s : State) (st : Sid) : (s.bumpCc st).bist = s.bist := by simp [State.bumpCc]
@[simp] theorem State.bumpCc_ring (s : State) (st : Sid) : (s.bumpCc st).ring = s.ring := by simp [State.bumpCc]
@[simp] theorem State.bumpCc_pins (s : State) (st : Sid) : (s.bumpCc st).pins = s.pins := by simp [State.bumpCc]
@[simp] theorem State.bumpCc_tp (s : State) (st : Sid) : (s.bumpCc st).tp = s.tp := by simp [State.bumpCc]
@[simp] theorem State.bumpCc_freeCount (s : State) (st : Sid) : (s.bumpCc st).freeCount = s.freeCount := by simp [State.bumpCc]
@[simp] theorem State.began_pending (s : State) (st : Sid) : (s.began st).pending = s.pending := by simp [State.began]
@[simp] theorem State.began_csr (s : State) (st : Sid) : (s.began st).csr = s.csr := by simp [State.began]
@[simp] theorem State.began_vec (s : State) (st : Sid) : (s.began st).vec = s.vec := by simp [State.began]
@[simp] theorem State.began_spm (s : State) (st : Sid) : (s.began st).spm = s.spm := by simp [State.began]
@[simp] theorem State.began_qsy (s : State) (st : Sid) : (s.began st).qsy = s.qsy := by simp [State.began]
@[simp] theorem State.began_bars (s : State) (st : Sid) : (s.began st).bars = s.bars := by simp [State.began]
@[simp] theorem State.began_chans (s : State) (st : Sid) : (s.began st).chans = s.chans := by simp [State.began]
@[simp] theorem State.began_fab (s : State) (st : Sid) : (s.began st).fab = s.fab := by simp [State.began]
@[simp] theorem State.began_imem (s : State) (st : Sid) : (s.began st).imem = s.imem := by simp [State.began]
@[simp] theorem State.began_mer (s : State) (st : Sid) : (s.began st).mer = s.mer := by simp [State.began]
@[simp] theorem State.began_cA (s : State) (st : Sid) : (s.began st).cA = s.cA := by simp [State.began]
@[simp] theorem State.began_cX (s : State) (st : Sid) : (s.began st).cX = s.cX := by simp [State.began]
@[simp] theorem State.began_rounds (s : State) (st : Sid) : (s.began st).rounds = s.rounds := by simp [State.began]
@[simp] theorem State.began_trk (s : State) (st : Sid) : (s.began st).trk = s.trk := by simp [State.began]
@[simp] theorem State.began_arr (s : State) (st : Sid) : (s.began st).arr = s.arr := by simp [State.began]
@[simp] theorem State.began_orr (s : State) (st : Sid) : (s.began st).orr = s.orr := by simp [State.began]
@[simp] theorem State.began_keys (s : State) (st : Sid) : (s.began st).keys = s.keys := by simp [State.began]
@[simp] theorem State.began_cke (s : State) (st : Sid) : (s.began st).cke = s.cke := by simp [State.began]
@[simp] theorem State.began_rep (s : State) (st : Sid) : (s.began st).rep = s.rep := by simp [State.began]
@[simp] theorem State.began_cal (s : State) (st : Sid) : (s.began st).cal = s.cal := by simp [State.began]
@[simp] theorem State.began_bist (s : State) (st : Sid) : (s.began st).bist = s.bist := by simp [State.began]
@[simp] theorem State.began_ring (s : State) (st : Sid) : (s.began st).ring = s.ring := by simp [State.began]
@[simp] theorem State.began_pins (s : State) (st : Sid) : (s.began st).pins = s.pins := by simp [State.began]
@[simp] theorem State.began_tp (s : State) (st : Sid) : (s.began st).tp = s.tp := by simp [State.began]
@[simp] theorem State.began_freeCount (s : State) (st : Sid) : (s.began st).freeCount = s.freeCount := by simp [State.began]

/-! ### Reading back what was written -/

@[simp] theorem State.str_modStr_same (s : State) (st : Sid) (f : Stream → Stream) : (s.modStr st f).str st = f (s.str st) := by
  cases st <;> rfl
@[simp] theorem State.str_modStr_other (s : State) (st : Sid) (f : Stream → Stream) :
    (s.modStr st f).str (otherSid st) = s.str (otherSid st) := by cases st <;> rfl
@[simp] theorem State.csu_modCsu_same (s : State) (st : Sid) (f : Csu → Csu) : (s.modCsu st f).csu st = f (s.csu st) := by
  cases st <;> rfl
@[simp] theorem State.csu_modCsu_other (s : State) (st : Sid) (f : Csu → Csu) :
    (s.modCsu st f).csu (otherSid st) = s.csu (otherSid st) := by cases st <;> rfl
@[simp] theorem State.str_wr (s : State) (st : Sid) (off : Nat) (v : W64) : (s.wr off v).str st = s.str st := by cases st <;> rfl
@[simp] theorem State.str_setRf (s : State) (st : Sid) (off hi lo v : Nat) : (s.setRf off hi lo v).str st = s.str st := by
  cases st <;> rfl
@[simp] theorem State.str_perf (s : State) (st : Sid) (n k : Nat) : (s.perf n k).str st = s.str st := by
  cases st <;> simp [State.str]
@[simp] theorem State.str_raise (s : State) (st : Sid) (n : Nat) : (s.raise n).str st = s.str st := by
  cases st <;> simp [State.str]
@[simp] theorem State.str_modCsu (s : State) (st u : Sid) (f : Csu → Csu) : (s.modCsu u f).str st = s.str st := by
  cases st <;> simp [State.str]
@[simp] theorem State.rd_modStr (s : State) (st : Sid) (f : Stream → Stream) (off : Nat) : (s.modStr st f).rd off = s.rd off := by
  simp [State.rd]

end Sys2Proof.Machine
end

