-- ==== Sys2Proof/Laws/Tbl.lean ====
section
/-!
SUPPORT. Sparse tables: reading after writing, and the canonical form that every write keeps.
-/

namespace Sys2Proof.Machine

variable {α : Type}

theorem tget_tdel_same (d : α) (t : Tbl α) (k : Nat) : tget d (tdel t k) k = d := by
  induction t with
  | nil => rfl
  | cons e r ih =>
    obtain ⟨i, v⟩ := e
    by_cases h : i = k <;> simp [tdel, tget, h, ih]

theorem tget_tdel_other (d : α) (t : Tbl α) {k j : Nat} (h : k ≠ j) : tget d (tdel t k) j = tget d t j := by
  induction t with
  | nil => rfl
  | cons e r ih =>
    obtain ⟨i, v⟩ := e
    by_cases hk : i = k
    · subst hk; simp [tdel, tget, ih, h]
    · simp only [tdel, hk, if_false, tget, ih]

theorem tget_tins_other (d : α) (t : Tbl α) {k j : Nat} (v : α) (h : k ≠ j) : tget d (tins t k v) j = tget d t j := by
  induction t with
  | nil => simp [tins, tget, h]
  | cons e r ih =>
    obtain ⟨i, w⟩ := e
    by_cases hk : k < i
    · simp [tins, hk, tget, h]
    · simp only [tins, hk, if_false, tget, ih]

/-- Index `k` does not occur. -/
def Tbl.lacks (t : Tbl α) (k : Nat) : Prop := ∀ e ∈ t, e.1 ≠ k

theorem tdel_lacks (t : Tbl α) (k : Nat) : Tbl.lacks (tdel t k) k := by
  induction t with
  | nil => simp [Tbl.lacks, tdel]
  | cons e r ih =>
    obtain ⟨i, v⟩ := e
    by_cases h : i = k
    · simpa [tdel, h] using ih
    · simp only [tdel, h, if_false, Tbl.lacks, List.mem_cons, forall_eq_or_imp] at ih ⊢
      exact ⟨h, ih⟩

theorem tget_tins_same (d : α) (t : Tbl α) (k : Nat) (v : α) (h : Tbl.lacks t k) : tget d (tins t k v) k = v := by
  induction t with
  | nil => simp [tins, tget]
  | cons e r ih =>
    obtain ⟨i, w⟩ := e
    have hi : i ≠ k := h (i, w) (by simp)
    have hr : Tbl.lacks r k := fun x hx => h x (by simp [hx])
    by_cases hk : k < i
    · simp [tins, hk, tget]
    · simp [tins, hk, tget, hi, ih hr]

/-- A read after a write to the same index gives the value written. -/
@[simp] theorem tget_tset_same [DecidableEq α] (d : α) (t : Tbl α) (k : Nat) (v : α) : tget d (tset d t k v) k = v := by
  unfold tset
  split
  · next h => rw [tget_tdel_same, h]
  · exact tget_tins_same _ _ _ _ (tdel_lacks _ _)

/-- A write leaves every other index alone. -/
theorem tget_tset_other [DecidableEq α] (d : α) (t : Tbl α) {k j : Nat} (v : α) (h : k ≠ j) : tget d (tset d t k v) j = tget d t j := by
  unfold tset
  split
  · exact tget_tdel_other _ _ h
  · rw [tget_tins_other _ _ _ h, tget_tdel_other _ _ h]

theorem tget_tset [DecidableEq α] (d : α) (t : Tbl α) (k j : Nat) (v : α) :
    tget d (tset d t k v) j = if k = j then v else tget d t j := by
  split
  · next h => subst h; exact tget_tset_same _ _ _ _
  · next h => exact tget_tset_other _ _ _ h

/-! ### The canonical form -/

/-- The canonical form, entry by entry: indices strictly rising, no value equal to the default. -/
theorem twf_iff [DecidableEq α] (d : α) (t : Tbl α) :
    twf d t = true ↔ t.Pairwise (fun x y => x.1 < y.1) ∧ ∀ e ∈ t, e.2 ≠ d := by
  induction t with
  | nil => simp [twf]
  | cons e r ih =>
    obtain ⟨i, v⟩ := e
    cases r with
    | nil => simp [twf]
    | cons e' r' =>
      obtain ⟨j, w⟩ := e'
      simp only [twf, Bool.and_eq_true, decide_eq_true_eq, ih, List.pairwise_cons, List.mem_cons, forall_eq_or_imp]
      constructor
      · rintro ⟨⟨hij, hv⟩, ⟨hj, hr⟩, hw, hd⟩
        exact ⟨⟨⟨hij, fun x hx => Nat.lt_trans hij (hj x hx)⟩, hj, hr⟩, hv, hw, hd⟩
      · rintro ⟨⟨⟨hij, -⟩, hj, hr⟩, hv, hw, hd⟩
        exact ⟨⟨hij, hv⟩, ⟨hj, hr⟩, hw, hd⟩

theorem mem_tdel {t : Tbl α} {k : Nat} {e : Nat × α} (h : e ∈ tdel t k) : e ∈ t := by
  induction t with
  | nil => simp [tdel] at h
  | cons x r ih =>
    obtain ⟨i, v⟩ := x
    by_cases hk : i = k
    · simp only [tdel, hk, if_true] at h; exact List.mem_cons_of_mem _ (ih h)
    · simp only [tdel, hk, if_false, List.mem_cons] at h
      rcases h with h | h
      · simp [h]
      · exact List.mem_cons_of_mem _ (ih h)

theorem mem_tins {t : Tbl α} {k : Nat} {v : α} {e : Nat × α} (h : e ∈ tins t k v) : e = (k, v) ∨ e ∈ t := by
  induction t with
  | nil => simpa [tins] using h
  | cons x r ih =>
    obtain ⟨i, w⟩ := x
    by_cases hk : k < i
    · simpa [tins, hk] using h
    · simp only [tins, hk, if_false, List.mem_cons] at h
      rcases h with h | h
      · simp [h]
      · rcases ih h with h | h <;> simp [h]

theorem tdel_pairwise {t : Tbl α} {k : Nat} (h : t.Pairwise (fun x y => x.1 < y.1)) :
    (tdel t k).Pairwise (fun x y => x.1 < y.1) := by
  induction t with
  | nil => simp [tdel]
  | cons x r ih =>
    obtain ⟨i, v⟩ := x
    rw [List.pairwise_cons] at h
    by_cases hk : i = k
    · simpa [tdel, hk] using ih h.2
    · simp only [tdel, hk, if_false, List.pairwise_cons]
      exact ⟨fun e he => h.1 e (mem_tdel he), ih h.2⟩

theorem tins_pairwise {t : Tbl α} {k : Nat} {v : α} (h : t.Pairwise (fun x y => x.1 < y.1)) (hl : Tbl.lacks t k) :
    (tins t k v).Pairwise (fun x y => x.1 < y.1) := by
  induction t with
  | nil => simp [tins]
  | cons x r ih =>
    obtain ⟨i, w⟩ := x
    have hi : i ≠ k := hl (i, w) (by simp)
    have hr : Tbl.lacks r k := fun e he => hl e (by simp [he])
    by_cases hk : k < i
    · rw [List.pairwise_cons] at h
      rw [tins, if_pos hk, List.pairwise_cons, List.pairwise_cons]
      simp only [List.mem_cons, forall_eq_or_imp]
      exact ⟨⟨hk, fun e he => Nat.lt_trans hk (h.1 e he)⟩, h.1, h.2⟩
    · rw [List.pairwise_cons] at h
      simp only [tins, hk, if_false, List.pairwise_cons]
      refine ⟨fun e he => ?_, ih h.2 hr⟩
      rcases mem_tins he with h' | h'
      · subst h'; show i < k; omega
      · exact h.1 e h'

/-- Every write keeps the canonical form. -/
theorem twf_tset [DecidableEq α] (d : α) (t : Tbl α) (k : Nat) (v : α) (h : twf d t = true) : twf d (tset d t k v) = true := by
  rw [twf_iff] at h ⊢
  unfold tset
  split
  · exact ⟨tdel_pairwise h.1, fun e he => h.2 e (mem_tdel he)⟩
  · next hv =>
    refine ⟨tins_pairwise (tdel_pairwise h.1) (tdel_lacks _ _), fun e he => ?_⟩
    rcases mem_tins he with h' | h'
    · subst h'; exact hv
    · exact h.2 e (mem_tdel h')

theorem twf_tmod [DecidableEq α] (d : α) (t : Tbl α) (k : Nat) (f : α → α) (h : twf d t = true) : twf d (tmod d t k f) = true :=
  twf_tset _ _ _ _ h

/-- Writes one after the other keep it. -/
theorem twf_foldl [DecidableEq α] {β : Type} (d : α) (f : Tbl α → β → Tbl α) (hf : ∀ t b, twf d t = true → twf d (f t b) = true)
    (l : List β) (t : Tbl α) (h : twf d t = true) : twf d (l.foldl f t) = true := by
  induction l generalizing t with
  | nil => exact h
  | cons b r ih => exact ih _ (hf _ _ h)

end Sys2Proof.Machine
end

