-- ==== Sys2Proof/Laws/Memory.lean ====
section
/-!
SUPPORT. The memories: every operation over them keeps their canonical form; what a write of the scratchpad changes.
-/

namespace Sys2Proof.Machine

/-- A byte that a write covers, in a bank that stands, is the one written; every other byte is as before. -/
theorem byte_puts (lost : Nat → Bool) (a : Nat) (bs : List Byte) (n : Nat) (m : Tbl Byte) (x : Nat) :
    tget (0 : Byte) ((bs.zipIdx n).foldl (fun t e => if lost ((a + e.2) / 8) then t else tset (0 : Byte) t (a + e.2) e.1) m) x =
      if a + n ≤ x ∧ x < a + n + bs.length ∧ lost (x / 8) = false then bs.getD (x - (a + n)) 0 else tget (0 : Byte) m x := by
  induction bs generalizing n m with
  | nil => simp; omega
  | cons b r ih =>
    simp only [List.zipIdx_cons, List.foldl_cons]
    rw [ih]
    have keep : a + n ≠ x → tget (0 : Byte) (if lost ((a + n) / 8) = true then m else tset 0 m (a + n) b) x = tget 0 m x := by
      intro ne
      by_cases hl : lost ((a + n) / 8) = true
      · rw [if_pos hl]
      · rw [if_neg hl, tget_tset_other _ _ _ ne]
    by_cases h1 : a + (n + 1) ≤ x
    · have e : x - (a + n) = (x - (a + (n + 1))) + 1 := by omega
      rw [keep (by omega), List.length_cons, e, List.getD_cons_succ]
      refine if_congr ?_ rfl rfl
      constructor <;> rintro ⟨_, h2, h3⟩ <;> exact ⟨by omega, by omega, h3⟩
    · rw [if_neg (fun h => h1 h.1)]
      by_cases h2 : a + n = x
      · subst h2
        cases h3 : lost ((a + n) / 8) <;> simp
      · rw [keep h2, if_neg (fun h => h1 (by omega))]

/-- A write of the scratchpad, byte by byte: the bytes it covers hold what was written, except those of a bank without a
physical bank; every other byte is as before. -/
theorem Spm.byte_poke (m : Spm) (a : Nat) (bs : List Byte) (p : Bool) (x : Nat) :
    (m.poke a bs p).byte x =
      if a ≤ x ∧ x < a + bs.length ∧ m.gone.contains (x / 8 / 16 % 32) = false then bs.getD (x - a) 0 else m.byte x := by
  unfold Spm.poke Spm.byte
  by_cases h : bs.length = 0
  · simp only [h, if_true]
    rw [if_neg (by omega)]
  · simp only [h, if_false]
    have := byte_puts (fun w => m.gone.contains (w / 16 % 32)) a bs 0 m.mem x
    simpa using this

/-- A write of the scratchpad keeps its canonical form. -/
theorem Spm.wf_poke (m : Spm) (a : Nat) (bs : List Byte) (p : Bool) (h : Memory.wf m.mem = true) :
    Memory.wf (m.poke a bs p).mem = true := by
  unfold Spm.poke
  dsimp only
  split
  · exact h
  · refine twf_foldl _ _ (fun t e ht => ?_) _ _ h
    split
    · exact ht
    · exact twf_tset _ _ _ _ ht

theorem State.dirty_spm (s : State) (f : Bool) (a n : Nat) : (s.dirty f a n).spm = s.spm := by
  unfold State.dirty; dsimp only; split <;> rfl

/-- A counted write is a write of the scratchpad. -/
@[simp] theorem State.poke_spm (s : State) (a : Nat) (bs : List Byte) (p : Bool) : (s.poke a bs p).spm = s.spm.poke a bs p := by
  rw [State.poke, State.dirty_spm]

/-- Reading single-bit words changes no byte. -/
theorem State.bankCount_spm (s : State) (w : Nat) : (s.bankCount w).spm = s.spm := by
  unfold State.bankCount
  dsimp only
  split
  · split
    · split
      · simp
      · simp [State.raiseCause]
    · simp
  · simp

theorem State.touch_mem (s : State) (a n : Nat) : (s.touch a n).spm.mem = s.spm.mem := by
  unfold State.touch
  generalize ((upto (if n = 0 then 0 else (a + n - 1) / 8 + 1 - a / 8)).map (· + a / 8)) = l
  induction l generalizing s with
  | nil => rfl
  | cons w r ih =>
    rw [List.foldl_cons, ih]
    split
    · simp [State.bankCount_spm]
    · rfl

/-- Corrections of a viewer's read change no byte. -/
theorem State.touchView_mem (s : State) (v : Option Sid) (a n : Nat) : (s.touchView v a n).spm.mem = s.spm.mem := by
  unfold State.touchView
  generalize ((upto (if n = 0 then 0 else (a + n - 1) / 8 + 1 - a / 8)).map (· + a / 8)) = l
  induction l generalizing s with
  | nil => rfl
  | cons w r ih => rw [List.foldl_cons, ih, State.touch_mem]

theorem State.touchWords_mem (s : State) (v : Option Sid) (l : List Nat) : (s.touchWords v l).spm.mem = s.spm.mem := by
  unfold State.touchWords
  induction l generalizing s with
  | nil => rfl
  | cons w r ih => rw [List.foldl_cons, ih, State.touchView_mem]

/-- With every Method R block copied, no write is held back (13 R340). -/
theorem State.writeBlock_nil (s : State) (side : Option Sid) (cs : Option Nat) (a n : Nat) (h : s.cke.blocks = []) : s.writeBlock side cs a n = none := by
  simp [State.writeBlock, h]

theorem State.blockOfPairs_nil (s : State) (side : Option Sid) (cs : Option Nat) (l : List (Nat × Byte)) (h : s.cke.blocks = []) :
    s.blockOfPairs side cs l = none := by
  simp [State.blockOfPairs, State.writeBlock_nil _ _ _ _ _ h]

/-- The memory of the machine right after reset is canonical: it lists nothing. -/
theorem reset_mem_wf : Memory.wf State.reset.spm.mem = true := by decide

end Sys2Proof.Machine
end

