-- ==== Sys2Proof/Laws/Frames.lean ====
section
/-!
SUPPORT. What the shared operations leave alone: the scratchpad and the instruction memory.
-/

namespace Sys2Proof.Machine

/-! ### The scratchpad -/

theorem foldl_spm {α : Type} (f : State → α → State) (l : List α) (s : State) (h : ∀ s x, (f s x).spm = s.spm) :
    (l.foldl f s).spm = s.spm := by
  induction l generalizing s with
  | nil => rfl
  | cons x l ih => rw [List.foldl_cons, ih, h]
theorem ite_spm (c : Prop) [Decidable c] (a b : State) : (if c then a else b).spm = if c then a.spm else b.spm := by
  split <;> rfl

@[simp] theorem State.freeWord_spm (s : State) : (State.freeWord s).1.spm = s.spm := by simp [State.freeWord]
@[simp] theorem State.settleSwitch_spm (s : State) : (State.settleSwitch s).spm = s.spm := by simp [State.settleSwitch]
@[simp] theorem State.noteHalt_spm (s : State) (st : Sid) (reason detail : Nat) (tag : W16) (slot : Nat) : (State.noteHalt s st reason detail tag slot).spm = s.spm := by simp [State.noteHalt]
@[simp] theorem State.dropChanWaits_spm (s : State) (f : Chan → Bool) : (State.dropChanWaits s f).spm = s.spm := by simp [State.dropChanWaits]
@[simp] theorem State.abortChans_spm (s : State) (id : Nat) : (State.abortChans s id).spm = s.spm := by simp [State.abortChans]
@[simp] theorem State.dropHeld_spm (s : State) (st : Sid) : (State.dropHeld s st).spm = s.spm := by simp [State.dropHeld, ite_spm]
@[simp] theorem State.replaceVote_spm (s : State) (vg : Nat) (tick : W64) (code : Nat) : (State.replaceVote s vg tick code).spm = s.spm := by simp [State.replaceVote]
@[simp] theorem State.hurry_spm (s : State) (p : Nat × Nat) : (State.hurry s p).spm = s.spm := by simp [State.hurry, ite_spm]
@[simp] theorem State.numcAdd_spm (s : State) (i k : Nat) : (State.numcAdd s i k).spm = s.spm := by simp [State.numcAdd, ite_spm]
@[simp] theorem State.unboundUse_spm (s : State) : (State.unboundUse s).spm = s.spm := by simp [State.unboundUse]
@[simp] theorem State.modLink_spm (s : State) (ch : Nat) (f : Link → Link) : (State.modLink s ch f).spm = s.spm := by simp [State.modLink]
@[simp] theorem State.pumpLink_spm (s : State) (ch : Nat) : (State.pumpLink s ch).spm = s.spm := by simp [State.pumpLink, ite_spm]
@[simp] theorem State.send_spm (s : State) (ch body : Nat) : (State.send s ch body).spm = s.spm := by simp [State.send, ite_spm]
@[simp] theorem State.modWear_spm (s : State) (cls u : Nat) (f : Wear → Wear) : (State.modWear s cls u f).spm = s.spm := by simp [State.modWear]
@[simp] theorem State.clearArrayWear_spm (s : State) : (State.clearArrayWear s).spm = s.spm := by simp [State.clearArrayWear]
@[simp] theorem State.bindCheck_spm (s : State) (slot : Nat) : (State.bindCheck s slot).1.spm = s.spm := by unfold State.bindCheck; (repeat' split) <;> simp_all
@[simp] theorem State.setMark_spm (s : State) (cls u : Nat) : (State.setMark s cls u).spm = s.spm := by unfold State.setMark; (repeat' split) <;> simp_all
@[simp] theorem State.markUnit_spm (s : State) (cls u : Nat) : (State.markUnit s cls u).spm = s.spm := by unfold State.markUnit; (repeat' split) <;> simp_all
@[simp] theorem State.carNumber_spm (s : State) : (State.carNumber s).1.spm = s.spm := by simp [State.carNumber]
@[simp] theorem State.qsyDeny_spm (s : State) (b : Nat) : (State.qsyDeny s b).spm = s.spm := by simp [State.qsyDeny]
@[simp] theorem State.writeW0_spm (s : State) (n : Nat) (v : W64) : (State.writeW0 s n v).spm = s.spm := by simp [State.writeW0, ite_spm]
@[simp] theorem State.writeW1_spm (s : State) (n : Nat) (v : W64) : (State.writeW1 s n v).spm = s.spm := by simp [State.writeW1, ite_spm]
@[simp] theorem State.writeW3_spm (s : State) (n : Nat) (v : W64) : (State.writeW3 s n v).spm = s.spm := by simp [State.writeW3, ite_spm]
@[simp] theorem State.lateMark_spm (s : State) (tg : W64) : (State.lateMark s tg).spm = s.spm := by simp [State.lateMark, ite_spm]
@[simp] theorem State.pushAcc_spm (s : State) (st : Sid) (c : Slot) (isLoad : Bool) (kind idx : Nat) (addrs : List Nat) (bytes : List Byte) : (State.pushAcc s st c isLoad kind idx addrs bytes).spm = s.spm := by simp [State.pushAcc]
@[simp] theorem State.takeHead_spm (s : State) (n : Nat) (e : Entry) : (State.takeHead s n e).spm = s.spm := by unfold State.takeHead; (repeat' split) <;> simp_all
@[simp] theorem State.issueReq_spm (s : State) (r : Req) : (State.issueReq s r).spm = s.spm := by unfold State.issueReq; (repeat' split) <;> simp_all [State.dirty_spm]
@[simp] theorem State.setBank_spm (s : State) (bank : Nat) (row : Nat → BitVec 160) : (State.setBank s bank row).spm = s.spm := by simp [State.setBank]
@[simp] theorem State.errorIn_spm (s : State) (r : Req) : (State.errorIn s r).spm = s.spm := by simp [State.errorIn]
@[simp] theorem State.ackIn_spm (s : State) (r : Req) : (State.ackIn s r).spm = s.spm := by simp [State.ackIn]
@[simp] theorem State.badTag_spm (s : State) : (State.badTag s).spm = s.spm := by simp [State.badTag]
@[simp] theorem State.rejectEntry_spm (s : State) (n : Nat) (e : Entry) : (State.rejectEntry s n e).spm = s.spm := by simp [State.rejectEntry]
@[simp] theorem State.openConsist_spm (s : State) (st : Sid) : (State.openConsist s st).1.spm = s.spm := by simp [State.openConsist]
@[simp] theorem State.hurryAll_spm (s : State) (st : Sid) : (State.hurryAll s st).spm = s.spm := by simp [State.hurryAll, foldl_spm]
@[simp] theorem State.modRound_spm (s : State) (vg : Nat) (tick : W64) (f : Round → Round) : (State.modRound s vg tick f).spm = s.spm := by simp [State.modRound, ite_spm]
@[simp] theorem State.tellChildren_spm (s : State) (vg : Nat) (tick : W64) (commit : Bool) (reason : Nat) : (State.tellChildren s vg tick commit reason).spm = s.spm := by simp [State.tellChildren, foldl_spm, ite_spm]
@[simp] theorem State.rootDecide_spm (s : State) (r : Round) (complete : Bool) : (State.rootDecide s r complete).spm = s.spm := by simp [State.rootDecide]
@[simp] theorem State.pruneRounds_spm (s : State) : (State.pruneRounds s).spm = s.spm := by simp [State.pruneRounds]
@[simp] theorem State.deny_spm (s : State) : (State.deny s).spm = s.spm := by simp [State.deny]
@[simp] theorem State.entriesFrom_spm (s : State) (bank : Nat) : (State.entriesFrom s bank).spm = s.spm := by simp [State.entriesFrom]
@[simp] theorem State.hostSwitch_spm (s : State) : (State.hostSwitch s).spm = s.spm := by simp [State.hostSwitch, ite_spm]
@[simp] theorem State.haddrWrite_spm (s : State) (v : W64) : (State.haddrWrite s v).spm = s.spm := by simp [State.haddrWrite]
@[simp] theorem State.htagWrite_spm (s : State) (v : W64) : (State.htagWrite s v).spm = s.spm := by simp [State.htagWrite, ite_spm]
@[simp] theorem State.ignore_spm (s : State) (st : Sid) : (State.ignore s st).spm = s.spm := by simp [State.ignore]
@[simp] theorem State.roundFull_spm (s : State) (vg : Nat) (tick : W64) : (State.roundFull s vg tick).spm = s.spm := by unfold State.roundFull; (repeat' split) <;> simp_all
@[simp] theorem State.stopStream_spm (s : State) (st : Sid) : (State.stopStream s st).spm = s.spm := by unfold State.stopStream; (repeat' split) <;> simp_all
@[simp] theorem State.dropRing_spm (s : State) (ch : Nat) : (State.dropRing s ch).spm = s.spm := by simp [State.dropRing]
@[simp] theorem State.clearHalt_spm (s : State) (st : Sid) : (State.clearHalt s st).spm = s.spm := by simp [State.clearHalt]
@[simp] theorem State.postPut_spm (s : State) (n : Nat) (v : W32) (ev : Bool) : (State.postPut s n v ev).spm = s.spm := by simp [State.postPut, ite_spm]
@[simp] theorem State.postAckWrite_spm (s : State) (v : W64) : (State.postAckWrite s v).spm = s.spm := by simp [State.postAckWrite, ite_spm]
@[simp] theorem State.barFault_spm (s : State) : (State.barFault s).spm = s.spm := by simp [State.barFault]
@[simp] theorem State.barWrite_spm (s : State) (w1 : Bool) (v : W64) : (State.barWrite s w1 v).spm = s.spm := by simp [State.barWrite, ite_spm]
@[simp] theorem State.plainWrite_spm (s : State) (off : Nat) (v : W64) : (State.plainWrite s off v).spm = s.spm := by simp [State.plainWrite, ite_spm]
@[simp] theorem State.setFeed_spm (s : State) (north : Bool) (n : Nat) (f : Option Feed) : (State.setFeed s north n f).spm = s.spm := by simp [State.setFeed, ite_spm]
@[simp] theorem State.stkMerge_spm (s : State) (n : Nat) (v : W32) : (State.stkMerge s n v).spm = s.spm := by simp [State.stkMerge, ite_spm]
@[simp] theorem State.beginWipe_spm (s : State) (cause : Option Nat) : (State.beginWipe s cause).spm = s.spm := by unfold State.beginWipe; (repeat' split) <;> simp_all
@[simp] theorem State.pushWork_spm (s : State) (st : Sid) (mems : List VeMem) : (State.pushWork s st mems).spm = s.spm := by simp [State.pushWork]
@[simp] theorem State.skipStop_spm (s : State) (err : Nat) : (State.skipStop s err).spm = s.spm := by simp [State.skipStop]
@[simp] theorem State.notePoison_spm (s : State) (units : List (List Byte × Bool)) : (State.notePoison s units).spm = s.spm := by simp [State.notePoison, ite_spm]
@[simp] theorem State.restoreRefuse_spm (s : State) (err : Nat) : (State.restoreRefuse s err).spm = s.spm := by simp [State.restoreRefuse]
@[simp] theorem State.setOverride_spm (s : State) (v : Bool) : (State.setOverride s v).spm = s.spm := by simp [State.setOverride, ite_spm]
@[simp] theorem State.accLoad_spm (s : State) (st : Sid) (a : ScalAcc) (bs : List Byte) : (State.accLoad s st a bs).spm = s.spm := by unfold State.accLoad; (repeat' split) <;> simp_all
@[simp] theorem State.ckeConfig_spm (s : State) (off : Nat) (v : W64) : (State.ckeConfig s off v).spm = s.spm := by simp [State.ckeConfig, ite_spm]
@[simp] theorem State.nextTrial_spm (s : State) (k : Nat) : (State.nextTrial s k).spm = s.spm := by simp [State.nextTrial]
@[simp] theorem State.openCal_spm (s : State) (us : Nat) : (State.openCal s us).spm = s.spm := by simp [State.openCal, ite_spm]
@[simp] theorem State.merLock_spm (s : State) (e : Int) (told : Bool) : (State.merLock s e told).spm = s.spm := by simp [State.merLock, ite_spm]
@[simp] theorem State.merSlew_spm (s : State) (e : Int) : (State.merSlew s e).spm = s.spm := by simp [State.merSlew]
@[simp] theorem State.hostLate_spm (s : State) (tg : W64) : (State.hostLate s tg).spm = s.spm := by simp [State.hostLate, ite_spm]
@[simp] theorem State.reqErr_spm (s : State) : (State.reqErr s).spm = s.spm := by simp [State.reqErr]
@[simp] theorem State.unlockFail_spm (s : State) : (State.unlockFail s).spm = s.spm := by simp [State.unlockFail]
@[simp] theorem State.keyAck_spm (s : State) : (State.keyAck s).spm = s.spm := by simp [State.keyAck]
@[simp] theorem State.keyErr_spm (s : State) : (State.keyErr s).spm = s.spm := by simp [State.keyErr]
@[simp] theorem State.crcErr_spm (s : State) : (State.crcErr s).spm = s.spm := by simp [State.crcErr]
@[simp] theorem State.shadowWrite_spm (s : State) (st : Sid) (v : W64) : (State.shadowWrite s st v).spm = s.spm := by simp [State.shadowWrite, ite_spm]
@[simp] theorem State.vgWrite_spm (s : State) (off : Nat) (v : W64) : (State.vgWrite s off v).spm = s.spm := by simp [State.vgWrite, ite_spm]
@[simp] theorem State.recordWrite_spm (s : State) (off : Nat) (v : W64) : (State.recordWrite s off v).spm = s.spm := by simp [State.recordWrite, ite_spm]
@[simp] theorem State.modeWrite_spm (s : State) (v : W64) : (State.modeWrite s v).spm = s.spm := by simp [State.modeWrite, ite_spm]
@[simp] theorem State.testEvents_spm (s : State) (v : W64) : (State.testEvents s v).spm = s.spm := by simp [State.testEvents, foldl_spm, ite_spm]
@[simp] theorem State.eccCntWrite_spm (s : State) (k : Nat) (v : W64) : (State.eccCntWrite s k v).spm = s.spm := by simp [State.eccCntWrite, ite_spm]
@[simp] theorem State.wearWrite_spm (s : State) (v : W64) : (State.wearWrite s v).spm = s.spm := by simp [State.wearWrite, ite_spm]
@[simp] theorem State.trkWrite_spm (s : State) (off : Nat) (v : W64) : (State.trkWrite s off v).spm = s.spm := by simp [State.trkWrite, ite_spm]
@[simp] theorem State.loadWir_spm (s : State) (code : Nat) : (State.loadWir s code).spm = s.spm := by simp [State.loadWir]
@[simp] theorem State.takePorts_spm (s : State) : (State.takePorts s).spm = s.spm := by simp [State.takePorts]
@[simp] theorem State.scanDeny_spm (s : State) : (State.scanDeny s).spm = s.spm := by simp [State.scanDeny]
@[simp] theorem State.intestUpdate_spm (s : State) : (State.intestUpdate s).spm = s.spm := by simp [State.intestUpdate, ite_spm]
@[simp] theorem State.ijtagUpdate_spm (s : State) : (State.ijtagUpdate s).spm = s.spm := by simp [State.ijtagUpdate, ite_spm]
@[simp] theorem State.correctRows_spm (s : State) (keys : List Nat) : (State.correctRows s keys).spm = s.spm := by simp [State.correctRows, foldl_spm, ite_spm]
@[simp] theorem State.noteRow_spm (s : State) (st : Sid) (bank : Nat) : (State.noteRow s st bank).spm = s.spm := by unfold State.noteRow; dsimp only; (repeat' split) <;> simp_all

/-! What an idle step counts leaves the scratchpad alone (10 R264, 06 R157, 16 R413). -/

@[simp] theorem State.merTick_spm (s : State) : s.merTick.spm = s.spm := by simp [State.merTick, ite_spm]
@[simp] theorem State.waitTick_spm (s : State) (st : Sid) : (s.waitTick st).spm = s.spm := by simp [State.waitTick, ite_spm]
@[simp] theorem State.rollTick_spm (s : State) (st : Sid) : (s.rollTick st).spm = s.spm := by simp [State.rollTick, ite_spm]
@[simp] theorem State.stretch_spm (s : State) (n : Nat) : (s.stretch n).spm = s.spm := by simp [State.stretch]
@[simp] theorem State.settleDroop_spm (s : State) : s.settleDroop.spm = s.spm := by simp [State.settleDroop, ite_spm]
@[simp] theorem State.stretchTick_spm (s : State) : s.stretchTick.spm = s.spm := by simp [State.stretchTick, ite_spm, foldl_spm]
theorem State.countTick_spm (s : State) : s.countTick.spm = s.spm := by simp [State.countTick, ite_spm]
@[simp] theorem State.dropBlocked_spm (s : State) (st : Sid) : (s.dropBlocked st).spm = s.spm := by simp [State.dropBlocked, ite_spm]
@[simp] theorem State.haltInStop_spm (s : State) (d : Bool) : (s.haltInStop d).spm = s.spm := by simp [State.haltInStop, ite_spm]

/-! ### The instruction memory -/

theorem foldl_imem {α : Type} (f : State → α → State) (l : List α) (s : State) (h : ∀ s x, (f s x).imem = s.imem) :
    (l.foldl f s).imem = s.imem := by
  induction l generalizing s with
  | nil => rfl
  | cons x l ih => rw [List.foldl_cons, ih, h]
theorem ite_imem (c : Prop) [Decidable c] (a b : State) : (if c then a else b).imem = if c then a.imem else b.imem := by
  split <;> rfl

@[simp] theorem State.freeWord_imem (s : State) : (State.freeWord s).1.imem = s.imem := by simp [State.freeWord]
@[simp] theorem State.settleSwitch_imem (s : State) : (State.settleSwitch s).imem = s.imem := by simp [State.settleSwitch]
@[simp] theorem State.noteHalt_imem (s : State) (st : Sid) (reason detail : Nat) (tag : W16) (slot : Nat) : (State.noteHalt s st reason detail tag slot).imem = s.imem := by simp [State.noteHalt]
@[simp] theorem State.dropChanWaits_imem (s : State) (f : Chan → Bool) : (State.dropChanWaits s f).imem = s.imem := by simp [State.dropChanWaits]
@[simp] theorem State.abortChans_imem (s : State) (id : Nat) : (State.abortChans s id).imem = s.imem := by simp [State.abortChans]
@[simp] theorem State.dropHeld_imem (s : State) (st : Sid) : (State.dropHeld s st).imem = s.imem := by simp [State.dropHeld, ite_imem]
@[simp] theorem State.replaceVote_imem (s : State) (vg : Nat) (tick : W64) (code : Nat) : (State.replaceVote s vg tick code).imem = s.imem := by simp [State.replaceVote]
@[simp] theorem State.hurry_imem (s : State) (p : Nat × Nat) : (State.hurry s p).imem = s.imem := by simp [State.hurry, ite_imem]
@[simp] theorem State.numcAdd_imem (s : State) (i k : Nat) : (State.numcAdd s i k).imem = s.imem := by simp [State.numcAdd, ite_imem]
@[simp] theorem State.unboundUse_imem (s : State) : (State.unboundUse s).imem = s.imem := by simp [State.unboundUse]
@[simp] theorem State.modLink_imem (s : State) (ch : Nat) (f : Link → Link) : (State.modLink s ch f).imem = s.imem := by simp [State.modLink]
@[simp] theorem State.pumpLink_imem (s : State) (ch : Nat) : (State.pumpLink s ch).imem = s.imem := by simp [State.pumpLink, ite_imem]
@[simp] theorem State.send_imem (s : State) (ch body : Nat) : (State.send s ch body).imem = s.imem := by simp [State.send, ite_imem]
@[simp] theorem State.modWear_imem (s : State) (cls u : Nat) (f : Wear → Wear) : (State.modWear s cls u f).imem = s.imem := by simp [State.modWear]
@[simp] theorem State.clearArrayWear_imem (s : State) : (State.clearArrayWear s).imem = s.imem := by simp [State.clearArrayWear]
@[simp] theorem State.bindCheck_imem (s : State) (slot : Nat) : (State.bindCheck s slot).1.imem = s.imem := by unfold State.bindCheck; (repeat' split) <;> simp_all
@[simp] theorem State.setMark_imem (s : State) (cls u : Nat) : (State.setMark s cls u).imem = s.imem := by unfold State.setMark; (repeat' split) <;> simp_all
@[simp] theorem State.markUnit_imem (s : State) (cls u : Nat) : (State.markUnit s cls u).imem = s.imem := by unfold State.markUnit; (repeat' split) <;> simp_all
@[simp] theorem State.carNumber_imem (s : State) : (State.carNumber s).1.imem = s.imem := by simp [State.carNumber]
@[simp] theorem State.qsyDeny_imem (s : State) (b : Nat) : (State.qsyDeny s b).imem = s.imem := by simp [State.qsyDeny]
@[simp] theorem State.writeW0_imem (s : State) (n : Nat) (v : W64) : (State.writeW0 s n v).imem = s.imem := by simp [State.writeW0, ite_imem]
@[simp] theorem State.writeW1_imem (s : State) (n : Nat) (v : W64) : (State.writeW1 s n v).imem = s.imem := by simp [State.writeW1, ite_imem]
@[simp] theorem State.writeW3_imem (s : State) (n : Nat) (v : W64) : (State.writeW3 s n v).imem = s.imem := by simp [State.writeW3, ite_imem]
@[simp] theorem State.lateMark_imem (s : State) (tg : W64) : (State.lateMark s tg).imem = s.imem := by simp [State.lateMark, ite_imem]
@[simp] theorem State.pushAcc_imem (s : State) (st : Sid) (c : Slot) (isLoad : Bool) (kind idx : Nat) (addrs : List Nat) (bytes : List Byte) : (State.pushAcc s st c isLoad kind idx addrs bytes).imem = s.imem := by simp [State.pushAcc]
@[simp] theorem State.takeHead_imem (s : State) (n : Nat) (e : Entry) : (State.takeHead s n e).imem = s.imem := by unfold State.takeHead; (repeat' split) <;> simp_all
@[simp] theorem State.dirty_imem (s : State) (b : Bool) (a n : Nat) : (State.dirty s b a n).imem = s.imem := by unfold State.dirty; dsimp only; split <;> rfl
@[simp] theorem State.issueReq_imem (s : State) (r : Req) : (State.issueReq s r).imem = s.imem := by unfold State.issueReq; (repeat' split) <;> simp_all
@[simp] theorem State.errorIn_imem (s : State) (r : Req) : (State.errorIn s r).imem = s.imem := by simp [State.errorIn]
@[simp] theorem State.ackIn_imem (s : State) (r : Req) : (State.ackIn s r).imem = s.imem := by simp [State.ackIn]
@[simp] theorem State.badTag_imem (s : State) : (State.badTag s).imem = s.imem := by simp [State.badTag]
@[simp] theorem State.rejectEntry_imem (s : State) (n : Nat) (e : Entry) : (State.rejectEntry s n e).imem = s.imem := by simp [State.rejectEntry]
@[simp] theorem State.openConsist_imem (s : State) (st : Sid) : (State.openConsist s st).1.imem = s.imem := by simp [State.openConsist]
@[simp] theorem State.hurryAll_imem (s : State) (st : Sid) : (State.hurryAll s st).imem = s.imem := by simp [State.hurryAll, foldl_imem]
@[simp] theorem State.modRound_imem (s : State) (vg : Nat) (tick : W64) (f : Round → Round) : (State.modRound s vg tick f).imem = s.imem := by simp [State.modRound, ite_imem]
@[simp] theorem State.tellChildren_imem (s : State) (vg : Nat) (tick : W64) (commit : Bool) (reason : Nat) : (State.tellChildren s vg tick commit reason).imem = s.imem := by simp [State.tellChildren, foldl_imem, ite_imem]
@[simp] theorem State.rootDecide_imem (s : State) (r : Round) (complete : Bool) : (State.rootDecide s r complete).imem = s.imem := by simp [State.rootDecide]
@[simp] theorem State.pruneRounds_imem (s : State) : (State.pruneRounds s).imem = s.imem := by simp [State.pruneRounds]
@[simp] theorem State.deny_imem (s : State) : (State.deny s).imem = s.imem := by simp [State.deny]
@[simp] theorem State.entriesFrom_imem (s : State) (bank : Nat) : (State.entriesFrom s bank).imem = s.imem := by simp [State.entriesFrom]
@[simp] theorem State.hostSwitch_imem (s : State) : (State.hostSwitch s).imem = s.imem := by simp [State.hostSwitch, ite_imem]
@[simp] theorem State.haddrWrite_imem (s : State) (v : W64) : (State.haddrWrite s v).imem = s.imem := by simp [State.haddrWrite]
@[simp] theorem State.ignore_imem (s : State) (st : Sid) : (State.ignore s st).imem = s.imem := by simp [State.ignore]
@[simp] theorem State.roundFull_imem (s : State) (vg : Nat) (tick : W64) : (State.roundFull s vg tick).imem = s.imem := by unfold State.roundFull; (repeat' split) <;> simp_all
@[simp] theorem State.stopStream_imem (s : State) (st : Sid) : (State.stopStream s st).imem = s.imem := by unfold State.stopStream; (repeat' split) <;> simp_all
@[simp] theorem State.dropRing_imem (s : State) (ch : Nat) : (State.dropRing s ch).imem = s.imem := by simp [State.dropRing]
@[simp] theorem State.clearHalt_imem (s : State) (st : Sid) : (State.clearHalt s st).imem = s.imem := by simp [State.clearHalt]
@[simp] theorem State.postPut_imem (s : State) (n : Nat) (v : W32) (ev : Bool) : (State.postPut s n v ev).imem = s.imem := by simp [State.postPut, ite_imem]
@[simp] theorem State.postAckWrite_imem (s : State) (v : W64) : (State.postAckWrite s v).imem = s.imem := by simp [State.postAckWrite, ite_imem]
@[simp] theorem State.barFault_imem (s : State) : (State.barFault s).imem = s.imem := by simp [State.barFault]
@[simp] theorem State.barWrite_imem (s : State) (w1 : Bool) (v : W64) : (State.barWrite s w1 v).imem = s.imem := by simp [State.barWrite, ite_imem]
@[simp] theorem State.plainWrite_imem (s : State) (off : Nat) (v : W64) : (State.plainWrite s off v).imem = s.imem := by simp [State.plainWrite, ite_imem]
@[simp] theorem State.setFeed_imem (s : State) (north : Bool) (n : Nat) (f : Option Feed) : (State.setFeed s north n f).imem = s.imem := by simp [State.setFeed, ite_imem]
@[simp] theorem State.stkMerge_imem (s : State) (n : Nat) (v : W32) : (State.stkMerge s n v).imem = s.imem := by simp [State.stkMerge, ite_imem]
@[simp] theorem State.beginWipe_imem (s : State) (cause : Option Nat) : (State.beginWipe s cause).imem = s.imem := by unfold State.beginWipe; (repeat' split) <;> simp_all
@[simp] theorem State.pushWork_imem (s : State) (st : Sid) (mems : List VeMem) : (State.pushWork s st mems).imem = s.imem := by simp [State.pushWork]
@[simp] theorem State.skipStop_imem (s : State) (err : Nat) : (State.skipStop s err).imem = s.imem := by simp [State.skipStop]
@[simp] theorem State.notePoison_imem (s : State) (units : List (List Byte × Bool)) : (State.notePoison s units).imem = s.imem := by simp [State.notePoison, ite_imem]
@[simp] theorem State.restoreRefuse_imem (s : State) (err : Nat) : (State.restoreRefuse s err).imem = s.imem := by simp [State.restoreRefuse]
@[simp] theorem State.setOverride_imem (s : State) (v : Bool) : (State.setOverride s v).imem = s.imem := by simp [State.setOverride, ite_imem]
@[simp] theorem State.accLoad_imem (s : State) (st : Sid) (a : ScalAcc) (bs : List Byte) : (State.accLoad s st a bs).imem = s.imem := by unfold State.accLoad; (repeat' split) <;> simp_all
@[simp] theorem State.ckeConfig_imem (s : State) (off : Nat) (v : W64) : (State.ckeConfig s off v).imem = s.imem := by simp [State.ckeConfig, ite_imem]
@[simp] theorem State.nextTrial_imem (s : State) (k : Nat) : (State.nextTrial s k).imem = s.imem := by simp [State.nextTrial]
@[simp] theorem State.openCal_imem (s : State) (us : Nat) : (State.openCal s us).imem = s.imem := by simp [State.openCal, ite_imem]
@[simp] theorem State.merLock_imem (s : State) (e : Int) (told : Bool) : (State.merLock s e told).imem = s.imem := by simp [State.merLock, ite_imem]
@[simp] theorem State.merSlew_imem (s : State) (e : Int) : (State.merSlew s e).imem = s.imem := by simp [State.merSlew]
@[simp] theorem State.hostLate_imem (s : State) (tg : W64) : (State.hostLate s tg).imem = s.imem := by simp [State.hostLate, ite_imem]
@[simp] theorem State.reqErr_imem (s : State) : (State.reqErr s).imem = s.imem := by simp [State.reqErr]
@[simp] theorem State.unlockFail_imem (s : State) : (State.unlockFail s).imem = s.imem := by simp [State.unlockFail]
@[simp] theorem State.keyAck_imem (s : State) : (State.keyAck s).imem = s.imem := by simp [State.keyAck]
@[simp] theorem State.keyErr_imem (s : State) : (State.keyErr s).imem = s.imem := by simp [State.keyErr]
@[simp] theorem State.crcErr_imem (s : State) : (State.crcErr s).imem = s.imem := by simp [State.crcErr]
@[simp] theorem State.shadowWrite_imem (s : State) (st : Sid) (v : W64) : (State.shadowWrite s st v).imem = s.imem := by simp [State.shadowWrite, ite_imem]
@[simp] theorem State.vgWrite_imem (s : State) (off : Nat) (v : W64) : (State.vgWrite s off v).imem = s.imem := by simp [State.vgWrite, ite_imem]
@[simp] theorem State.recordWrite_imem (s : State) (off : Nat) (v : W64) : (State.recordWrite s off v).imem = s.imem := by simp [State.recordWrite, ite_imem]
@[simp] theorem State.modeWrite_imem (s : State) (v : W64) : (State.modeWrite s v).imem = s.imem := by simp [State.modeWrite, ite_imem]
@[simp] theorem State.testEvents_imem (s : State) (v : W64) : (State.testEvents s v).imem = s.imem := by simp [State.testEvents, foldl_imem, ite_imem]
@[simp] theorem State.eccCntWrite_imem (s : State) (k : Nat) (v : W64) : (State.eccCntWrite s k v).imem = s.imem := by simp [State.eccCntWrite, ite_imem]
@[simp] theorem State.wearWrite_imem (s : State) (v : W64) : (State.wearWrite s v).imem = s.imem := by simp [State.wearWrite, ite_imem]
@[simp] theorem State.trkWrite_imem (s : State) (off : Nat) (v : W64) : (State.trkWrite s off v).imem = s.imem := by simp [State.trkWrite, ite_imem]
@[simp] theorem State.loadWir_imem (s : State) (code : Nat) : (State.loadWir s code).imem = s.imem := by simp [State.loadWir]
@[simp] theorem State.takePorts_imem (s : State) : (State.takePorts s).imem = s.imem := by simp [State.takePorts]
@[simp] theorem State.scanDeny_imem (s : State) : (State.scanDeny s).imem = s.imem := by simp [State.scanDeny]
@[simp] theorem State.intestUpdate_imem (s : State) : (State.intestUpdate s).imem = s.imem := by simp [State.intestUpdate, ite_imem]
@[simp] theorem State.ijtagUpdate_imem (s : State) : (State.ijtagUpdate s).imem = s.imem := by simp [State.ijtagUpdate, ite_imem]
@[simp] theorem State.noteRow_imem (s : State) (st : Sid) (bank : Nat) : (State.noteRow s st bank).imem = s.imem := by unfold State.noteRow; dsimp only; (repeat' split) <;> simp_all

end Sys2Proof.Machine
end

