-- ==== Sys2Proof/Laws/Issue.lean ====
section
/-!
SUPPORT. What issuing a row that names one command does, once for every command: it goes on, it waits, it is passed over, or
it halts.
-/

namespace Sys2Proof.Machine

/-- Without a noted halt a word is left, or waits, as it stands. -/
theorem State.takeNoted_none (s : State) (st : Sid) (h : (s.str st).pendHalt = none) : s.takeNoted st = s := by
  simp [State.takeNoted, h]

/-- Inside a chain a noted halt waits for the last member (07 R444). -/
theorem State.takeNoted_chain (s : State) (st : Sid) (h : (s.str st).chain ≠ 0) : s.takeNoted st = s := by
  unfold State.takeNoted
  split
  · contradiction
  · rfl

/-- The walk of a lone slot starts here. -/
def State.walk0 (s : State) (st : Sid) : Walk := ⟨s.began st, s.pendRegs st, [], [], none, none, [], none⟩

theorem issueWord_open {s : State} {st : Sid} {c : Slot} (m : CmdSem) (h : MayIssue s st c) :
    s.issueWord st (loneWord s st c) (lonePre s st c) [(c, m)] [(c, 0)] =
      (match walkSlots st (s.loneLw st c) (s.walk0 st) [(c, m)] with
      | .halt f c => s.haltAtIssue st f (some c)
      | .stall k n => s.modStr st fun t => { t with stall := if k = quietStall then none else some (k, n) }
      | .go w =>
        match w.wait with
        | some (k, c') => ((s.counted st [c.tag] w.s).modStr st fun t =>
            { t with wait := some ⟨k, c', (loneWord s st c).addr, (loneWord s st c).len, w.ctl, w.late,
                       ((s.counted st [c.tag] w.s).ownPend st w.pend).map t.rdReg⟩, waited := 0, waitTold := false, stall := none }).takeNoted st
        | none => (s.counted st [c.tag] w.s).finishWord st (s.loneLw st c) w.jump (w.late ++ w.lateW)) := by
  have h1 := h.issues
  have h3 := h.loopRegs
  have h6 := h.noBreak
  have hp : lonePre s st c = none := by simp [lonePre, h.admits, h.noChain]
  have hr : (if ((s.str st).fresh && decide (s.rf 8 15 13 = 4)) = true then some (chk 6 true 0x15, some c) else none) = none := by
    have := h.allowed
    split
    · rename_i q; simp only [Bool.and_eq_true, decide_eq_true_eq] at q; exact absurd q this
    · rfl
  have ht : ((decide (s.rf 0x8080 1 0 = 1) || decide (s.rf 0x8080 1 0 = 2)) && decide (s.ring.tr.length ≥ 64)) = false := by
    have := h.traceRoom
    simp only [ge_iff_le, Bool.and_eq_false_iff, Bool.or_eq_false_iff, decide_eq_false_iff_not]
    tauto
  simp only [State.issueWord, h1, ht, h3, hp, h.noChain, h6, loneWord, List.head?_cons, Option.map_some]
  simp only [Bool.not_true, Bool.false_eq_true, if_false, hr]
  simp only [ite_self]
  rfl

/-- Nothing of the word is under way to registers that nothing is to write. -/
theorem supersede_settled {s : State} {st : Sid} {keys : List (Nat × Nat)} (h : hazard (s.pendRegs st) keys = false) :
    s.supersede st keys = s := by
  have hk : ∀ k ∈ s.pendRegs st, k ∉ keys := by
    intro k hk hm
    simp only [hazard, List.any_eq_false, List.contains_iff_mem] at h
    exact h k hm hk
  have hs : ((s.str st).scal.map fun a => if a.isLoad && keys.contains (a.kind, a.idx) then { a with kind := 5 } else a) = (s.str st).scal := by
    conv_rhs => rw [← List.map_id (s.str st).scal]
    refine List.map_congr_left fun a ha => ?_
    by_cases hl : a.isLoad
    · have : (a.kind, a.idx) ∉ keys := hk _ (List.mem_append_left _ (List.mem_map.2 ⟨a, List.mem_filter.2 ⟨ha, hl⟩, rfl⟩))
      simp [this]
    · simp [hl]
  have hid : (s.modStr st fun t => { t with scal := t.scal.map (fun a => if a.isLoad && keys.contains (a.kind, a.idx) then { a with kind := 5 } else a) }) = s := by
    cases st <;> simp only [State.modStr, State.str] at hs ⊢ <;> rw [hs]
  rw [State.supersede, hid]
  cases st with
  | a => simp
  | x =>
    have hv : (s.vec.ve.map fun w => { w with pend := w.pend.filter fun k => !keys.contains k }) = s.vec.ve := by
      conv_rhs => rw [← List.map_id s.vec.ve]
      refine List.map_congr_left fun w hw => ?_
      have : (w.pend.filter fun k => !keys.contains k) = w.pend := by
        refine List.filter_eq_self.2 fun k hkw => ?_
        have := hk k (List.mem_append_right _ (List.mem_append_left _ (List.mem_flatMap.2 ⟨w, hw, hkw⟩)))
        simp [this]
      rw [this]; rfl
    have hr : (s.vec.redq.map fun r => { r with wr := r.wr.filter fun w => !w.names keys }) = s.vec.redq := by
      conv_rhs => rw [← List.map_id s.vec.redq]
      refine List.map_congr_left fun r hrq => ?_
      have : (r.wr.filter fun w => !w.names keys) = r.wr := by
        refine List.filter_eq_self.2 fun w hw => ?_
        have := hk (w.kind, w.idx) (List.mem_append_right _ (List.mem_append_right _ (List.mem_flatMap.2 ⟨r, hrq, List.mem_map.2 ⟨w, hw, rfl⟩⟩)))
        simp [RegWr.names, this]
      rw [this]; rfl
    simp only [hv, hr, ite_self]

/-- The state that a lone command leaves where it goes on: a class-W command's registers are written when it ends, and what
other commands had under way to them comes to nothing (07 R175). -/
def CmdSem.left (m : CmdSem) (st : Sid) (c : Slot) (s' : State) (l : List RegWr) : State :=
  if m.isW c then s'.supersede st (l.map fun r => (r.kind, r.idx)) else s'

/-- The walk over a lone slot whose guard is true and which breaks no check. -/
theorem walkSlot_sound {s : State} {st : Sid} {c : Slot} {m : CmdSem} (h : Clear m s st c) :
    walkSlot st (s.loneLw st c) (s.walk0 st) c m =
      (match m.run (s.began st) st c (s.loneLw st c) with
      | .ok s' l =>
        if m.isW c then .go { s.walk0 st with s := (m.left st c s' l).bumpCc st, lateW := l }
        else .go { s.walk0 st with s := s'.bumpCc st, late := l }
      | .wait s' k l => .go { s.walk0 st with s := s'.bumpCc st, lateW := l, wait := some (k, c), wdst := m.dst c }
      | .stall k n => .stall k n
      | .jump s' a => .go { s.walk0 st with s := s'.bumpCc st, jump := some a }) := by
  have hc : ((s.began st).str st).chain = 0 := by cases st <;> exact h.may.noChain
  have hg : guardTrue ((s.began st).str st) c = true := by cases st <;> exact h.guard
  have hs := h.sound.settled
  have hz : hazard (s.pendRegs st) [(2, c.gp)] = false ∧ hazard (s.pendRegs st) (m.regs c) = false ∧
      hazard ((s.began st).pendRegs st) (m.dst c) = false := by
    have hb : (s.began st).pendRegs st = s.pendRegs st := by cases st <;> rfl
    rw [hb]
    simp only [hazard, List.any_cons, List.any_append, List.any_nil, Bool.or_false, Bool.or_eq_false_iff] at hs ⊢
    tauto
  have hw : (s.began st).wrRegs st [] = s.began st := by cases st <;> rfl
  have hd := supersede_settled hz.2.2
  simp only [walkSlot, State.walk0, hc, hz.1, hz.2.1, hw]
  cases hq : m.isW c <;> simp [hg, h.sound.checks, hd, CmdSem.left, hq] <;> cases m.run (s.began st) st c (s.loneLw st c) <;> rfl

/-- A command that issues: it goes on, waits or stalls, as its effect at issue says. -/
theorem issueRow_clear {s : State} {st : Sid} {c : Slot} {m : CmdSem} (h : Clear m s st c) :
    issueRow m st c s = .next
      (match m.run (s.began st) st c (s.loneLw st c) with
      | .ok s' l => s.retired st c (m.left st c s' l) none l
      | .wait s' k _ => s.waits st c s' k
      | .stall k n => s.modStr st fun t => { t with stall := if k = quietStall then none else some (k, n) }
      | .jump s' a => s.retired st c s' (some a) []) := by
  rw [issueRow, issueWord_open m h.may]
  simp only [walkSlots, walkSlot_sound h]
  cases m.run (s.began st) st c (s.loneLw st c) with
  | ok s' l => cases hw : m.isW c <;> simp [State.retired, State.walk0, CmdSem.left, hw]
  | wait s' k l => simp [State.waits, loneWord, State.walk0]
  | stall k n => rfl
  | jump s' a => simp [State.retired, State.walk0]

/-- A command that goes on. -/
theorem issueRow_ok {s s' : State} {st : Sid} {c : Slot} {m : CmdSem} {l : List RegWr} (h : Clear m s st c)
    (hr : m.run (s.began st) st c (s.loneLw st c) = .ok s' l) : issueRow m st c s = .next (s.retired st c (m.left st c s' l) none l) := by
  rw [issueRow_clear h, hr]

/-- A command that jumps. -/
theorem issueRow_jump {s s' : State} {st : Sid} {c : Slot} {m : CmdSem} {a : Nat} (h : Clear m s st c)
    (hr : m.run (s.began st) st c (s.loneLw st c) = .jump s' a) : issueRow m st c s = .next (s.retired st c s' (some a) []) := by
  rw [issueRow_clear h, hr]

/-- A command that waits. -/
theorem issueRow_wait {s s' : State} {st : Sid} {c : Slot} {m : CmdSem} {k : WaitKind} {l : List RegWr} (h : Clear m s st c)
    (hr : m.run (s.began st) st c (s.loneLw st c) = .wait s' k l) : issueRow m st c s = .next (s.waits st c s' k) := by
  rw [issueRow_clear h, hr]

end Sys2Proof.Machine
end

