-- ==== Sys2Proof/Tests/Slice0.lean ====
section
/-!
SUPPORT. Small tests: the checks of well-formedness, values that the spec states, and for every statement with hypotheses a
state and operands that meet them together.
-/

namespace Sys2Proof.Tests

set_option Elab.async false

open Machine

/-! ### Helpers -/

/-- `Clear`, as a test. -/
def clearB (m : CmdSem) (s : State) (st : Sid) (c : Slot) : Bool :=
  s.canIssue st && decide ((s.str st).chain = 0) && !hazard (s.pendRegs st) (stepRegs (s.str st) (s.str st).pc.toNat) &&
  !((decide (s.rf 0x8080 1 0 = 1) || decide (s.rf 0x8080 1 0 = 2)) && decide (64 ≤ s.ring.tr.length)) &&
  !((s.str st).fresh && decide (s.rf 8 15 13 = 4)) && (s.breakChk st [(c, 0)]).isNone && kindAdmits st c.kind c.opc &&
  guardTrue (s.str st) c && !hazard (s.pendRegs st) ((2, c.gp) :: m.regs c ++ m.dst c) &&
  (firstFail (m.chk (s.began st) st c (s.loneLw st c) ++ headChks (s.began st) c)).isNone

theorem clear_of {m : CmdSem} {s : State} {st : Sid} {c : Slot} (h : clearB m s st c = true) : Clear m s st c := by
  simp only [clearB, Bool.and_eq_true, Bool.not_eq_true', Bool.and_eq_false_iff, Bool.or_eq_false_iff, decide_eq_true_eq,
    decide_eq_false_iff_not, Option.isNone_iff_eq_none] at h
  obtain ⟨⟨⟨⟨⟨⟨⟨⟨⟨h1, h2⟩, h3⟩, h4⟩, h5⟩, h6⟩, h7⟩, h8⟩, h9⟩, h10⟩ := h
  exact ⟨⟨h1, h2, h3, by rintro ⟨a, b⟩; rcases h4 with ⟨x, y⟩ | x <;> omega, by rintro ⟨a, b⟩; rcases h5 with x | x <;> simp_all,
    h6, h7⟩, h8, ⟨h9, h10⟩⟩

/-- The machine after reset with one stream running, and values in its registers. -/
def run (st : Sid) : State :=
  State.reset.modStr st fun t => { t with st := .running, n := [(1, 5), (2, 7)], a := [(1, 0x1000)] }
/-- A slot with a tag. -/
def slot (kind : Nat) (base : W64) (ext : List W64 := []) : Slot := ⟨kind, 0x1234, base, ext⟩

/-! ### Well-formedness: each check refuses an ill-formed term -/

theorem test_wf_accepts_a_slot : (Instr.sadd .a (slot 0 0x0001504800000000 [5])).wellFormed = true := by decide +kernel
theorem test_wf_kind : (Instr.sadd .a (slot 8 0)).wellFormed = false := by decide +kernel
theorem test_wf_extension_words : (Instr.sadd .a (slot 0 0x0001000000000000)).wellFormed = false := by decide +kernel
theorem test_wf_chain_length : (Instr.vchain .x (slot 3 0) (List.replicate 16 (slot 3 0))).wellFormed = false := by decide +kernel
theorem test_wf_chain_member : (Instr.vchain .x (slot 3 0) [slot 3 0, slot 9 0]).wellFormed = false := by decide +kernel
theorem test_wf_tile_lanes : (Instr.tileReady true 0 false [3, 3]).wellFormed = false := by decide +kernel
theorem test_wf_entry_faults : (Instr.ftqEntryVisible 0 [.residue 1 1, .residue 1 1]).wellFormed = false := by decide +kernel
theorem test_wf_beat_lanes : (Instr.veBeat [7, 7]).wellFormed = false := by decide +kernel
theorem test_wf_staging_units : (Instr.dmaDescriptorStart 0 [2, 2]).wellFormed = false := by decide +kernel
theorem test_wf_bist_fails : (Instr.bistDone [⟨1, 0⟩, ⟨1, 0⟩] 0).wellFormed = false := by decide +kernel
theorem test_wf_wipe_fails : (Instr.wipeComplete [⟨1, 0⟩, ⟨1, 0⟩]).wellFormed = false := by decide +kernel
theorem test_wf_empty_packet : (Instr.ringForward []).wellFormed = false := by decide +kernel
theorem test_wf_long_bypass : (Instr.bypassForward 0 (List.replicate 16 0)).wellFormed = false := by decide +kernel
theorem test_wf_empty_key : (Instr.keyDelivery 0 []).wellFormed = false := by decide +kernel
theorem test_wf_sectors : (Instr.lockstepEnter []).wellFormed = false := by decide +kernel
theorem test_wf_strip : (Instr.canaryStretch 5).wellFormed = false := by decide +kernel
theorem test_wf_empty_shift : (Instr.wrapperSerialShift true []).wellFormed = false := by decide +kernel

/-! ### Values that the spec works out -/

/-- 02, "one E2M1X block": 40.0 at position 9, 5.2 at 10, 2.5 at 8, −0.3 at 11; nothing else. -/
def e2m1xRow : BlkRow × Cnts :=
  let row := (List.range 32).map fun i => some (Num.ofRat (match i with | 8 => 5 / 2 | 9 => 40 | 10 => 26 / 5 | 11 => -3 / 10 | _ => 0))
  let q := quantBlock 0xA false (fun _ _ => .rne) [row]
  (q.1.headD ⟨[], 0, none⟩, q.2)
theorem test_e2m1x_side_record : sideRecord 0xA e2m1xRow.1 = [0x4C, 0x62, 0x7F] := by decide +kernel
theorem test_e2m1x_elements : ((packCodes 4 e2m1xRow.1.codes).drop 4).take 2 = [0x04, 0x97] := by decide +kernel

/-- 02, "order does not matter": products of significand width 4. -/
def sumOf (l : List Rat) : Ledger := l.foldl (fun g q => (g.addNum (Num.ofRat q) 4).1) Ledger.empty
theorem test_ledger_word : (sumOf [2 ^ 40, 1, -2 ^ 40]).word = 0x00000000000000004000000000F69184 := by decide +kernel
theorem test_ledger_order : sumOf [1, 2 ^ 40, -2 ^ 40] = { sumOf [2 ^ 40, 1, -2 ^ 40] with cnt := 3 } := by decide +kernel

/-- 04, "Worked example": TGT 15, H 4, the almanac 4.9, 40.0, 5.7, 3.1. -/
def almanac (pol : Nat) : Trk :=
  { Trk.zero with scfg := BitVec.ofNat 64 (pol * 2 ^ 62 + 3 * 2 ^ 58 + 15 * 2 ^ 50)
                  alm := [bits32 (Num.ofRat (49 / 10)), bits32 (Num.ofRat 40), bits32 (Num.ofRat (57 / 10)), bits32 (Num.ofRat (31 / 10))] }
theorem test_almanac_max : (almanac 1).derive = 0x3B000000 := by decide +kernel
theorem test_almanac_second : (almanac 2).derive = 0x39800000 := by decide +kernel

/-- 06, "Worked example": ET = 0xFFFE accepts ticket 0x0001; a stale 0x7FFE is discarded and marks the context. -/
def nearWrap : State := { State.reset with qsy := [(200, { State.reset.ctx 200 with et := 0xFFFE })] }
def oneCar : Entry := ⟨0, [⟨0, false, .good⟩], none, none, none⟩
theorem test_ticket_wrap : (((nearWrap.pushNow 200 (some 0x0001) oneCar).ctx 200).entries.map (·.tkt)) = [0x0001] := by decide +kernel
theorem test_ticket_stale : ((nearWrap.pushNow 200 (some 0x7FFE) oneCar).ctx 200).entries = [] ∧
    ((nearWrap.pushNow 200 (some 0x7FFE) oneCar).ctx 200).ordflt = true := by decide +kernel

/-- 08, "one MXP to the bits". -/
theorem test_mxp_fields :
    let c := slot 2 0x63020808010A3000
    c.opc = 0x31 ∧ c.ct = true ∧ c.xw = 2 ∧ mxpM c = 128 := by decide +kernel

/-- 09, "one X-stream long word". -/
def spreadWord : List Slot :=
  [⟨0, 0x0A10, 0x0601504800000000, [0x1000]⟩, ⟨2, 0x0A11, 0x63020808010A3000, [0x0010000000000000, 0]⟩, ⟨5, 0x0A12, 0x4400004000000000, []⟩]
theorem test_long_word : packWords .x spreadWord = [0x3825000000000000, 0x0601504800000000, 0x1000, 0x63020808010A3000,
    0x0010000000000000, 0, 0x4400004000000000, 0] := by decide +kernel
theorem test_long_word_tags : (packUnit .x spreadWord 0).extractLsb' 128 32 = 0x0A110A10 ∧
    (packUnit .x spreadWord 1).extractLsb' 128 32 = 0x00000A12 := by decide +kernel

/-- 10, "Worked example", step 1: OFFSET −40, the local count 5,000,000,073.0, an update of TICK 5,000,000,000 and AGE 1,184. -/
def ticking : State :=
  { State.reset.wr 0x1010 0xFFD8 with mer := { Mer.reset with st := .locked, count := BitVec.ofNat 96 (5000000073 * 2 ^ 32) } }
theorem test_update_lasterr : (ticking.merUpdate 5000000000 1184).rd 0x1018 = 0xFFFFFFE8 := by decide +kernel
theorem test_update_stays_locked : (ticking.merUpdate 5000000000 1184).mer.st = .locked := by decide +kernel

/-- 16, after R408: sectors at 71, 78, 85 and 92 °C pass the limit; with sector 3 at 90 °C they do not. -/
def warm (t : BitVec 12) : List SectReading := [71 * 8, 78 * 8, 85 * 8, t].map fun x => ⟨x, 0⟩
theorem test_lockstep_limit : (State.reset.putReadings (warm (92 * 8))).pastLimits = true ∧
    (State.reset.putReadings (warm (90 * 8))).pastLimits = false := by decide +kernel

/-- 17, after R428: the write to 0x0190 clears bank 5 alone. -/
theorem test_ecccnt_clear : ((State.reset.wr 0x190 0x0000004000000007).eccCntWrite 2 0x000000000000FFFF).rd 0x190 = 7 := by decide +kernel

/-! ### The hypotheses of the statements can be met -/

theorem witness_idle : State.reset.pending = [] ∧ State.reset.pins.aclkLocked = true ∧ State.reset.fab.todo = [] ∧ State.reset.slotTurn = none ∧ State.reset.pins.tripping = [] ∧ State.reset.cstate = 0 ∧
    State.reset.rf 0x1808 6 5 = 0 ∧ (upto 4).all (fun n => !State.reset.eighthDue n) = true ∧ State.reset.mer.st = .unlocked := by decide +kernel
theorem witness_idle_unlocked : (modPins State.reset fun p => { p with aclkLocked := false }).pending = [] ∧
    (modPins State.reset fun p => { p with aclkLocked := false }).pins.aclkLocked = false := by decide +kernel
/-- A locked meridian with a trim, in a slew, with two channels that have a request to send. -/
def counting (slew : Nat) : State :=
  { State.reset with mer := { Mer.reset with st := .locked, inc := 1000, trim := -5, slew := slew }
                     fab := { State.reset.fab with rr := 1, todo := [⟨0, 0x100, 1, 0, 0, 0, false, none⟩, ⟨0, 0x180, 3, 0, 0, 0, false, some ⟨0, false⟩⟩] } }
theorem witness_idle_counts : (counting 0).mer.st ≠ .unlocked ∧ (counting 0).mer.slew = 0 ∧ 0 < (counting 7).mer.slew ∧ (counting 0).pins.dead.contains 0x0F = false ∧
    (counting 0).rb 0x9000 1 = false ∧ (counting 0).rf 0x9100 47 0 < 2 ^ 48 - 1 ∧ (State.reset.setRf 0x9000 1 1 1).rb 0x9000 1 = true := by decide +kernel
theorem witness_idle_slot : (∀ r ∈ (counting 0).fab.todo, (counting 0).reqBlock r = none) ∧ (counting 0).slotTurn = some 3 ∧
    ({ counting 0 with fab := { (counting 0).fab with rr := 3 } } : State).slotTurn = some 1 := by decide +kernel
/-- A checkpoint's state, with its read. -/
def engineAt (cs : Nat) (rs : Nat) (job : Option CkeJob) : State :=
  { (State.reset.setRf 0x1808 2 0 cs).setRf 0x1808 6 5 rs with cke := { State.reset.cke with job := job } }
theorem witness_idle_engine : (engineAt 1 0 none).cstate = 1 ∧ (engineAt 1 0 none).quiesced = true ∧ (engineAt 1 0 none).cke.sealed = false ∧
    ({ engineAt 1 0 none with vec := { State.reset.vec with redq := [⟨[], false, none, 0⟩] } } : State).quiesced = false ∧
    (engineAt 2 0 (some ⟨.staged 0 0, 1, 1, []⟩)).cstate = 2 ∧ (engineAt 2 0 (some ⟨.region ⟨3, 0, 0, 0, false, 0, 0⟩ (some (0, 0)), 1, 0, []⟩)).cstate = 2 := by decide +kernel
theorem witness_idle_restore : (engineAt 0 1 (some ⟨.trailer, 1, 0, []⟩)).rf 0x1808 6 5 = 1 ∧ (engineAt 0 1 (some ⟨.trailer, 1, 0, []⟩)).cke.regions = false ∧
    (engineAt 0 1 (some ⟨.trailer, 1, 0, []⟩)).openTrailer ⟨.trailer, 1, 0, []⟩ = .inr 2 := by decide +kernel

def listed : State := { State.reset with spm := { State.reset.spm with mem := [(3, 7), (0xFFFFFF, 1)] }, pending := [.imemEccWriteback true 5] }
theorem witness_canonical : listed.memWf = true ∧ ∃ t, step listed = .next t := ⟨by decide +kernel, _, rfl⟩

def heldTags : State :=
  { State.reset with qsy := [(16, { Ctx.zero with entries := [⟨3, [], none, none, none⟩, ⟨4, [], none, none, none⟩] }), (56, { Ctx.zero with nt := 1 })]
                     fab := { State.reset.fab with reads := [⟨0, 0x80, 1, 0, 0, 1, false, none⟩, ⟨1, 0x100, 1, 0, 1, 2, false, none⟩] } }
theorem witness_bounds : heldTags.boundsWf ∧ ∃ t, step heldTags = .next t := by
  refine ⟨⟨by decide +kernel, fun n => ?_, fun st => by cases st <;> decide +kernel, by decide +kernel⟩, _, rfl⟩
  by_cases h : n = 16
  · subst h; decide +kernel
  · by_cases k : n = 56
    · subst k; decide +kernel
    · have e : heldTags.ctx n = Ctx.zero := by
        unfold State.ctx heldTags
        simp [tget, Ne.symm h, Ne.symm k]
      rw [e]; decide +kernel

def logged : State :=
  { (State.reset.setRf 0x1400 44 32 1).setRf 0x1408 44 32 1 with
    cA := { Csu.reset with st := .opened, id := 1, log := [3, 7] }, cX := { Csu.reset with st := .deciding, id := 2, log := [5] } }
theorem witness_logs : logged.consistsWf ∧ ∃ t, step logged = .next t := ⟨fun st => by cases st <;> exact ⟨by decide +kernel, by decide +kernel, by decide +kernel, by decide +kernel, rfl, rfl⟩, _, rfl⟩

/-- The machine with one long word in bank 0. -/
def runHeld (st : Sid) (c : Slot) : State :=
  { run st with imem := { State.reset.imem with rows := (upto (packLen st [c])).map fun i => (i, packUnit st [c] i) } }
def addSlot : Slot := asOpc 3 (slot 0 (BitVec.ofNat 64 (3 * 2 ^ 42 + 1 * 2 ^ 36 + 2 * 2 ^ 29)))
theorem witness_long_word : packable .a [addSlot] = true ∧ kindAdmits .a addSlot.kind addSlot.opc = true ∧
    rowOf .a addSlot = some (.sadd .a addSlot) ∧ (runHeld .a addSlot).holds .a ((runHeld .a addSlot).str .a).pc.toNat [addSlot] := by
  refine ⟨by decide +kernel, by decide +kernel, by decide +kernel, fun i hi => ?_⟩
  have h : i < 1 := hi
  interval_cases i; decide +kernel

theorem witness_reads_back : packable .x [addSlot, asOpc 0x1F (slot 6 0)] = true ∧
    ({ run .x with imem := { State.reset.imem with rows := (upto (packLen .x [addSlot, asOpc 0x1F (slot 6 0)])).map fun i =>
        (i, packUnit .x [addSlot, asOpc 0x1F (slot 6 0)] i) } } : State).holds .x 0 [addSlot, asOpc 0x1F (slot 6 0)] := by
  refine ⟨by decide +kernel, fun i hi => ?_⟩
  have h : i < 2 := hi
  interval_cases i <;> decide +kernel

def offSlot : Slot := asOpc 3 (slot 0 (BitVec.ofNat 64 (2 ^ 55 + 3 * 2 ^ 42 + 1 * 2 ^ 36 + 2 * 2 ^ 29)))
theorem witness_false_guard : offSlot.wf = true ∧ rowOf .a offSlot = some (.sadd .a offSlot) ∧ guardTrue ((run .a).str .a) offSlot = false ∧
    offSlot.gp = 0 ∧ firstFail (((cmdOf [] [] offSlot).chk ((run .a).began .a) .a offSlot ((run .a).loneLw .a offSlot) ++
      headChks ((run .a).began .a) offSlot).filter (·.cls = 1)) = none := by decide +kernel
theorem witness_false_guard_issues : MayIssue (run .a) .a offSlot :=
  ⟨by decide +kernel, by decide +kernel, by decide +kernel, by decide +kernel, by decide +kernel, by decide +kernel, by decide +kernel⟩

def deepSlot : Slot := asOpc 3 (slot 0 (BitVec.ofNat 64 (9 * 2 ^ 42 + 1 * 2 ^ 36 + 2 * 2 ^ 29)))
theorem witness_failing_check : deepSlot.wf = true ∧ rowOf .a deepSlot = some (.sadd .a deepSlot) ∧ guardTrue ((run .a).str .a) deepSlot = true ∧
    hazard ((run .a).pendRegs .a) ((2, deepSlot.gp) :: (cmdOf [] [] deepSlot).regs deepSlot) = false ∧
    firstFail ((cmdOf [] [] deepSlot).chk ((run .a).began .a) .a deepSlot ((run .a).loneLw .a deepSlot) ++
      headChks ((run .a).began .a) deepSlot) = some (chk 1 true 3) := by decide +kernel
theorem witness_failing_check_issues : MayIssue (run .a) .a deepSlot :=
  ⟨by decide +kernel, by decide +kernel, by decide +kernel, by decide +kernel, by decide +kernel, by decide +kernel, by decide +kernel⟩

theorem witness_retired : ((run .a).str .a).chain = 0 ∧ ((run .a).str .a).pendHalt = none ∧ ((run .a).str .a).loops.getLast? = none := by
  decide +kernel

def looped (lc : W32) : State := (run .a).modStr .a fun t => { t with loops := [⟨0, 0, lc, [(1, -8)]⟩] }
theorem witness_loop_end : ((looped 2).str .a).loops = [] ++ [⟨0, 0, 2, [(1, -8)]⟩] ∧ ((looped 1).str .a).loops = [] ++ [⟨0, 0, 1, [(1, -8)]⟩] ∧
    ((looped 1).str .a).pc.toNat = 0 ∧ ((looped 1).str .a).chain = 0 ∧ ((looped 1).str .a).pendHalt = none := by decide +kernel

def aluSlot (op dk d a t : Nat) : Slot := asOpc op (slot 0 (BitVec.ofNat 64 (dk * 2 ^ 46 + d * 2 ^ 42 + a * 2 ^ 36 + t * 2 ^ 29)))
def aluImm (op dk d a : Nat) (v : W64) : Slot :=
  asOpc op (slot 0 (BitVec.ofNat 64 (2 ^ 48 + dk * 2 ^ 46 + d * 2 ^ 42 + a * 2 ^ 36 + 2 ^ 35)) [v])
theorem witness_alu_n : Clear saddSem (run .a) .a (aluSlot 3 0 7 1 2) ∧ Clear ssubSem (run .x) .x (aluImm 4 0 0 1 0xFFFFFFFF) ∧
    Clear sandSem (run .a) .a (aluSlot 6 0 7 1 2) ∧ Clear sorSem (run .a) .a (aluSlot 7 0 7 1 2) ∧ Clear sxorSem (run .a) .a (aluSlot 8 0 7 1 2) ∧
    Clear sshlSem (run .a) .a (aluImm 9 0 7 1 32) ∧ Clear sshrSem (run .a) .a (aluImm 0xA 0 7 1 32) ∧ Clear sshraSem (run .a) .a (aluImm 0xB 0 7 1 32) :=
  ⟨clear_of (by decide +kernel), clear_of (by decide +kernel), clear_of (by decide +kernel), clear_of (by decide +kernel), clear_of (by decide +kernel), clear_of (by decide +kernel),
    clear_of (by decide +kernel), clear_of (by decide +kernel)⟩

theorem witness_alu_a : Clear saddSem (run .a) .a (aluSlot 3 1 15 1 0) ∧ Clear ssubSem (run .x) .x (aluImm 4 1 15 1 0xFFFFFFFFFFFF) ∧
    Clear smulSem (run .a) .a (aluSlot 5 0 7 1 2) := ⟨clear_of (by decide +kernel), clear_of (by decide +kernel), clear_of (by decide +kernel)⟩

def sliSlot (dk d : Nat) (v : W64) : Slot := asOpc 1 (slot 0 (BitVec.ofNat 64 (2 ^ 48 + dk * 2 ^ 46 + d * 2 ^ 42)) [v])
theorem witness_sli : Clear sliSem (run .a) .a (sliSlot 0 7 0xFFFFFFFF) ∧ Clear sliSem (run .x) .x (sliSlot 1 15 0xFFFFFFFFFFFF) :=
  ⟨clear_of (by decide +kernel), clear_of (by decide +kernel)⟩
def smovSlot (dk d sk i : Nat) : Slot := asOpc 2 (slot 0 (BitVec.ofNat 64 (dk * 2 ^ 46 + d * 2 ^ 42 + sk * 2 ^ 40 + i * 2 ^ 36)))
theorem witness_smov : ∀ p ∈ [(0, 7, 0, 1), (1, 15, 1, 1), (1, 15, 0, 2), (0, 7, 1, 15), (0, 7, 2, 7), (2, 7, 0, 1), (2, 7, 2, 1), (0, 0, 3, 3), (0, 0, 3, 4),
    (0, 0, 3, 5), (0, 0, 3, 6), (0, 0, 3, 7), (2, 1, 1, 1), (1, 1, 2, 1), (1, 1, 3, 7), (2, 1, 3, 0)], clearB smovSem (run .a) .a (smovSlot p.1 p.2.1 p.2.2.1 p.2.2.2) = true := by decide +kernel

theorem witness_predicates : Clear scmpSem (run .a) .a (asOpc 0xC (slot 0 (BitVec.ofNat 64 (1 * 2 ^ 42 + 1 * 2 ^ 36 + 2 * 2 ^ 29 + 5 * 2 ^ 25)))) ∧
    Clear splSem (run .x) .x (asOpc 0xD (slot 0 (BitVec.ofNat 64 (1 * 2 ^ 42 + 4 * 2 ^ 25)))) := ⟨clear_of (by decide +kernel), clear_of (by decide +kernel)⟩

/-- A compact form of one element at A1. -/
def oneElem (ty : Nat) (off : Nat := 0) : W64 := BitVec.ofNat 64 (1 * 2 ^ 60 + ty * 2 ^ 55 + off * 2 ^ 30 + 1 * 2 ^ 9)
def memSlot (op dk d : Nat) : Slot := asOpc op (slot 0 (BitVec.ofNat 64 (2 ^ 48 + dk * 2 ^ 46 + d * 2 ^ 42 + 0x11 * 2 ^ 36)) [oneElem 3])
theorem witness_sld_sst : Clear sldSem (run .a) .a (memSlot 0xE 0 7) ∧ Clear sldSem (run .x) .x (memSlot 0xE 1 15) ∧
    Clear sstSem (run .a) .a (memSlot 0xF 0 1) ∧ Clear sstSem (run .x) .x (memSlot 0xF 1 1) :=
  ⟨clear_of (by decide +kernel), clear_of (by decide +kernel), clear_of (by decide +kernel), clear_of (by decide +kernel)⟩

def withAcc (st : Sid) (a : ScalAcc) : State := (run st).modStr st fun t => { t with scal := [a] }
theorem witness_scalar_access :
    let l : ScalAcc := ⟨true, 0, 3, [0x1000, 0x1001, 0x1002, 0x1003], [], none, 0, 0, 0, 0, 8⟩
    let w : ScalAcc := ⟨false, 0, 1, [0x1000, 0x1001, 0x1002, 0x1003], [5, 0, 0, 0], none, 0, 0, 0, 0, 0⟩
    ((withAcc .a l).str .a).scal = [l] ∧ (withAcc .a l).accHeld .a l = false ∧ (∀ k ∈ l.addrs, (withAcc .a l).spm.eccAt k = .good) ∧
      l.addrs = (List.range 4).map (0x1000 + ·) ∧ ((withAcc .a w).str .a).wait = none ∧
      (withAcc .a w).accHeld .a w = false ∧ (withAcc .a w).writeBlock (some .a) none 0x1000 4 = none ∧ (withAcc .a w).spm.gone = [] := by
  decide +kernel
theorem witness_key_schedule :
    let k : ScalAcc := ⟨true, 3, 3, (List.range 16).map (0xFFFFF0 + ·), [], none, 0, 0, 0, 0, 0⟩
    let o : ScalAcc := ⟨true, 4, 3, (List.range 64).map (0x1000 + ·), List.replicate 64 7, none, 0, 0, 0, 0, 0⟩
    ((withAcc .x k).str .x).scal = [k] ∧ (withAcc .x k).accHeld .x k = false ∧ (∀ j ∈ k.addrs, (withAcc .x k).spm.eccAt j = .good) ∧ k.addrs.length = 16 ∧
      (∀ j ∈ k.addrs, j < spmSize) ∧ (withAcc .x o).accHeld .x o = false ∧ (∀ j ∈ o.addrs, (withAcc .x o).spm.eccAt j = .good) ∧ o.bytes ≠ [] ∧
      ((withAcc .x o).str .x).st = .running ∧ ((withAcc .x o).str .x).chain = 0 := by
  decide +kernel

def loopSlot (cnt ns : Nat) (ext : List W64) : Slot :=
  asOpc 0x10 (slot 7 (BitVec.ofNat 64 (ext.length * 2 ^ 48 + cnt * 2 ^ 28 + ns * 2 ^ 25 + 3 * 2 ^ 9)) ext)
theorem witness_loop : Clear loopSem (run .a) .a (loopSlot 0 0 []) ∧ Clear loopSem (run .x) .x (loopSlot 0xFFFF 1 [0x1000008000000000]) :=
  ⟨clear_of (by decide +kernel), clear_of (by decide +kernel)⟩
theorem witness_lexit : Clear lexitSem (looped 5) .a (asOpc 0x11 (slot 7 0)) ∧ ((looped 5).str .a).loops[0]? = some ⟨0, 0, 5, [(1, -8)]⟩ :=
  ⟨clear_of (by decide +kernel), by decide +kernel⟩

def brSlot (op : Nat) (off lo : Nat) : Slot := asOpc op (slot 7 (BitVec.ofNat 64 (off * 2 ^ 24 + lo)))
theorem witness_branches : Clear brSem (run .a) .a (brSlot 0x12 0x40 0) ∧ Clear brpSem (run .x) .x (brSlot 0x13 0x10 0) ∧
    Clear brcSem (run .a) .a (brSlot 0x14 0x40 (1 * 2 ^ 21 + 2 * 2 ^ 17 + 2 * 2 ^ 13)) ∧ Clear brcSem (run .a) .a (brSlot 0x14 0x40 (1 * 2 ^ 21 + 2 * 2 ^ 17)) ∧
    brcTaken ((run .a).str .a) (brSlot 0x14 0x40 (1 * 2 ^ 21 + 2 * 2 ^ 17 + 2 * 2 ^ 13)) = true ∧
    brcTaken ((run .a).str .a) (brSlot 0x14 0x40 (1 * 2 ^ 21 + 2 * 2 ^ 17)) = false :=
  ⟨clear_of (by decide +kernel), clear_of (by decide +kernel), clear_of (by decide +kernel), clear_of (by decide +kernel), by decide +kernel, by decide +kernel⟩

def haltSlot : Slot := asOpc 0x1F (slot 6 0x7)
def brkSlot : Slot := asOpc 0x19 (slot 6 0x7)
theorem witness_halt : MayIssue (run .a) .a haltSlot ∧ haltSlot.gp = 0 ∧ haltSlot.gn = false ∧ haltSlot.ct = false ∧ haltSlot.xw = 0 ∧ haltSlot.f 47 16 = 0 :=
  ⟨⟨by decide +kernel, by decide +kernel, by decide +kernel, by decide +kernel, by decide +kernel, by decide +kernel, by decide +kernel⟩, by decide +kernel, by decide +kernel, by decide +kernel, by decide +kernel, by decide +kernel⟩
theorem witness_brk : Clear brkSem (run .a) .a brkSlot := clear_of (by decide +kernel)
theorem witness_brk_enabled : let s := (run .x).setRf 0x8040 2 2 1
    MayIssue s .x brkSlot ∧ guardTrue (s.str .x) brkSlot = true ∧ brkSlot.ct = false ∧ brkSlot.xw = 0 ∧ brkSlot.f 47 16 = 0 ∧ s.rb 0x8040 2 = true :=
  ⟨⟨by decide +kernel, by decide +kernel, by decide +kernel, by decide +kernel, by decide +kernel, by decide +kernel, by decide +kernel⟩, by decide +kernel, by decide +kernel, by decide +kernel, by decide +kernel, by decide +kernel⟩

/-- LOCAL context 100, bound with a MAXQ. -/
def localCtx (maxq : Nat) (es : List Entry) : Ctx :=
  { Ctx.zero with w0 := BitVec.ofNat 64 (2 ^ 60 + maxq * 2 ^ 28), nt := es.length, entries := es }
def runQ (maxq : Nat) (es : List Entry) : State := { run .a with qsy := [(100, localCtx maxq es)] }
def qSlot (op sel lo : Nat) (ext : List W64) : Slot := asOpc op (slot 5 (BitVec.ofNat 64 (ext.length * 2 ^ 48 + 100 * 2 ^ 35 + sel * 2 ^ 25 + lo)) ext)
/-- 64 bytes at A1. -/
def form64 : W64 := BitVec.ofNat 64 (1 * 2 ^ 60 + 4 * 2 ^ 55 + 64 * 2 ^ 9)
theorem witness_qpush : Clear qpushSem (runQ 8 []) .a (qSlot 0x20 0 0 []) ∧ Clear qpushSem (runQ 8 []) .a (qSlot 0x20 15 0 []) ∧
    Clear qpushSem (runQ 0 []) .a (qSlot 0x20 0x11 0 [form64]) ∧ (runQ 8 []).canAlloc 100 1 = true ∧ (runQ 0 []).canAlloc 100 1 = false ∧
    ((runQ 8 []).ctx 100).prod = [] ∧ (runQ 8 []).ctxClass 100 = 0 ∧
    (runQ 0 []).pushHeld .a (selForm ((runQ 0 []).str .a).regs (qSlot 0x20 0x11 0 [form64]) 0x11 0).byteAddrs = false ∧
    ((runQ 0 []).modStr .a fun t => { t with scal := [⟨false, 0, 1, [0x2000], [5], none, 0, 0, 0, 0, 0⟩] }).pushHeld .a [] = true ∧
    ((selForm ((runQ 0 []).str .a).regs (qSlot 0x20 0x11 0 [form64]) 0x11 0).byteAddrs.all fun a => decide ((runQ 0 []).spm.eccAt a = .good)) = true :=
  ⟨clear_of (by decide +kernel), clear_of (by decide +kernel), clear_of (by decide +kernel), by decide +kernel, by decide +kernel, by decide +kernel, by decide +kernel, by decide +kernel, by decide +kernel, by decide +kernel⟩

theorem witness_tickets : (((runQ 8 [mkEntry [⟨7, false, .good⟩]]).ctx 100).nt + 65536 - ((runQ 8 [mkEntry [⟨7, false, .good⟩]]).ctx 100).et) % 65536 < 32768 ∧
    (∀ x ∈ ((runQ 8 [mkEntry [⟨7, false, .good⟩]]).ctx 100).entries, x.tkt ≠ 1) ∧ (mkEntry [⟨7, false, .good⟩]).src = none ∧
    (∃ x ∈ ((runQ 8 [mkEntry [⟨7, false, .good⟩]]).ctx 100).entries, x.tkt = 0) ∧
    (65535 + 65536 - ((runQ 8 []).ctx 100).et) % 65536 ≥ 32768 := by decide +kernel

theorem witness_qpop : Clear qpopSem (runQ 8 [mkEntry [⟨7, false, .good⟩]]) .a (qSlot 0x21 15 (2 ^ 24) []) ∧ Clear qpopSem (runQ 8 []) .a (qSlot 0x21 15 0 []) ∧
    Clear qpopSem (runQ 8 [mkEntry [⟨7, false, .good⟩]]) .a (qSlot 0x21 0x11 0 [form64]) ∧ Clear qwaitSem (runQ 8 [mkEntry [⟨7, false, .good⟩]]) .a (qSlot 0x22 0 0 []) ∧
    Clear qwaitSem (runQ 8 []) .a (qSlot 0x22 0 0 []) ∧
    ((runQ 8 [mkEntry [⟨7, false, .good⟩]]).ctx 100).headEntry = some (mkEntry [⟨7, false, .good⟩]) ∧ ((runQ 8 [mkEntry [⟨7, false, .good⟩]]).ctx 100).cons = [] ∧
    ((runQ 8 []).ctx 100).headEntry = none ∧ (mkEntry [⟨7, false, .good⟩]).cars.any (fun k => k.poison || decide (k.ecc = .bad)) = false :=
  ⟨clear_of (by decide +kernel), clear_of (by decide +kernel), clear_of (by decide +kernel), clear_of (by decide +kernel), clear_of (by decide +kernel), by decide +kernel, by decide +kernel, by decide +kernel, by decide +kernel⟩

def runRing (maxq : Nat) : State := { run .a with qsy := [(16, localCtx maxq [])] }
def dmapSlot : Slot := asOpc 0x24 (slot 2 (BitVec.ofNat 64 (1 * 2 ^ 40 + 2 ^ 15 + 1 * 2 ^ 11 + 2 ^ 5 + 1 * 2 ^ 2)))
theorem witness_dmap : Clear dmapSem (runRing 8) .a dmapSlot ∧ Clear dmapSem (runRing 0) .a dmapSlot ∧ (runRing 8).canAlloc 16 1 = true ∧
    (runRing 0).canAlloc 16 1 = false ∧ ((runRing 8).ctx 16).prod = [] ∧ (runRing 8).pushHeld .a ((List.range 64).map (0x1000 + ·)) = false ∧
    (∀ i, i < 64 → (runRing 8).spm.eccAt (0x1000 + i) = .good) ∧
    Clear dmardSem (runRing 8) .a (asOpc 0x25 (slot 2 (BitVec.ofNat 64 (7 * 2 ^ 41)))) ∧
    Clear dmardSem (runRing 8) .a (asOpc 0x25 (slot 2 (BitVec.ofNat 64 (7 * 2 ^ 41 + 2 ^ 40)))) :=
  ⟨clear_of (by decide +kernel), clear_of (by decide +kernel), by decide +kernel, by decide +kernel, by decide +kernel, by decide +kernel, by decide +kernel, clear_of (by decide +kernel), clear_of (by decide +kernel)⟩

def waiting (k : WaitKind) : Wait := ⟨k, slot 5 0, 0, 16, none, [], []⟩
def runWait (k : WaitKind) (c : Ctx) : State :=
  { (run .a).modStr .a (fun t => { t with wait := some (waiting k) }) with qsy := [(100, c)] }
theorem witness_queue_events :
    let p := runWait (.push 100) { localCtx 8 [] with prod := [⟨0, none, mkEntry [⟨7, false, .good⟩]⟩] }
    let e := runWait (.push 100) { localCtx 8 [] with prod := [⟨32, none, mkEntry [⟨7, false, .good⟩]⟩] }
    let k := runWait (.pop 100) { localCtx 8 [mkEntry [⟨7, false, .good⟩]] with cons := [⟨0, .reg 7, none, none, none, 0, 0, 5⟩] }
    p.cstate ≠ 1 ∧ (p.str .a).wait = some (waiting (.push 100)) ∧ (p.str .a).loops = [] ∧ (p.str .a).chain = 0 ∧ (p.str .a).pendHalt = none ∧
    (p.ctx 100).prod = [⟨0, none, mkEntry [⟨7, false, .good⟩]⟩] ∧ p.ctxBound 100 = true ∧ p.canAlloc 100 1 = true ∧
    (e.ctx 100).prod = [⟨32, none, mkEntry [⟨7, false, .good⟩]⟩] ∧ e.ctxBound 100 = true ∧ e.canAlloc 100 1 = true ∧
    (k.ctx 100).cons = [⟨0, .reg 7, none, none, none, 0, 0, 5⟩] ∧ (k.ctx 100).headEntry = some (mkEntry [⟨7, false, .good⟩]) ∧ (k.ctx 100).ordflt = false := by
  decide +kernel
theorem witness_post_resume : let s := runWait (.post 63 9 true) Ctx.zero
    (s.str .a).wait = some (waiting (.post 63 9 true)) ∧ s.rb (0x4000 + 8 * 63) 63 = false := by decide +kernel
theorem witness_wait_long : let s := ((runWait (.pop 100) Ctx.zero).setRf 0x2050 31 0 5).modStr .a fun t => { t with waited := 5 }
    (s.str .a).waitsOn = some (0, 100) ∧ (s.str .a).waitTold = false ∧ s.rf 0x2050 31 0 = 5 ∧ (s.str .a).waited = 5 := by decide +kernel

def postSlotC (n sel : Nat) (ext : List W64) : Slot := asOpc 0x2F (slot 6 (BitVec.ofNat 64 (ext.length * 2 ^ 48 + n * 2 ^ 41 + 2 ^ 37 + sel * 2 ^ 31)) ext)
theorem witness_post_read : (run .a).pins.stopReady = true ∧ (run .a).pins.bypassClosed = false ∧ (run .a).rb 8 0 = true ∧ (run .a).rf 0xB00 4 0 = 0 ∧
    (run .a).rf 0xB00 12 8 = 0 := by decide +kernel
theorem witness_post : Clear postSem (run .a) .a (postSlotC 63 15 []) ∧ Clear postSem ((run .a).setRf 0x41F8 63 63 1) .a (postSlotC 63 15 []) ∧
    Clear postSem (run .x) .x (postSlotC 0 0x11 [oneElem 3]) ∧ (run .a).rb 0x41F8 63 = false ∧ ((run .a).setRf 0x41F8 63 63 1).rb 0x41F8 63 = true ∧
    (run .x).readWaits .x ((run .x).loneLw .x (postSlotC 0 0x11 [oneElem 3])) 0x1000 4 = false ∧ ∀ i, i < 4 → (run .x).spm.eccAt (0x1000 + i) = .good :=
  ⟨clear_of (by decide +kernel), clear_of (by decide +kernel), clear_of (by decide +kernel), by decide +kernel, by decide +kernel, by decide +kernel, by decide +kernel⟩

theorem witness_post_ack : (run .a).pins.stopReady = true ∧ (run .a).pins.bypassClosed = false ∧ (run .a).rb 8 0 = true ∧
    ((run .a).setRf 0x41F8 63 63 1).rb (0x4000 + 8 * fld (0x3F0000 : W64) 21 16) 63 = true ∧
    ((run .a).setRf 0x41F8 63 63 1).rf (0x4000 + 8 * fld (0x3F0000 : W64) 21 16) 47 32 = fld (0x3F0000 : W64) 15 0 ∧
    (run .a).rb (0x4000 + 8 * fld (0x3F0000 : W64) 21 16) 63 = false := by decide +kernel

def barCtx (o ga expect : Nat) (last : Option Nat) : BarCtx :=
  { BarCtx.zero with w0 := BitVec.ofNat 64 (2 ^ 63 + 2 ^ 60 + 2 ^ 61 + expect * 2 ^ 53), o := o, ga := ga, lastA := last }
def runBar (b : BarCtx) : State := { run .a with bars := { State.reset.bars with ctx := [(15, b)] } }
def barrSlot (e w : Nat) : Slot := asOpc 0x2E (slot 6 (BitVec.ofNat 64 (15 * 2 ^ 44 + e * 2 ^ 43 + w * 2 ^ 42)))
theorem witness_barr : Clear barrSem (runBar (barCtx 255 255 2 none)) .a (barrSlot 1 1) ∧ Clear barrSem (runBar (barCtx 255 0 2 none)) .a (barrSlot 1 0) ∧
    Clear barrSem (runBar (barCtx 0 0 2 (some 255))) .a (barrSlot 0 1) ∧ Clear barrSem (runBar (barCtx 255 0 2 (some 255))) .a (barrSlot 0 1) ∧
    Clear barrSem (runBar (barCtx 0 0 2 none)) .a (barrSlot 0 1) :=
  ⟨clear_of (by decide +kernel), clear_of (by decide +kernel), clear_of (by decide +kernel), clear_of (by decide +kernel), clear_of (by decide +kernel)⟩

def barEnts (k : Nat) (expect : Nat) (w0 : Nat) : State :=
  runBar { barCtx 255 0 expect none with w0 := BitVec.ofNat 64 (2 ^ 63 + w0 + expect * 2 ^ 53), ents := (upto k).map fun _ => ⟨.a, 255, 0, false⟩ }
theorem witness_barrier_count :
    ((barEnts 0 2 0).bar 15).ents = [] ∧ ((barEnts 1 1 0).bar 15).ents = [⟨.a, 255, 0, false⟩] ∧ (barEnts 1 1 0).fenceMet 0 = true ∧
    ((barEnts 1 1 0).bar 15).o = 255 ∧ fld ((barEnts 1 1 0).bar 15).w0 59 53 = 1 ∧ bit ((barEnts 1 1 0).bar 15).w0 62 = false ∧
    fld ((barEnts 1 1 0).bar 15).w0 46 40 = 0 ∧ ((barEnts 1 1 0).bar 15).sent = false ∧ fld ((barEnts 1 2 0).bar 15).w0 59 53 = 2 ∧
    ((barEnts 1 1 0).bar 15).arrs = [] ∧ ((barEnts 1 1 0).str .a).wait = none ∧ ((barEnts 1 1 0).str .x).wait = none := by decide +kernel
/-- The stream waits for the generation that its entry ends. -/
def barWaits (cs : Nat) : State :=
  ((barEnts 1 1 0).modStr .a fun t => { t with wait := some ⟨.barrier 15 255, slot 6 0, 0, 16, none, [], []⟩ }).setRf 0x1808 2 0 cs
theorem witness_barrier_wait : ((barWaits 0).str .a).wait = some ⟨.barrier 15 255, slot 6 0, 0, 16, none, [], []⟩ ∧ (barWaits 0).cstate ≠ 1 ∧ (barWaits 1).cstate = 1 ∧
    ((barWaits 0).str .a).chain = 0 ∧ ((barWaits 0).str .a).pendHalt = none ∧ ((barWaits 0).str .a).loops = [] ∧ ((barWaits 0).str .x).wait = none := by decide +kernel
/-- A FABRIC barrier with a parent, or, as a root, with a child at place 5. -/
def barTree (k expect : Nat) (parent : Bool) : State :=
  let s := runBar { barCtx 255 0 expect none with w0 := BitVec.ofNat 64 (2 ^ 63 + 2 ^ 62 + 2 ^ 40 + expect * 2 ^ 53), w1 := if parent then BitVec.ofNat 64 (2 ^ 63 + 9 * 2 ^ 12) else 0
                                                  ents := (upto k).map fun _ => ⟨.a, 255, 0, false⟩ }
  { s with bars := { s.bars with child := [(0, BitVec.ofNat 64 (2 ^ 36 + 5 * 2 ^ 12 + 15))] } }
theorem witness_barrier_tree :
    ((barTree 1 1 true).bar 15).ents = [⟨.a, 255, 0, false⟩] ∧ bit ((barTree 1 1 true).bar 15).w0 62 = true ∧ bit ((barTree 1 1 true).bar 15).w1 63 = true ∧
    bit ((barTree 1 1 false).bar 15).w1 63 = false ∧ ((barTree 0 1 true).bar 15).count + 1 = fld ((barTree 0 1 true).bar 15).w0 59 53 ∧
    ((barTree 0 1 false).bar 15).count + 1 = fld ((barTree 0 1 false).bar 15).w0 59 53 ∧ ((barTree 0 1 false).bar 15).sent = false := by decide +kernel
theorem witness_barrier_messages : let s := barEnts 0 2 (2 ^ 62)
    s.pins.fpUp = true ∧ s.place = 0 ∧ bit (s.bar 15).w0 63 = true ∧ bit (s.bar 15).w0 62 = true ∧ (255 + 256 - (s.bar 15).o) % 256 = 0 ∧
    (0 + 256 - (s.bar 15).o) % 256 = 1 ∧ (1 + 256 - (s.bar 15).o) % 256 = 2 ∧ (s.bar 15).count + 1 < fld (s.bar 15).w0 59 53 ∧
    fld (s.bar 15).w0 46 40 = 0 := by decide +kernel

def locked (s : State) : State := { s with mer := { s.mer with st := .locked, count := BitVec.ofNat 96 (1000 * 2 ^ 32), inc := 3000000000 } }
def mtSlot (op sh mt lo : Nat) (v : W64) : Slot := asOpc op (slot 6 (BitVec.ofNat 64 (2 ^ 48 + mt * 2 ^ sh + lo)) [v])
theorem witness_targets : Clear mwaitSem (locked (run .a)) .a (mtSlot 0x2C 42 48 0 999) ∧ Clear mwaitSem (locked (run .a)) .a (mtSlot 0x2C 42 16 0 0xFFFFFFFF) ∧
    Clear mwaitSem (run .x) .x (mtSlot 0x2C 42 16 0 10) ∧ Clear marmSem (locked (run .x)) .x (mtSlot 0x2D 38 16 (15 * 2 ^ 44 + 2 ^ 34) 10) ∧
    Clear marmSem (run .x) .x (mtSlot 0x2D 38 16 (15 * 2 ^ 44) 10) ∧ (locked (run .a)).mer.st ≠ .unlocked ∧ (run .a).mer.st = .unlocked :=
  ⟨clear_of (by decide +kernel), clear_of (by decide +kernel), clear_of (by decide +kernel), clear_of (by decide +kernel), clear_of (by decide +kernel), by decide +kernel, by decide +kernel⟩

def timeHdr (tick : W64) : W64 :=
  putFld 0x4000001000100000 15 0 (packetCrc 0x4000001000100000 [tick]).toNat
def merOff (st : MerState) (slewing : Bool) : State := { run .a with mer := ⟨st, BitVec.ofNat 96 (1000 * 2 ^ 32), 3000000000, 0, slewing, 0, some 16, 2 ^ 17, some 16, 2 ^ 10, 0, 2 ^ 63, true⟩ }
theorem witness_updates (tick : W64) : pkType (timeHdr tick) = 4 ∧ packetOk (timeHdr tick) [tick] = true ∧ fld (timeHdr tick) 35 16 = 16 := by
  refine ⟨?_, packetOk_seal _ _, ?_⟩
  · rw [pkType, timeHdr, fld_putFld_other _ _ (by omega) (by omega) (by omega) (by omega)]; decide +kernel
  · rw [timeHdr, fld_putFld_other _ _ (by omega) (by omega) (by omega) (by omega)]; decide +kernel
theorem witness_update_cases : (run .a).stopOpen = true ∧ (run .a).pins.dead.contains 0x0F = false ∧ (run .a).bist ≠ some 0x0F ∧
    (merOff .locked false).merErr 999 16 = 0 ∧ (merOff .locked false).merErr 1003 16 = 64 ∧ (merOff .locked false).merErr 1004 16 = 80 ∧
    (merOff .holdover true).merErr 998 16 = -16 ∧ (merOff .locked false).merErr 994 16 = -80 ∧ (merOff .holdover false).merErr 0x100000 16 > 16000000 ∧
    (merOff .locked false).mer.base = some 16 ∧ (merOff .locked false).mer.cyc = 2 ^ 17 ∧ (merOff .locked false).mer.last = some 16 ∧ (merOff .locked false).mer.since ≠ 0 ∧ (merOff .locked false).mer.hi < 2 ^ 64 ∧
    (merOff .locked false).mer.young = true ∧
    ({ merOff .locked false with mer := Mer.reset.rebase none } : State).mer.base = none := by decide +kernel

def runDue (tg : W64) : State := locked ((run .a).modStr .a fun t => { t with wait := some (waiting (.due tg)) })
theorem witness_meridian_events : (merOff .locked false).mer.st = .locked ∧ (merOff .holdover true).mer.st ≠ .locked ∧ (merOff .holdover true).mer.slewing = true ∧
    ((runDue 1000).str .a).wait = some (waiting (.due 1000)) ∧ (runDue 1000).mer.st ≠ .unlocked ∧ (runDue 1000).cstate ≠ 1 ∧
    (runDue 1000).now.toNat = 1000 ∧ ((runDue 1000).str .a).loops = [] ∧ ((runDue 1000).str .a).chain = 0 ∧ ((runDue 1000).str .a).pendHalt = none := by decide +kernel

def armed (n : Nat) (w : Nat) : State := (locked (run .a)).wr (0x1108 + 0x20 * n) (BitVec.ofNat 64 (w + 1))
theorem witness_slot_fire : (armed 15 0xC00).rb (0x1108 + 0x20 * 15) 0 = true ∧ (armed 15 0xC00).mer.st ≠ .unlocked ∧
    ((armed 15 0xC00).rd (0x1100 + 0x20 * 15)).toNat ≤ (armed 15 0xC00).now.toNat ∧ (∀ k, k < 15 → (armed 15 0xC00).rb (0x1108 + 0x20 * k) 0 = false) ∧
    (armed 15 0xC00).rf (0x1108 + 0x20 * 15) 9 7 = 0 ∧ (armed 15 0xC00).rb (0x1108 + 0x20 * 15) 11 = true ∧ (armed 0 0).rb (0x1108 + 0x20 * 0) 11 = false ∧
    (run .a).rb (0x1108 + 0x20 * 15) 0 = false ∧ (run .a).pins.stopReady = true ∧ (run .a).pins.bypassClosed = false ∧ (run .a).rb 8 0 = true := by decide +kernel

def runCs (st : CsState) : State := { locked (run .a) with cA := { Csu.reset with st := st, id := 7 } }
def csSlot (op : Nat) (bits : Nat) (ext : List W64) : Slot := asOpc op (slot 6 (BitVec.ofNat 64 (ext.length * 2 ^ 48 + bits)) ext)
def voteRoot : State := ((runCs .opened).wr 0x1500 (BitVec.ofNat 64 (2 ^ 63 + 2 ^ 62 + 2 * 2 ^ 53)))
theorem witness_consist : Clear cbeginSem (runCs .idle) .a (csSlot 0x28 (2 ^ 47 + 7 * 2 ^ 44) []) ∧ Clear cbeginSem (runCs .rollback) .a (csSlot 0x28 0 []) ∧
    Clear ccommitSem (runCs .opened) .a (csSlot 0x29 (2 ^ 47 + 2 ^ 46 + 7 * 2 ^ 43 + 2 ^ 42) []) ∧
    Clear ccommitSem (runCs .opened) .a (csSlot 0x29 (2 ^ 38 + 16 * 2 ^ 32) [5]) ∧
    Clear cvoteSem voteRoot .a (csSlot 0x2A (2 ^ 47 + 16 * 2 ^ 26) [5]) ∧ Clear cvoteSem voteRoot .a (csSlot 0x2A (16 * 2 ^ 26) [5]) ∧
    Clear cabortSem (runCs .opened) .a (csSlot 0x2B 0 []) ∧ (runCs .opened).cke.blocks = [] ∧ (runCs .opened).chans = [] ∧ (runCs .opened).cA.log = [] ∧
    (runCs .opened).cA.held = [] ∧
    (runCs .opened).cA.waiting = [] ∧ (runCs .opened).cA.due = none ∧ (runCs .opened).cstate ≠ 1 :=
  ⟨clear_of (by decide +kernel), clear_of (by decide +kernel), clear_of (by decide +kernel), clear_of (by decide +kernel), clear_of (by decide +kernel), clear_of (by decide +kernel),
    clear_of (by decide +kernel), by decide +kernel, by decide +kernel, by decide +kernel, by decide +kernel, by decide +kernel, by decide +kernel, by decide +kernel⟩

theorem witness_abort : let s := (runCs .opened).wr 0x1400 (BitVec.ofNat 64 (2 ^ 32 + 0x100000))
    s.cA.st = .opened ∧ s.cA.beat = false ∧ s.cA.code = 0 ∧ s.cA.waiting = [] ∧ s.cstate ≠ 1 ∧ s.cA.log = [] ∧ s.cX.log = [] ∧ s.spm.gone = [] ∧ s.chans = [] ∧ s.shadowBase .a = 0x100000 ∧ s.shadowWords .a = 32 ∧
    0 < ([1, 2] : List Byte).length ∧ 0x1000 % 128 + ([1, 2] : List Byte).length ≤ 128 := by decide +kernel
theorem witness_abort_ecc (w : Nat) : (runCs .opened).spm.eccW w = .good := rfl

def runOut (k : Csu) : State := { locked ((run .a).modStr .a fun t => { t with wait := some (waiting (.outcome (some 7) (some 7))) }) with cA := k }
theorem witness_outcomes :
    let d := runOut { Csu.reset with st := .deciding, deadline := some 1000 }
    let e := runOut { Csu.reset with st := .deciding, deadline := some 1001 }
    let r := runOut { Csu.reset with st := .rollback, code := 7 }
    e.csReady .a = true ∧ e.isDue 1001 = false ∧ d.csReady .a = true ∧ d.cstate ≠ 1 ∧ d.chans = [] ∧ (d.str .a).wait = some (waiting (.outcome (some 7) (some 7))) ∧ d.mer.st ≠ .unlocked ∧
    (1000 : W64).toNat ≤ d.now.toNat ∧ (r.csu .a).st = .rollback ∧ r.cstate ≠ 1 ∧ (r.csu .a).held = [] ∧ (r.csu .a).waiting = [] ∧ (r.csu .a).left = 0 ∧ (r.csu .a).due = none ∧ (r.csu .a).beat = false := by decide +kernel
theorem witness_ckpt_stall :
    let s := ((runOut { Csu.reset with st := .deciding, held := [] }).setRf 0x1410 15 0 5).setRf 0x1A00 62 62 0
    let t := { s with cke := { s.cke with blocks := [(0, 0)] }, cA := { s.cA with log := [0] } }
    t.csBlocks .a = [(0, 0)] ∧ t.rf 0x1410 15 0 ≠ 0 ∧ t.cA.ready = false := by decide +kernel

def round1 : Round := ⟨0, 2000, 0, 0, true, false, 0, none, [], false, none⟩
def votingState (tick : W64) : State :=
  { (locked (run .a)).wr 0x1500 (BitVec.ofNat 64 (2 ^ 63 + 2 ^ 62 + 3 * 2 ^ 53)) with
    cA := { Csu.reset with st := .deciding, voted := true, tick := tick }, rounds := [{ round1 with tick := tick }] }
theorem witness_votes :
    let s := votingState 2000
    let l := (votingState 5).wr 0x1410 (BitVec.ofNat 64 2 ^ 16)
    s.cA.st = .deciding ∧ s.cA.voted = true ∧ s.cA.ready = false ∧ s.csReady .a = true ∧ s.cX = Csu.reset ∧ 0 + 1 ≠ fld (s.rd 0x1500) 59 53 ∧ s.pins.fpUp = true ∧
    s.place = 0 ∧ s.isDue 2000 = false ∧ s.guardDue 2000 = false ∧ (votingState 5).guardDue 5 = true ∧ (votingState 5).csReady .a = true ∧ (votingState 5).isDue 5 = true ∧ bit (s.rd 0x1500) 61 = false ∧ fld (s.rd 0x1500) 46 40 = 0 ∧
    ({ l with rounds := [] } : State).rounds = [] ∧ l.cA.vg = 0 ∧ (5 : W64).toNat - l.rf 0x1410 31 16 ≤ l.now.toNat ∧ s.cstate ≠ 1 ∧ (votingState 5).cA.code = 0 ∧ (votingState 5).cA.held = [] := by decide +kernel
theorem witness_votes_complete :
    let s := (votingState 2000).setRf 0x1500 59 53 1
    let p := (s.setRf 0x1500 61 61 1).wr 0x1508 (BitVec.ofNat 64 (2 ^ 63 + 9 * 2 ^ 12))
    0 + 1 = fld (s.rd 0x1500) 59 53 ∧ s.guardDue 2000 = false ∧ s.isDue 2000 = false ∧ s.csReady .a = true ∧ bit (s.rd 0x1500) 61 = false ∧ bit (p.rd 0x1500) 61 = true ∧
    0 + 1 = fld (p.rd 0x1500) 59 53 ∧ p.csReady .a = true ∧ round1.decided = none ∧ round1.sent = false := by decide +kernel
theorem witness_vote_lost : let s := { (votingState 0).wr 0x1410 (BitVec.ofNat 64 (2 ^ 32)) with rounds := [] }
    s.rf 0x1410 47 32 ≠ 0 ∧ s.cA.tick.toNat + 1000 * s.rf 0x1410 47 32 ≤ s.now.toNat ∧ s.mer.st ≠ .unlocked := by decide +kernel
theorem witness_decision_applies :
    let s := { votingState 5 with rounds := [{ round1 with tick := 5, decided := some (true, 0) }] }
    s.isDue s.cA.tick = true ∧ s.csBlocks .a = [] ∧ (s.str .a).wait = none ∧ s.cA.waiting = [] ∧ s.cA.ct = false ∧ s.cX = Csu.reset := by decide +kernel

/-- A vector command on forms of VLEN elements: a destination and its sources, each at A1. -/
def vform (ty n : Nat) : W64 := BitVec.ofNat 64 (1 * 2 ^ 60 + ty * 2 ^ 55 + n * 2 ^ 9)
def vecSlot (op srcs ot sel fn ty : Nat) : Slot :=
  asOpc op (slot 3 (BitVec.ofNat 64 ((1 + srcs) * 2 ^ 48 + 0x11 * 2 ^ 42 + 0x11 * 2 ^ 36 + (if srcs ≥ 2 then 0x11 * 2 ^ 30 else 0) +
    (if srcs ≥ 3 then sel * 2 ^ 24 else 0) + ot * 2 ^ 20 + fn * 2 ^ 9 + 0x7F)) (List.replicate (1 + srcs) (vform ty 64)))
def runX : State := { (run .x).setRf 0x6008 15 8 255 with vec := { State.reset.vec with vlen := 64 } }
theorem witness_vector : ∀ p ∈ [(0x40, 2, 0, 0), (0x41, 2, 0, 0), (0x42, 2, 0, 0), (0x43, 2, 0, 0), (0x44, 2, 0, 0), (0x45, 1, 0, 0), (0x46, 1, 0, 0)],
    clearB vecSem runX .x (vecSlot p.1 p.2.1 p.2.2.1 0x11 p.2.2.2 0) = true := by decide +kernel
theorem witness_vector_full : 8 ≤ (({ runX with vec := { runX.vec with ve := List.replicate 8 { mems := [], vlen := 0, beat := 0, key := Key.zero, cs := none, pend := [], wr := [], serial := 0 } } } : State).vec.ve.filter fun w => w.beat = 0).length ∧
    clearB vecSem { runX with vec := { runX.vec with ve := List.replicate 8 { mems := [], vlen := 0, beat := 0, key := Key.zero, cs := none, pend := [], wr := [], serial := 0 } } } .x (vecSlot 0x45 1 0 0x11 0 0) = true := by decide +kernel
theorem witness_vector_room : (runX.vec.ve.filter fun w => w.beat = 0).length < 8 ∧ vTrk (vecSlot 0x40 2 0 0x11 0 0) = 0x7F := by decide +kernel

def vsetlSlot (v : W64) : Slot := asOpc 0x5E (slot 3 (BitVec.ofNat 64 (2 ^ 48 + 0x10 * 2 ^ 42 + 2 ^ 41 + 7 * 2 ^ 38)) [v])
def chainA : Slot := asOpc 0x40 (slot 3 (BitVec.ofNat 64 (2 * 2 ^ 48 + 1 * 2 ^ 42 + 0x11 * 2 ^ 36 + 0x11 * 2 ^ 30 + 0x7F)) [vform 0 64, vform 0 64])
def chainB : Slot := asOpc 0x46 (slot 3 (BitVec.ofNat 64 (1 * 2 ^ 48 + 0x11 * 2 ^ 42 + 1 * 2 ^ 36 + 0x7F)) [vform 0 64])
def vchainSlot : Slot := asOpc 0x5F (slot 3 (BitVec.ofNat 64 (2 * 2 ^ 44)))
theorem witness_vsetl : Clear vsetlSem runX .x (vsetlSlot 0xFFFFFFFF) ∧ Clear vsetlSem runX .x (vsetlSlot 0) := ⟨clear_of (by decide +kernel), clear_of (by decide +kernel)⟩
theorem witness_vchain : Clear (vchainSem (memberAddrs 16 [chainA, chainB]) []) runX .x vchainSlot := clear_of (by decide +kernel)
theorem witness_vchain_members : [chainA, chainB].length = vchainSlot.f 47 44 ∧ vchainSlot.xw = 0 ∧
    (∀ m ∈ [chainA, chainB], guardTrue runX.sX m = true ∧ vTrk m = 0x7F) ∧ runX.rb 0x8040 0 = false ∧ runX.rb 0x8040 1 = false := by decide +kernel

def ttfSlot (north : Nat) : Slot := asOpc 0x30 (slot 2 (BitVec.ofNat 64 (4 * 2 ^ 48 + north * 2 ^ 45 + 0x7F * 2 ^ 37 + 32 * 2 ^ 16))
  [BitVec.ofNat 64 (32 * 2 ^ 35), BitVec.ofNat 64 (1 * 2 ^ 60 + 0x2000 * 2 ^ 36 + 1 * 2 ^ 32 + 8 * 2 ^ 8 + 9 * 2 ^ 3),
   BitVec.ofNat 64 (32 * 2 ^ 43 + 32 * 2 ^ 22), BitVec.ofNat 64 (64 * 2 ^ 40)])
def fedState : State :=
  let f : Feed := { c := ttfSlot 0, a := [], scale := 0x3F800000, trk := none, cs := none, lw := 0, tiles := [], epar := [], told := false }
  { (run .x).setRf 0x6008 15 8 255 with arr := { State.reset.arr with west := [(0, some f)], north := [(0, some f)] } }
def mxpSlot : Slot := asOpc 0x31 (slot 2 (BitVec.ofNat 64 (2 * 2 ^ 48 + 32 * 2 ^ 36 + 32 * 2 ^ 28 + 0x7F * 2 ^ 10)) [BitVec.ofNat 64 (32 * 2 ^ 43), 0])
theorem witness_ttf : Clear ttfSem (run .x) .x (ttfSlot 0) ∧ Clear ttfSem (run .x) .x (ttfSlot 1) ∧ Clear ttfSem fedState .x (ttfSlot 1) ∧
    (run .x).feedAt true 0 = none ∧ (fedState.feedAt true 0).isSome = true := ⟨clear_of (by decide +kernel), clear_of (by decide +kernel), clear_of (by decide +kernel), by decide +kernel, by decide +kernel⟩
theorem witness_mxp : Clear mxpSem fedState .x mxpSlot ∧ fedState.arr.waiting.length < 4 := ⟨clear_of (by decide +kernel), by decide +kernel⟩

def trkState : State := { run .x with trk := [(63, { Trk.zero with bound := true })] }
def stkSlotC (op lo : Nat) (ext : List W64) : Slot := asOpc op (slot 4 (BitVec.ofNat 64 (ext.length * 2 ^ 48 + 63 * 2 ^ 41 + lo)) ext)
theorem witness_stk : Clear stkSem trkState .x (stkSlotC 0x39 0 []) ∧ Clear stkSem trkState .x (stkSlotC 0x3A (2 ^ 36) []) ∧
    Clear stkSem trkState .x (stkSlotC 0x3B (0x10 * 2 ^ 31) [0x3F800000]) ∧ Clear stkSem trkState .x (stkSlotC 0x3C (0x10 * 2 ^ 31) [0x3F800000]) ∧
    Clear stkSem trkState .x (stkSlotC 0x3D (15 * 2 ^ 24) []) ∧ Clear stkSem trkState .x (stkSlotC 0x3E (31 * 2 ^ 32) []) ∧
    Clear stkSem trkState .x (stkSlotC 0x38 (1 * 2 ^ 33) []) ∧ trkState.unmerged 63 = false ∧ (trkState.trkAt 63).bound = true ∧
    (trkState.trkAt 63).bad = false ∧ trkState.cA.log = [] ∧ trkState.cX.log = [] ∧ trkState.cke.blocks = [] :=
  ⟨clear_of (by decide +kernel), clear_of (by decide +kernel), clear_of (by decide +kernel), clear_of (by decide +kernel), clear_of (by decide +kernel), clear_of (by decide +kernel), clear_of (by decide +kernel),
    by decide +kernel, by decide +kernel, by decide +kernel, by decide +kernel, by decide +kernel, by decide +kernel⟩
theorem witness_merge : let t := { Trk.zero with scfg := BitVec.ofNat 64 (2 ^ 25), bound := true }
    let s := { runX with trk := [(63, t)], cX := { Csu.reset with st := .opened, id := 7 } }
    (s.trkAt 63).bad = false ∧ (s.trkAt 63).cnt.length = 5 ∧ (s.trkAt 63).sat.length = 5 ∧ bit (s.trkAt 63).scfg 25 = true ∧ fld (s.trkAt 63).scfg 49 34 = 0 ∧
    s.cX.st = .opened ∧ s.cX.id = 7 ∧ s.cX.code = 0 ∧ s.cX.beat = false ∧ s.cstate ≠ 1 := by decide +kernel
theorem witness_stk_forms : Clear stkSem trkState .x (stkSlotC 0x3B (0x11 * 2 ^ 31) [oneElem 0]) ∧ Clear stkSem trkState .x (stkSlotC 0x3D (0x11 * 2 ^ 24) [oneElem 3]) ∧
    trkState.readWaits .x (trkState.loneLw .x (stkSlotC 0x3B (0x11 * 2 ^ 31) [oneElem 0])) 0x1000 8 = false ∧
    (∀ i, i < 8 → trkState.spm.eccAt (0x1000 + i) = .good) ∧ ((run .x).trkAt 63).bound = false := ⟨clear_of (by decide +kernel), clear_of (by decide +kernel), by decide +kernel, by decide +kernel, by decide +kernel⟩
theorem witness_stk_waits : let s := { trkState with vec := { State.reset.vec with ve := [{
      mems := [⟨asOpc 0x57 (slot 3 63), [], [], 0, some 63, 0, 3, VeAcc.zero⟩], vlen := 64, beat := 0, key := Key.zero, cs := none, pend := [], wr := [], serial := 1 }] } }
    Clear stkSem s .x (stkSlotC 0x39 0 []) ∧ s.unmerged 63 = true := ⟨clear_of (by decide +kernel), by decide +kernel⟩
theorem witness_merges_done : let s := trkState.modStr .x fun t => { t with wait := some ⟨.merges 63 0, stkSlotC 0x3D (15 * 2 ^ 24) [], 0, 16, none, [], []⟩ }
    s.sX.wait.isSome = true ∧ s.unmerged 63 = false ∧ s.cstate ≠ 1 ∧ (s.trkAt 63).bad = false ∧ isN ((stkSlotC 0x3D (15 * 2 ^ 24) []).f 29 24) = true ∧
    s.sX.loops = [] ∧ s.sX.chain = 0 := by decide +kernel

def orbState (ctr : W32) : State := { runX with orr := [(3, ⟨List.replicate 64 0, true, ctr⟩)] }
def orbSlot (sub lo : Nat) : Slot := asSub 0x69 47 45 sub (slot 4 (BitVec.ofNat 64 (3 * 2 ^ 43 + lo)))
def rngSlot (sub lo : Nat) (ext : List W64) : Slot := asSub 0x6A 47 46 sub (slot 3 (BitVec.ofNat 64 (ext.length * 2 ^ 48 + 3 * 2 ^ 44 + lo)) ext)
theorem witness_orb : Clear orbSem (orbState 0) .x (orbSlot 1 0) ∧ Clear orbSem (orbState 0xFFFFFFFE) .x (orbSlot 1 0) ∧ Clear orbSem (orbState 0xFFFFFFFF) .x (orbSlot 1 0) ∧
    Clear orbSem (orbState 0) .x (orbSlot 2 (7 * 2 ^ 40)) ∧ Clear orbSem (orbState 0) .x (orbSlot 3 (7 * 2 ^ 40)) ∧ Clear orbSem (orbState 0) .x (orbSlot 4 (7 * 2 ^ 40)) ∧
    Clear orbSem (orbState 0) .x (orbSlot 5 (7 * 2 ^ 40)) ∧ Clear orbSem (orbState 0) .x (orbSlot 6 (1 * 2 ^ 40)) :=
  ⟨clear_of (by decide +kernel), clear_of (by decide +kernel), clear_of (by decide +kernel), clear_of (by decide +kernel), clear_of (by decide +kernel), clear_of (by decide +kernel),
    clear_of (by decide +kernel), clear_of (by decide +kernel)⟩
theorem witness_rngk : Clear rngSem runX .x (rngSlot 0 (0x11 * 2 ^ 32) [vform 3 4]) ∧ Clear rngSem runX .x (rngSlot 2 (0x9 * 2 ^ 32) []) ∧
    Clear rngSem runX .x (rngSlot 2 0 []) ∧ Clear rngSem runX .x (rngSlot 1 (0x11 * 2 ^ 38 + 0x9 * 2 ^ 32) [vform 3 64]) :=
  ⟨clear_of (by decide +kernel), clear_of (by decide +kernel), clear_of (by decide +kernel), clear_of (by decide +kernel)⟩
def updState : State := { runX with spm := { State.reset.spm with mem := [(0x1000, 0x20), (0x1002, 0x20), (0x1009, 0x20), (0x100C, 0x80), (0x1011, 0x40),
  (0x1014, 0x80), (0x1025, 0x60), (0x1029, 0x70), (0x102D, 0x80), (0x1035, 0x90)] } }
def recState : State := { runX with spm := { State.reset.spm with mem := [(0x1002, 1), (0x101E, 0x80), (0x101F, 0x3F)] } }
theorem witness_updf : Clear updfSem updState .x (asOpc 0x68 (slot 3 (BitVec.ofNat 64 (1 * 2 ^ 44 + 0x7F * 2 ^ 11)))) ∧
    updState.readWaits .x (updState.loneLw .x (asOpc 0x68 (slot 3 (BitVec.ofNat 64 (1 * 2 ^ 44 + 0x7F * 2 ^ 11))))) 0x1000 128 = false ∧ (∀ i, i < 128 → updState.spm.eccAt (0x1000 + i) = .good) ∧
    Clear orbSem recState .x (asSub 0x69 47 45 0 (slot 4 (BitVec.ofNat 64 (3 * 2 ^ 43 + 1 * 2 ^ 36)))) :=
  ⟨clear_of (by decide +kernel), by decide +kernel, by decide +kernel, clear_of (by decide +kernel)⟩
def updTrk : State := { updState with trk := [(63, { Trk.zero with bound := true })] }
theorem witness_updf_slot : let c := asOpc 0x68 (slot 3 (BitVec.ofNat 64 (1 * 2 ^ 44 + 63 * 2 ^ 11)))
    Clear updfSem updTrk .x c ∧ c.f 17 11 = 63 ∧ updTrk.readWaits .x (updTrk.loneLw .x c) 0x1000 128 = false := ⟨clear_of (by decide +kernel), by decide +kernel, by decide +kernel⟩
def updFull : State := { updState with vec := { updState.vec with ve := List.replicate 8 { mems := [], vlen := 0, beat := 0, key := Key.zero, cs := none, pend := [], wr := [], serial := 0 } } }
theorem witness_updf_full : 8 ≤ (updFull.vec.ve.filter fun w => w.beat = 0).length ∧
    Clear updfSem updFull .x (asOpc 0x68 (slot 3 (BitVec.ofNat 64 (1 * 2 ^ 44 + 0x7F * 2 ^ 11)))) := ⟨by decide +kernel, clear_of (by decide +kernel)⟩

def vmsetSlot : Slot := asOpc 0x51 (slot 3 (BitVec.ofNat 64 (2 * 2 ^ 48 + 0x21 * 2 ^ 42 + 0x10 * 2 ^ 36 + 0x7F)) [100, 0])
def setMem : VeMem := ⟨vmsetSlot, [], [], 0, none, 0, 3, VeAcc.zero⟩
def setWork : VeWork := { mems := [setMem], vlen := 2000, beat := 1, key := Key.zero, cs := none, pend := [], wr := [], serial := 0 }
theorem witness_vmset_beat : setMem.c.opc = 0x51 ∧ vFn setMem.c = 0 ∧ vMsk setMem.c = 0 ∧ vDst setMem.c = 0x20 + 1 ∧ ftqsOf setMem.c = [] ∧
    vSrc setMem.c 0 ≠ 0x1A ∧ setMem.c.ct = false ∧ runX.veHeld setWork = false ∧ setWork.ctx.n = 976 ∧ runX.sX.wait = none ∧ runX.cA.met = none ∧ runX.cX.met = none ∧ runX.cke.blocks = [] := by decide +kernel
theorem witness_beat_no_lanes : let m : VeMem := ⟨vecSlot 0x45 1 0 0x11 0 0, [], [], 0, none, 0, 3, VeAcc.zero⟩
    let w : VeWork := { setWork with mems := [m], vlen := 0, beat := 0 }
    elementwise m.c = true ∧ ftqsOf m.c = [] ∧ m.c.ct = false ∧ runX.veHeld w = false := by decide +kernel
theorem witness_beat_held : ({ runX with sX := { runX.sX with chain := 1 } } : State).veHeld setWork = true := by decide +kernel
def updMem : VeMem := ⟨asOpc 0x68 (slot 3 (BitVec.ofNat 64 (0x7F * 2 ^ 11))), [], [], 0, none, 0, 3, VeAcc.zero⟩
theorem witness_updf_block : updMem.c.opc = 0x68 ∧ updMem.c.ct = false ∧ updMem.trk = none ∧
    runX.veHeld { setWork with mems := [updMem], beat := 0 } = false ∧ runX.cke.blocks = [] ∧ runX.cA.log = [] ∧ runX.cX.log = [] ∧
    runX.cA.dirBad = false ∧ runX.cX.dirBad = false ∧ runX.spm.gone = [] := by decide +kernel
theorem witness_updf_good (k : Nat) : runX.spm.eccW k = .good := rfl
theorem witness_red : ({ runX with vec := { runX.vec with redq := [⟨[⟨0, 7, 5⟩], false, none, 0⟩] } } : State).vec.redq = [⟨[⟨0, 7, 5⟩], false, none, 0⟩] ∧
    runX.sX.wait = none := by decide +kernel

def passOf (k done : Nat) : Pass :=
  { c := mxpSlot, k := k, initAddr := 0, trk := none, cs := none, key := Key.zero, lw := 0, num := 1, west := none, north := none, init := [],
    done := done, sampled := false, qc := 0, qr := 0, calSect := none }
theorem witness_pass : mxpRegion (passOf 0 0).c = (0 : BitVec 2).toNat ∧ mxpInit (passOf 0 0).c = 0 ∧
    ({ fedState with arr := { fedState.arr with waiting := [passOf 0 0] } } : State).mayBegin 0 (passOf 0 0) = true ∧
    (fedState.feedAt false ((passOf 0 0).c.f 27 26)).isSome = true ∧ (fedState.feedAt true ((passOf 0 0).c.f 25 24)).isSome = true ∧
    fedState.cal.isOpen = false ∧ (ttfSlot 0).ct = false := by decide +kernel
/-- TTF that turns a source: from a row-block E2M3 tensor, or a square-block one of format `fmt`. -/
def turnFeed (sq fmt : Nat) : Feed :=
  { c := asOpc 0x30 (slot 2 (BitVec.ofNat 64 (4 * 2 ^ 48 + 2 ^ 44 + 0x7F * 2 ^ 37 + 32 * 2 ^ 16)) [BitVec.ofNat 64 (32 * 2 ^ 35),
      BitVec.ofNat 64 (1 * 2 ^ 60 + 0x2000 * 2 ^ 36 + 1 * 2 ^ 32 + 8 * 2 ^ 8 + fmt * 2 ^ 3 + sq * 2 ^ 2), BitVec.ofNat 64 (32 * 2 ^ 43 + 32 * 2 ^ 22), BitVec.ofNat 64 (64 * 2 ^ 40)])
    a := [], scale := 0x3F800000, trk := none, cs := none, lw := 0, tiles := [], epar := [], told := false }
theorem witness_turned_tile : ∀ p ∈ [(0, 6), (1, 6), (1, 0x0A)], let f := turnFeed p.1 p.2
    let b := ttfBsd ⟨f.a, []⟩ f.c
    bit f.c.base 44 = true ∧ isBlockFmt b.fmt = true ∧ b.sq = decide (p.1 = 1) ∧ b.fmt = p.2 ∧ 0 < min 32 (b.rows - fld (f.c.x 0) 34 14) ∧ 0 < b.cols ∧
    0 < min 32 (ttfKcnt f.c) ∧ (fedState.readBlk b 0 0).2 = none := by decide +kernel
theorem witness_pass_init : let p : Pass := { passOf 0 0 with c := { (passOf 0 0).c with base := (passOf 0 0).c.base ||| BitVec.ofNat 64 (4 * 2 ^ 21) } }
    ({ fedState with arr := { fedState.arr with waiting := [p] } } : State).mayBegin 0 p = true ∧ fedState.arr.running = [] ∧ fedState.cX.log = [] ∧ 0 < mxpM p.c ∧ 0 < mxpN p.c ∧
    mxpInit p.c = 4 := by decide +kernel
theorem witness_cell_faults : let p := { passOf 0 0 with sampled := true }
    let s : State := { fedState with arr := { fedState.arr with running := [p] } }
    p.holds 0 0 0 0 = true ∧ p.compares s true 0 0 0 = true ∧ p.compares s false 0 0 0 = true ∧ p.holds 0 0 100 0 = false := by decide +kernel
theorem witness_tile : ∃ f, fedState.feedAt true 0 = some f ∧ fedState.feedLim true 0 = none ∧ f.nextTile none = some (0, 0) ∧ (fedState.readTile f (f.lanes none) 0 0).bad = none ∧
    f.requant = false ∧ f.c.ct = false ∧ fedState.granted = true ∧ fedState.heldTiles true < 32 := ⟨_, rfl, by decide +kernel, by decide +kernel, by decide +kernel, by decide +kernel, by decide +kernel, by decide +kernel, by decide +kernel⟩
theorem witness_entry : let s : State := { fedState with arr := { fedState.arr with running := [passOf 0 0] } }
    s.arr.running.findIdx? (fun p => mxpRegion p.c = (0 : BitVec 2).toNat) = some 0 ∧ (passOf 0 0).order[(passOf 0 0).done]? = some (0, 0) ∧
    (passOf 0 0).order.length = 1 ∧ (passOf 0 0).fed false = true ∧ (passOf 0 0).fed true = true ∧ s.ftqUsed = 0 ∧ (passOf 0 0).c.ct = false := by decide +kernel

def dscBytes (op : Nat) : List Byte :=
  [BitVec.ofNat 8 op, 0, 1, 0, 0x40, 0, 9, 0] ++ List.replicate 8 0 ++ [0x40, 0x10, 0, 0, 0, 0, 0, 0] ++ [100, 0, 0, 0, 1, 0, 0, 0] ++ List.replicate 8 0 ++
  [1, 2, 3, 4, 5, 6, 7, 8] ++ List.replicate 16 0
def dscEntry (op : Nat) : Entry := { mkEntry (carsOf (dscBytes op)) with tkt := 0 }
def ringState (op : Nat) : State :=
  (State.reset.modCtx 16 fun c => { c with w0 := BitVec.ofNat 64 (2 ^ 60 + 8 * 2 ^ 28), entries := [dscEntry op] }).modCtx 64 fun c =>
    { c with w0 := BitVec.ofNat 64 (4 * 2 ^ 61 + 2 ^ 60 + 8 * 2 ^ 28) }
theorem witness_dma_fill : let s := ringState 4
    let d : Dsc := (dscEntry 4).bytes
    s.ctxBound 16 = true ∧ s.flight 0 = [] ∧ s.cstate ≠ 1 ∧ (s.ctx 16).headEntry = some (dscEntry 4) ∧ (s.ctx 16).ordflt = false ∧ (∀ k ∈ (dscEntry 4).cars, k.poison = false ∧ k.ecc = .good) ∧ s.dscBad d = false ∧ d.fill = true ∧ d.dstSp = 0 ∧
    d.rows = 1 ∧ d.rowLen = 100 ∧ d.dst = 0x1040 ∧ s.cke.blocks = [] ∧ s.cA.dirBad = false ∧ s.cX.dirBad = false ∧ s.spm.gone = [] := by decide +kernel
theorem witness_dma_bad : (ringState 9).dscBad ((dscEntry 9).bytes) = true ∧ ((ringState 9).ctx 16).headEntry = some (dscEntry 9) := by decide +kernel
def doneChan : Chan := ⟨dscBytes 4, 0, none, 1, 0, 100, 0, false, false, false, false, [], [], false, false, []⟩
theorem witness_dma_done : let s : State := { ringState 4 with chans := [(0, [doneChan])] }
    s.flight 0 = [doneChan] ∧ doneChan.allIssued = true ∧ s.fab.todo = [] ∧ Dsc.op doneChan.desc ≠ 2 ∧ s.ctxBound 64 = true ∧ s.ctxClass 64 = 4 ∧
    Dsc.cctx doneChan.desc = 64 ∧ (s.ctx 64).prod = [] ∧ s.canAlloc 64 1 = true ∧ Dsc.ctkt doneChan.desc = 9 ∧ (s.ctx 64).entries = [] := by decide +kernel
def imageHead : List Byte := [0x4F, 0x54, 0x43, 0x33, 1, 3, 1, 0, 1, 0, 0, 0, 0, 0, 0, 0]
def loadChan (head : List Byte) : Chan :=
  ⟨[2, 0x30] ++ List.replicate 22 0 ++ [0, 1, 0, 0, 1, 0, 0, 0] ++ List.replicate 32 0, 0, none, 2, 0, 256, 0, true, false, false, false, [],
    head.zipIdx.map fun p => (p.2, p.1), false, false, []⟩
theorem witness_load : let s : State := { State.reset with chans := [(0, [loadChan imageHead])] }
    (s.flight 0).find? (fun c => decide (Dsc.op c.desc = 2) && !c.loaded && c.allIssued && c.left = 0) = some (loadChan imageHead) ∧
    hdrErr (loadChan imageHead).rowBytes (s.rf (bankInfo 0) 31 16) 256 0 = 0 ∧ hdrErr (loadChan []).rowBytes (s.rf (bankInfo 0) 31 16) 256 0 = 1 := by decide +kernel

def moveDesc : List Byte := [1, 1, 0, 0, 0x40, 0, 9, 0] ++ List.replicate 8 0 ++ [0x40, 0x10, 0, 0, 0, 0, 0, 0] ++ [0, 1, 0, 0, 1, 0, 0, 0] ++ List.replicate 32 0
def moveChan : Chan := ⟨moveDesc, 3, none, 2, 2, 0, 0, false, false, false, false, [], [], false, false, []⟩
def moveReq : Req := ⟨5, 0x80, 2, 3, 1, 1, false, none⟩
def moveState : State := { State.reset with chans := [(2, [moveChan])], fab := { State.reset.fab with reads := [moveReq], writes := [{ moveReq with sent := some ⟨0, false⟩ }] } }
theorem witness_read_data : let d : Dsc := moveDesc
    moveState.fab.reads.find? (fun r => r.tag = (5 : BitVec 12).toNat) = some moveReq ∧ moveState.chanOf 2 3 = some moveChan ∧ moveState.pins.fpUp = true ∧
    d.dstSp = 0 ∧ d.srcSp = 1 ∧ d.fill = false ∧ d.pLen 1 = 128 ∧ d.dstAt 1 = 0x10C0 ∧ moveState.fab.todo = [] ∧ moveState.cke.blocks = [] := by decide +kernel
theorem witness_write_ack : moveState.fab.writes.find? (fun r => r.tag = (5 : BitVec 12).toNat) = some { moveReq with sent := some ⟨0, false⟩ } ∧
    moveState.fab.writes.find? (fun r => r.tag = (6 : BitVec 12).toNat) = none ∧ moveState.fab.reads.find? (fun r => r.tag = (6 : BitVec 12).toNat) = none := by decide +kernel
def lateState : State := { moveState with fab := { moveState.fab with reads := [{ moveReq with dead := true }], writes := [{ moveReq with sent := some ⟨0, false⟩, dead := true }] } }
theorem witness_late : lateState.fab.reads.find? (fun r => r.tag = (5 : BitVec 12).toNat) = some { moveReq with dead := true } ∧
    lateState.fab.writes.find? (fun r => r.tag = (5 : BitVec 12).toNat) = some { moveReq with sent := some ⟨0, false⟩, dead := true } ∧
    lateState.pins.fpUp = true ∧ lateState.fab.todo = [] := by decide +kernel
/-- The engine awaits a read's data, and a write's response, in the given state of the checkpoint. -/
def engineState (cstate : Nat) (job : Option CkeJob) : State :=
  { State.reset.setRf 0x1808 2 0 cstate with
    cke := { State.reset.cke with job := job }
    fab := { State.reset.fab with reads := if job.isSome then [⟨5, 0x80, 64, 9, 1, 1, false, none⟩] else [], writes := [⟨5, 0x80, 64, 0, 1, 1, false, some ⟨0, false⟩⟩] } }
theorem witness_engine : let j : CkeJob := ⟨.trailer, 9, 2, []⟩
    (engineState 2 (some j)).fab.reads.find? (fun r => r.tag = (5 : BitVec 12).toNat) = some ⟨5, 0x80, 64, 9, 1, 1, false, none⟩ ∧
    (engineState 2 (some j)).cke.job = some j ∧ (engineState 2 (some j)).cstate = 2 ∧ (engineState 1 none).cstate = 1 ∧ (engineState 1 none).cke.ct = false ∧
    (engineState 2 none).cke.trailer = false ∧ (engineState 2 none).cke.staged = [] ∧ (engineState 2 none).cke.blocks = [] ∧
    ({ engineState 2 none with fab := { (engineState 2 none).fab with writes := [] } } : State).ckeBusy = false ∧ (engineState 2 none).pins.fpUp = true ∧
    (engineState 2 none).fab.todo = [] ∧ (engineState 2 (some j)).chans = [] ∧ (engineState 2 (some j)).cA.due = none ∧ (engineState 2 (some j)).cX.waiting = [] := by decide +kernel
theorem witness_write_timeout : (moveState.wr 0x380 1).fab.writes.find? (fun r => r.tag = (5 : BitVec 12).toNat && !r.dead) = some { moveReq with sent := some ⟨0, false⟩ } := by decide +kernel
theorem witness_fabric_timeout : (moveState.wr 0x380 1).rf 0x380 15 0 ≠ 0 ∧
    (moveState.wr 0x380 1).fab.reads.find? (fun r => r.tag = (5 : BitVec 12).toNat && !r.dead) = some moveReq ∧ (moveState.wr 0x380 1).fab.todo = [] := by decide +kernel

def linkState (credits : Nat) : State :=
  { State.reset with fab := { State.reset.fab with links := [(1, { Link.zero with credits := credits, replay := [(7, 0, 1), (8, 0, 3)] })] } }
theorem witness_link_out : isOutbound (1 : BitVec 4).toNat = true ∧ ((linkState 254).link 1).sendq = [] ∧ ((linkState 254).link 1).credits < 255 ∧
    255 ≤ ((linkState 255).link 1).credits ∧ (∀ p ∈ ackUpTo 7 ((linkState 254).link 1).replay, p.2.2 < 4) ∧
    ackUpTo 7 ((linkState 254).link 1).replay = [(8, 0, 3)] ∧ ackUpTo 9 ((linkState 254).link 1).replay = ((linkState 254).link 1).replay := by decide +kernel
theorem witness_link_in : isInbound (8 : BitVec 4).toNat = true ∧ flitFld 0 (ctlBits 8 - 1) (ctlBits 8 - 8) = (State.reset.link 8).seq ∧
   
    (State.reset.link 8).nakd = false ∧ (State.reset.link 8).errs < 4 ∧ State.reset.pins.fpUp = true := by decide +kernel
theorem witness_link_write : let f := (BitVec.ofNat 1152 (sealFlit 3 0 0)).toNat
    isInbound (3 : BitVec 4).toNat = true ∧ flitFld f (ctlBits 3 - 1) (ctlBits 3 - 8) = (State.reset.link 3).seq ∧ flitFld f 119 118 = 0 ∧
    flitCrc 3 f = f % 65536 := by decide +kernel
theorem witness_link_crc : flitCrc 8 (BitVec.ofNat 1152 (sealFlit 8 0 0)).toNat = (BitVec.ofNat 1152 (sealFlit 8 0 0)).toNat % 65536 ∧
    flitCrc 8 (BitVec.ofNat 1152 (sealFlit 8 0 0 ^^^ 1)).toNat ≠ (BitVec.ofNat 1152 (sealFlit 8 0 0 ^^^ 1)).toNat % 65536 := by decide +kernel

def outEntry : Entry := ⟨4, [⟨1, false, .good⟩], none, none, none⟩
def qmsgState (e : List Entry) : State :=
  (State.reset.modCtx 100 fun c => { c with w0 := BitVec.ofNat 64 (6 * 2 ^ 61 + 2 ^ 60 + 8 * 2 ^ 28), et := 4 }).modCtx 200 fun c =>
    { c with w0 := BitVec.ofNat 64 (5 * 2 ^ 61 + 2 ^ 60 + 8 * 2 ^ 28), credit := 8, et := 4, entries := e }
def oneFlit (place : BitVec 24) : QMsg :=
  { place := place, rctx := 100, splace := 9, sctx := 7, ticket := 4, ncar := 1, fidx := 0, axis := 0, poison := false, data := 5 }
theorem witness_qmsg : let s := qmsgState []
    (oneFlit 0).place.toNat = s.place ∧ (oneFlit 1).place.toNat ≠ s.place ∧ s.pins.fpUp = true ∧ (oneFlit 0).fidx = 0 ∧ (oneFlit 0).ncar.toNat + 1 ≤ 2 ∧
    s.fab.twbuf = [] ∧ s.fab.asm = [] ∧ s.ctxBound 100 = true ∧ s.ctxClass 100 = 6 ∧ s.canAlloc 100 2 = true ∧ (s.ctx 100).entries = [] ∧ (s.ctx 100).et = 4 := by decide +kernel
theorem witness_qmsg_ack : let s := qmsgState [{ outEntry with sent := some 1 }]
    s.ctxClass 200 = 5 ∧ ((s.ctx 200).entries.find? fun e => e.tkt = (4 : W16).toNat && e.sent.isSome) = some { outEntry with sent := some 1 } ∧
    s.ctxBound 200 = true := by decide +kernel
theorem witness_fab_out : let s := qmsgState [outEntry]
    s.ctxBound 200 = true ∧ s.ctxClass 200 = 5 ∧ (s.ctx 200).headEntry = some outEntry ∧ (s.ctx 200).ordflt = false ∧ outEntry.sent = none ∧ s.slotTurn = some (16 + 200) ∧ (qmsgState []).slotTurn ≠ some (16 + 200) ∧
    (∀ x ∈ outEntry.cars, x.ecc = .good) ∧ outEntry.cars.length ≤ (s.ctx 200).credit := by decide +kernel

def imaged : State := State.reset.wr 0x280 (BitVec.ofNat 64 (2 ^ 63 + 3 * 2 ^ 40 + 1 * 2 ^ 32 + 2000 * 2 ^ 16))
def inState (st : Sid) (x : StState) : State := imaged.modStr st fun t => { t with st := x }
theorem witness_host_reach : imaged.pins.stopReady = true ∧ imaged.pins.bypassClosed = false ∧ imaged.rb 8 0 = true ∧ imaged.rf 0x1808 6 5 ≠ 3 ∧ imaged.rf 0x1808 6 5 ≠ 1 ∧
    imaged.bist = none ∧ imaged.imageBad true = none ∧ imaged.imageBad false = none ∧ imaged.cke.rngCheck = false := by decide +kernel
def badImage (st : Sid) (x : StState) : State := (State.reset.wr 0x280 (BitVec.ofNat 64 (2 ^ 63 + 4 * 2 ^ 40))).modStr st fun t => { t with st := x }
theorem witness_bad_image : ∀ st, ((badImage st .idle).str st).st = .idle ∧ ((badImage st .stopped).str st).st = .stopped ∧ (badImage st .idle).imageBad true = some 0x400 ∧
    (badImage st .stopped).imageBad false = some 0x400 ∧ (badImage st .idle).bist = none ∧ (badImage st .idle).rf 0x1808 6 5 ≠ 3 ∧ (badImage st .idle).rf 0x1808 6 5 ≠ 1 ∧
    (badImage st .idle).pins.stopReady = true ∧ (badImage st .idle).pins.bypassClosed = false ∧ (badImage st .idle).rb 8 0 = true := by
  intro st; cases st <;> decide +kernel
theorem witness_stream_states : ∀ st, ((inState st .stopped).str st).st = .stopped ∧ ((inState st .running).str st).st = .running ∧
    ((inState st .resetting).str st).st = .resetting ∧ ((inState st .resetting).str st).scal = [] ∧ ((inState st .running).csu st).st = .idle := by
  intro st; cases st <;> decide +kernel

def asked (st : Sid) (x : StState) : State := (inState st x).modStr st fun t => { t with haltReq := true, coReq := true, cc := 9, pc := 0x1FFF0 }
theorem witness_boundaries : ∀ st, ((inState st .stopping).str st).st = .stopping ∧ ((inState st .stopping).str st).lockWait = false ∧
    ((inState st .stopping).str st).haltReq = false ∧ ((asked st .running).str st).haltReq = true ∧ ((asked st .stopped).str st).coReq = true ∧
    ((asked st .stopping).str st).chain = 0 := by intro st; cases st <;> decide +kernel
theorem witness_partner : ((asked .a .running).setRf 0x500 8 8 1).rb (strmBase (otherSid .a)) 8 = true ∧
    ((((asked .a .running).setRf 0x500 8 8 1).modStr .x fun t => { t with st := .running }).str (otherSid .a)).st = .running := by decide +kernel
theorem witness_switch : let s := (inState .x .running).modStr .x fun t => { t with swPend := true }
    (s.str .x).swPend = true ∧ s.cstate ≠ 1 ∧ s.imageBad false = none ∧ (s.str .x).chain = 0 := by decide +kernel

theorem witness_imem : (∀ st, (imaged.str st).st = .idle ∨ (imaged.str st).st = .halted) ∧ imaged.loading 1 = false ∧ imaged.runBank = 0 ∧
    imaged.bankRunning 1 = false ∧ (imaged.setRf 0x220 17 17 1).rf 0x220 17 17 = 1 ∧ imaged.lcs ≠ 2 ∧ imaged.lcs ≠ 4 ∧
    imaged.bankRunning (imaged.rf 0x220 17 17) = true ∧ (imaged.setRf 0x220 17 17 1).bankRunning ((imaged.setRf 0x220 17 17 1).rf 0x220 17 17) = false := by
  refine ⟨?_, by decide +kernel, by decide +kernel, by decide +kernel, by decide +kernel, by decide +kernel, by decide +kernel, by decide +kernel, by decide +kernel⟩
  intro st; cases st <;> decide +kernel
def corrected : State :=
  { State.reset with spm := { State.reset.spm with ecc := [(3, .single)], wb := [3] }, imem := ⟨[], [(8192, .single)], [8192]⟩ }
theorem witness_switch_due : let s : State := { imaged.wr 0x1108 (BitVec.ofNat 64 (1 + 1 * 2 ^ 7)) with mer := { imaged.mer with st := .holdover, count := BitVec.ofNat 96 (5 * 2 ^ 32) } }
    s.slotDue 0 = true ∧ s.rf 0x1108 9 7 = 1 := by decide +kernel
theorem witness_switch_not_due : ¬ ∃ n, n < 16 ∧ imaged.slotDue n = true ∧ imaged.rf (0x1108 + 0x20 * n) 9 7 = 1 := by
  rintro ⟨n, _, h, _⟩
  have : ∀ n, n < 16 → imaged.slotDue n = false := by decide +kernel
  rw [this n (by assumption)] at h; cases h
theorem witness_reset_open : let s := (inState .a .running).modCsu .a fun c => { c with st := .opened, id := 1 }
    (s.str .a).st ≠ .resetting ∧ (s.csu .a).st = .opened ∧ (s.csu .a).due = none ∧ (s.csu .a).waiting = [] ∧ s.cstate ≠ 1 := by decide +kernel
theorem witness_corrections : (24 : BitVec 24).toNat / 8 ∈ corrected.spm.wb ∧ corrected.spm.gone = [] ∧ corrected.spm.eccW 3 = .single ∧
    8192 + (0 : BitVec 13).toNat ∈ corrected.imem.wb ∧ tget .good corrected.imem.ecc 8192 = .single := by decide +kernel
theorem witness_imem_denied : ¬ (∀ st, ((inState .x .running).str st).st = .idle ∨ ((inState .x .running).str st).st = .halted) := by
  intro h; exact absurd (h .x) (by decide +kernel)

theorem witness_actions : 2 ≤ (([0, 1, 2, 3] : List Nat).filter fun i => bit (0x10F : W64) i).length ∧ 2 ≤ (([0, 1, 2, 3] : List Nat).filter fun i => bit (0x7 : W64) i).length ∧
    2 ≤ (([0, 1, 2, 3] : List Nat).filter fun i => bit (0x3 : W64) i).length := by decide +kernel

def ckState (n : Nat) : State := State.reset.setRf 0x1808 2 0 n
theorem witness_ckpt_resume : let s : State := { ckState 1 with cke := { State.reset.cke with sealed := true } }
    s.cstate = 1 ∧ s.cke.sealed = true ∧ s.cke.recap = false ∧ s.cke.late = [] ∧ s.ckeBusy = false ∧ s.stopOver = true ∧ s.chans = [] ∧ s.fab.todo = [] ∧ s.cA.due = none ∧ s.cX.due = none ∧ s.sA.wait = none ∧
    s.sX.wait = none := by decide +kernel
def stagedState : State := { ckState 2 with cke := { State.reset.cke with staged := [(1024, 256)] } }
theorem witness_ckpt_copy : stagedState.cstate = 2 ∧ stagedState.cke.urgent = [] ∧ stagedState.cke.job = none ∧ stagedState.cke.staged = [(1024, 256)] ∧
    stagedState.cA.st ≠ .deciding ∧ stagedState.cX.st ≠ .deciding := by decide +kernel
theorem witness_ckpt_done : let s : State := { ckState 2 with cke := { State.reset.cke with trailer := true } }
    s.cstate = 2 ∧ s.cke.trailer = true ∧ s.ckeBusy = false ∧ s.chans = [] ∧ s.cA.waiting = [] ∧ s.cX.waiting = [] := by decide +kernel
def regionState : State := { ((ckState 2).wr 0x1A00 (BitVec.ofNat 64 (2 ^ 63 + 2 ^ 61))).wr 0x1A08 (BitVec.ofNat 64 16) with
  cke := { State.reset.cke with blocks := [(0, 0)], urgent := [(0, 0)] } }
theorem witness_ckpt_urgent : regionState.cstate = 2 ∧ (regionState.region 0).fab = false ∧ regionState.cke.urgent = [(0, 0)] ∧ regionState.chans = [] ∧ regionState.cA.waiting = [] ∧ regionState.cX.waiting = [] ∧
    regionState.cke.job = none ∧ regionState.cA.st ≠ .deciding ∧ regionState.cX.st ≠ .deciding ∧
    (regionState.ckLayout.1.find? fun r => r.kind = 3 && r.region = 0 && r.off = blockSize * 0).isSome = true := by decide +kernel
theorem witness_restore : State.reset.sA.st = .idle ∧ State.reset.cstate ≠ 1 ∧ State.reset.cstate ≠ 2 ∧ State.reset.cke.key = none ∧
    ({ State.reset with cke := { State.reset.cke with key := some 5 } } : State).cke.key ≠ none ∧
    isCkeConfig (0x1818 : W16).toNat = true ∧ isCkeConfig (0x1FF8 : W16).toNat = true ∧ State.reset.lcs ≠ 3 := by decide +kernel
/-- A restore whose regions are done, with an image that has no record. -/
def restoring (opt : Nat) : State :=
  { (State.reset.setRf 0x1808 6 5 1).setRf 0x1850 2 0 opt with cke := { State.reset.cke with regions := true, job := some ⟨.area 4, 1, 0, []⟩ } }
theorem witness_restore_done : (restoring 0).rf 0x1808 6 5 = 1 ∧ (restoring 0).cke.regions = true ∧ (restoring 0).ckeWriting = false ∧
    (restoring 0).cke.job = some ⟨.area 4, 1, 0, []⟩ ∧ (restoring 0).rf 0x1850 2 0 = 0 := by decide +kernel
theorem witness_restore_fails : (restoring 2).rb 0x1850 1 = true ∧ (restoring 2).rf 0x1808 6 5 = 1 ∧ (restoring 2).ckeWriting = false ∧
    ((restoring 2).readRun 2 0 (some 36) 0 (pickRecords 2 0 (CkeJob.records ⟨.area 4, 1, 0, []⟩))).1 = 6 := by decide +kernel

def calState (sw : Bool) (n : Nat) : State := { State.reset with cal := ⟨true, sw, 0, 0, n, 0, 0, false⟩ }
theorem witness_cal : (calState false 4).cal.isOpen = true ∧ (calState false 4).calDrained = true ∧ (calState false 4).cstate ≠ 1 ∧ (calState true 3).cal.sector = 3 ∧
    (calState true 3).rf 0x5880 47 32 = 0x10 ∧ (calState true 3).rf (0x5890 + 8 * 3) 3 0 ≠ 0 ∧ (calState true 3).cal.tested = false ∧
    (calState true 3).sectHeld 3 = false ∧ (calState true 4).cal.fin.toNat ≤ (calState true 4).now.toNat := by decide +kernel
theorem witness_cal_tested : let s : State := { State.reset with cal := ⟨true, true, 0, 0, 2, 0, 0, true⟩ }
    s.cal.isOpen = true ∧ s.cal.sector = 2 ∧ s.cal.tested = true := by decide +kernel
theorem witness_bist : State.reset.bist = none ∧ State.reset.bistOk (0x0E : BitVec 6).toNat = true ∧ State.reset.bistOk (0x15 : BitVec 6).toNat = true ∧ State.reset.bistOk (0x16 : BitVec 6).toNat = false ∧
    State.reset.cal.sector = 4 ∧ State.reset.pins.stopReady = true ∧ ({ State.reset with bist := some 0x0F } : State).bist = some 0x0F := by decide +kernel

theorem witness_host_writes : let s := State.reset.setRf 0x2000 11 0 64
    let v : W64 := BitVec.ofNat 64 (5 * 2 ^ 61 + 2 ^ 60 + 0x8000 * 2 ^ 44 + 0x8000 * 2 ^ 28)
    s.rf 0x2000 11 0 = 64 ∧ ctxUnusable 64 = false ∧ ctxFixed 64 = none ∧ fld v 63 61 ∈ [0, 4, 5, 6] ∧ bit (s.ctx 64).w0 60 = false ∧ bit v 60 = true ∧
    fld v 59 44 ≤ fld v 43 28 ∧ s.minSum + fld v 59 44 = s.rf 0x2048 15 0 := by decide +kernel
theorem witness_unbind : let s := (State.reset.setRf 0x2000 11 0 64).modCtx 64 fun c => { c with w0 := BitVec.ofNat 64 (4 * 2 ^ 61 + 2 ^ 60 + 8 * 2 ^ 28) }
    let v : W64 := BitVec.ofNat 64 (4 * 2 ^ 61 + 8 * 2 ^ 28)
    s.rf 0x2000 11 0 = 64 ∧ bit (s.ctx 64).w0 60 = true ∧ bit v 60 = false ∧ s.ctxInUse 64 = false ∧ fld v 63 61 ∈ [0, 4, 5, 6] ∧ fld v 59 44 ≤ fld v 43 28 := by decide +kernel
theorem witness_shadow : let v : W64 := BitVec.ofNat 64 (0x400 * 2 ^ 32 + 0xC00 * 2 ^ 12)
    fld v 23 12 + fld v 44 32 = 4096 ∧ State.reset.rf 0x1408 44 32 = 0 ∧ State.reset.cA.st = .idle ∧ State.reset.cX.st = .idle ∧
    (runCs .opened).cA.st ≠ .idle := by decide +kernel
theorem witness_bar_write : (State.reset.bar 15).busy = false ∧ (State.reset.setRf 0x150 6 0 15).rf 0x150 6 0 = 15 ∧
    isRecord (0x51F8 : W16).toNat = true ∧ isRecord (0x5020 : W16).toNat = true ∧ State.reset.lcs ≠ 4 ∧ State.reset.lcs ≠ 2 ∧ State.reset.rb 0x9000 1 = false ∧
    fld (BitVec.ofNat 64 (2 ^ 63 + 64 * 2 ^ 53 + 63 * 2 ^ 47 + 1 * 2 ^ 40)) 52 47 + fld (BitVec.ofNat 64 (2 ^ 63 + 64 * 2 ^ 53 + 63 * 2 ^ 47 + 1 * 2 ^ 40)) 46 40 = 64 := by decide +kernel

/-- The header of a sealed packet. -/
def sealedH (h : W64) (ws : List W64) : W64 := putFld h 15 0 (packetCrc h ws).toNat
theorem witness_csr_rd : packetOk (sealedH (BitVec.ofNat 64 (1 * 2 ^ 60)) []) [] = true ∧ fld (sealedH (BitVec.ofNat 64 (1 * 2 ^ 60)) []) 63 60 = 1 ∧
    fld (sealedH (BitVec.ofNat 64 (1 * 2 ^ 60)) []) 59 54 = State.reset.rf 0x18 5 0 := by
  refine ⟨packetOk_seal _ _, ?_, ?_⟩ <;> rw [sealedH, fld_putFld_other _ _ (by omega) (by omega) (by omega) (by omega)] <;> decide +kernel
theorem witness_csr_wr : packetOk (sealedH (BitVec.ofNat 64 (2 * 2 ^ 60 + 0x390 * 2 ^ 16)) [0]) [0] = true ∧
    fld (sealedH (BitVec.ofNat 64 (2 * 2 ^ 60 + 0x390 * 2 ^ 16)) [0]) 63 60 = 2 := by
  refine ⟨packetOk_seal _ _, ?_⟩; rw [sealedH, fld_putFld_other _ _ (by omega) (by omega) (by omega) (by omega)]; decide +kernel
theorem witness_ring : State.reset.pins.stopReady = true ∧ State.reset.pins.bypassClosed = false ∧ State.reset.rb 8 0 = true ∧ fld (BitVec.ofNat 64 (3 * 2 ^ 60)) 63 60 = 3 ∧
    ({ State.reset with ring := ⟨[], [31], []⟩ } : State).ring.ev = [31] ∧ ({ State.reset with ring := ⟨[], [], [[5, 6]]⟩ } : State).ring.tr = [[5, 6]] ∧
    ({ State.reset with pins := { State.reset.pins with stopReady := false, bypassClosed := true } } : State).pins.bypassClosed = true := by decide +kernel

def pinState (cold warm lock : Bool) : State := { State.reset with pins := { State.reset.pins with coldLow := cold, warmLow := warm, aclkLocked := lock } }
theorem witness_resets : (pinState true false false).pins.coldLow = true ∧ (pinState false false false).pins.aclkLocked = false ∧ (1 ∉ (pinState false false false).pins.dead) ∧
    (pinState false true true).pins.warmLow = true ∧ (pinState false true true).pins.multUsed = (pinState false true true).rf 0x6000 23 20 ∧
    ((pinState false true true).setRf 0x6000 23 20 8).pins.multUsed ≠ ((pinState false true true).setRf 0x6000 23 20 8).rf 0x6000 23 20 ∧
    State.reset.pins.stopReady = true ∧ (State.reset.setRf 8 1 1 1).rb 8 1 = true ∧ State.reset.rf 0x388 1 0 = 1 := by decide +kernel

def lcState (n : Nat) : State := (State.reset.setRf 8 15 13 n).setRf 0x7008 2 2 1
theorem witness_lifecycle : (∀ n, n < 5 → (lcState n).lcs = n) ∧ (lcState 2).rb 8 1 = false ∧ (lcState 2).rf 0x7008 15 8 < 3 ∧ (lcState 2).rb 0x7008 2 = true ∧
    (lcState 2).inReset = false ∧ (lcState 2).pins.unlockAc = false ∧
    ({ lcState 3 with pins := { (lcState 3).pins with unlockAc := true } } : State).lcs = 3 ∧ (lcState 2).tp.testMode = false ∧ (lcState 2).rb 8 0 = true ∧ ([1, 2, 3, 4] : List W64).length = 4 ∧ (lcState 2).tokenOk [1, 2, 3, 4] = false := by decide +kernel
/-- A token that matches: the hash register holds its digest. -/
def tokenState (ws : List W64) : State :=
  let d := sha384 ((ws.flatMap fun w => leBytes 8 w.toNat) ++ leBytes 3 (lcState 2).place)
  (upto 6).foldl (fun s i => s.wr (0x7010 + 8 * i) (BitVec.ofNat 64 (rdLe d (8 * i) 8))) (lcState 2)
theorem witness_token : (tokenState [1, 2, 3, 4]).tokenOk [1, 2, 3, 4] = true := by decide +kernel

def hot (t : Nat) : SectReading := ⟨BitVec.ofNat 12 t, 700⟩
theorem witness_lockstep : (State.reset.putReadings [hot 0x100, hot 0x100, hot 0x100, hot 0x1A1]).pastLimits = true ∧
    (State.reset.putReadings [hot 0x100, hot 0x100, hot 0x100, hot 0x1A0]).pastLimits = false ∧ State.reset.bist = none ∧ State.reset.tp.testMode = false ∧
    State.reset.rb 0x6008 0 = false ∧ State.reset.pins.dead = [] ∧ (3 : BitVec 2).toNat ∉ State.reset.pins.tripping ∧ State.reset.rb 8 0 = true ∧
    State.reset.pins.aclkLocked = true ∧ State.reset.pins.coldLow = false ∧ State.reset.pins.warmLow = false ∧ State.reset.arr.running = [] ∧
    State.reset.arr.waiting = [] ∧ State.reset.spins = false ∧ (pinState true false false).pins.aclkLocked = false ∧
    (3 : BitVec 2).toNat ∈ ({ State.reset with pins := { State.reset.pins with tripping := [3] } } : State).pins.tripping := by decide +kernel
def onePass : State := { State.reset with arr := { State.reset.arr with running := [{ passOf 0 0 with west := none }] } }
theorem witness_power : onePass.passLevels = [10] ∧ onePass.spins = false ∧ onePass.workLevel ≠ 12 ∧ onePass.arr.waiting = [] ∧
    ({ State.reset with sA := { Stream.reset with stall := some (lockStall, 0) } } : State).spins = true ∧
    ({ State.reset with pins := { State.reset.pins with tripping := [3], droopAc := 0 } }.setRf 0x6008 2 2 1).rb 0x6008 2 = true := by decide +kernel

theorem witness_wrapper : bitVal [false, false, false, false, true, false] = 0x10 ∧ ([false, false, false, false, true, false] : List Bool).length = 6 ∧
    State.reset.rf 0xF000 5 0 = 0 ∧ (State.reset.setRf 0xF000 5 0 2).rf 0xF000 5 0 = 2 ∧ (List.replicate wbrCells true).length = wbrCells ∧
    (State.reset.setRf 0xF000 5 0 0x10).rf 0xF000 5 0 = 0x10 ∧ State.reset.pins.coldLow = false ∧ State.reset.pins.warmLow = false ∧ (pinState true true false).pins.coldLow = true ∧ State.reset.lcs ≠ 2 ∧ State.reset.lcs ≠ 4 ∧ (lcState 2).lcs = 2 := by decide +kernel

theorem witness_access_codes : [0x118, 0x290, 0x300, 0x3C0, 0x6060, 0xFFF8].all (fun o => !ownWrite o && !isVgReg o && !isCkeConfig o && !isRecord o) = true ∧
    ownRead 0x118 = false ∧ State.reset.pins.stopReady = true ∧ State.reset.pins.bypassClosed = false ∧ State.reset.rb 8 0 = true ∧
    isVgReg 0x1500 = true ∧ isCkeConfig 0x1810 = true ∧ isRecord 0x5020 = true ∧ State.reset.rounds = [] ∧ State.reset.cstate = 0 ∧ State.reset.lcs = 0 := by decide +kernel
theorem witness_access_rwl : (lcState 2).lcs = 2 ∧ ∃ o, ownWrite o = false ∧ (regFields o).any (fun f => f.acc = .rwl) = true := ⟨by decide +kernel, 0x7010, by decide +kernel, by decide +kernel⟩

theorem witness_lanes : isIntLane 5 = true ∧ isFloatLane 0 = true ∧ (decodeElem 0 0x3F800000).isFin = true ∧ isFloatLane 1 = true ∧
    (decodeElem 0 0x3F800000).val + (decodeElem 0 0xC0000000).val ≠ 0 ∧ (decodeElem 0 0x3F800000).isNan = false := by decide +kernel

def beatMem (c : Slot) : VeMem := ⟨c, runX.sX.a, runX.sX.n, 0x3F800000, none, 0, 3, VeAcc.zero⟩
def beatWork (ms : List VeMem) : VeWork := { setWork with mems := ms, vlen := 4, beat := 0, pend := ms.flatMap fun m => vecPend m.c }
/-- The VE's front work and its scratchpad: four lanes of FP32 at 0x1000. -/
def beatState (w : VeWork) : State :=
  { runX with vec := { runX.vec with ve := [w], m := [(1, 5)] }
              spm := { runX.spm with mem := [(0x1002, 0x80), (0x1003, 0x3F), (0x100B, 0x40), (0x100E, 0x40), (0x100F, 0xC0)] } }
theorem beat_one (w : VeWork) (h1 : w.beat = 0) (h2 : 0 < w.vlen ∧ w.vlen ≤ w.width) (h3 : w.cs = none) (h4 : (beatState w).veHeld w = false)
    (h5 : ∀ m ∈ w.mems, ftqsOf m.c = [] ∧ vMsk m.c < 8 ∧ vNx m.c = false ∧ m.c.ct = false ∧ m.acc = VeAcc.zero) : OneBeat (beatState w) w [] :=
  ⟨rfl, h1, h2, h3, h4, rfl, ⟨rfl, rfl, rfl, rfl⟩, ⟨fun _ => rfl, rfl⟩, rfl, ⟨rfl, rfl⟩, h5⟩
theorem beat_of (c : Slot) (h2 : 4 ≤ (beatWork [beatMem c]).width) (h4 : (beatState (beatWork [beatMem c])).veHeld (beatWork [beatMem c]) = false)
    (h5 : ftqsOf c = [] ∧ vMsk c < 8 ∧ vNx c = false ∧ c.ct = false) : OneBeat (beatState (beatWork [beatMem c])) (beatWork [beatMem c]) [] :=
  beat_one _ rfl ⟨Nat.succ_pos 3, h2⟩ rfl h4 fun m h => by simp [beatWork] at h; subst h; exact ⟨h5.1, h5.2.1, h5.2.2.1, h5.2.2.2, rfl⟩
/-- Sources and a destination at 0x1000, 0x1100 and on, under mask register `k`. -/
def atForm (ty d n : Nat) : W64 := BitVec.ofNat 64 (1 * 2 ^ 60 + ty * 2 ^ 55 + d * 2 ^ 30 + n * 2 ^ 9)
def laneSlot (op fn msk dst : Nat) (words : List W64) : Slot :=
  asOpc op (slot 3 (BitVec.ofNat 64 (words.length * 2 ^ 48 + dst * 2 ^ 42 + 0x11 * 2 ^ 36 + 0x11 * 2 ^ 30 + msk * 2 ^ 16 + fn * 2 ^ 9 + 0x7F)) words)
def packSlot (n : Nat) : Slot := laneSlot 0x5C 2 1 0x11 [atForm 0 0x100 n, atForm 0 0 4]
def bsdWords : List W64 := [BitVec.ofNat 64 (1 * 2 ^ 60 + 0x200 * 2 ^ 36 + 1 * 2 ^ 32 + 0x300 * 2 ^ 8 + 6 * 2 ^ 3), BitVec.ofNat 64 (1 * 2 ^ 43 + 4 * 2 ^ 22), 0]
def quantSlot : Slot := laneSlot 0x57 0 0 0x1C (bsdWords ++ [atForm 0 0 4])
def dequantSlot : Slot :=
  asOpc 0x58 (slot 3 (BitVec.ofNat 64 (4 * 2 ^ 48 + 0x11 * 2 ^ 42 + 0x1C * 2 ^ 36 + 0x7F)) (atForm 0 0x100 4 :: bsdWords))
def redSlot : Slot := asOpc 0x61 (slot 3 (BitVec.ofNat 64 (1 * 2 ^ 48 + 10 * 2 ^ 42 + 0x11 * 2 ^ 36)) [atForm 0 0 4])
def dense (m : VeMem) (n base : Nat) : Bool :=
  isForm (vDst m.c) && ((List.range n).all fun e => decide ((vDstForm m.regs m.c).addrN e = base + fmtBytes (dstTy m.c) * e)) &&
    decide (base + fmtBytes (dstTy m.c) * n ≤ spmSize)
theorem dense_of {m : VeMem} {n base : Nat} (h : dense m n base = true) : Dense m n base := by
  simp only [dense, Bool.and_eq_true, List.all_eq_true, List.mem_range, decide_eq_true_eq] at h
  exact ⟨h.1.1, h.1.2, h.2⟩
theorem witness_beat_lanes : let m := beatMem (laneSlot 0x40 0 1 0x11 [atForm 0 0x100 4, atForm 0 0 4, atForm 0 0 4])
    OneBeat (beatState (beatWork [m])) (beatWork [m]) [] ∧ elementwise m.c = true ∧ (∀ i, i < laneSrcs m.c → isForm (vSrc m.c i) = true) ∧ Dense m 4 0x1100 :=
  ⟨beat_of _ (by decide +kernel) (by decide +kernel) (by decide +kernel), by decide +kernel, by decide +kernel, dense_of (by decide +kernel)⟩
theorem witness_beat_dequant : let m := beatMem dequantSlot
    let d := bsdAt m.regs m.c (wSrc m.c 0)
    OneBeat (beatState (beatWork [m])) (beatWork [m]) [] ∧ vSrc m.c 0 = 0x1C ∧ d.sq = false ∧ isBlockFmt d.fmt = true ∧ 4 ≤ d.rows * d.cols ∧ Dense m 4 0x1100 :=
  ⟨beat_of _ (by decide +kernel) (by decide +kernel) (by decide +kernel), by decide +kernel, by decide +kernel, by decide +kernel, by decide +kernel, dense_of (by decide +kernel)⟩
theorem witness_beat_pack : ∀ n ∈ [2, 1], let m := beatMem (packSlot n)
    let on := (List.range 4).filter fun e => (beatState (beatWork [m])).maskBit (vMsk m.c) e
    OneBeat (beatState (beatWork [m])) (beatWork [m]) [] ∧ isForm (vSrc m.c 0) = true ∧ isForm (vDst m.c) = true ∧ on.length = 2 ∧
    (vDstForm m.regs m.c).count = n ∧ ((beatWork [m]).pend.contains (0, vFn m.c)) = true := by
  intro n hn
  refine ⟨beat_of _ ?_ ?_ ?_, ?_⟩ <;> revert n <;> decide +kernel
theorem witness_beat_pack_place : ∀ e, e < 2 → ∀ n ∈ [2], (vDstForm (beatMem (packSlot n)).regs (packSlot n)).addrN e = 0x1100 + 4 * e := by decide +kernel
theorem witness_beat_expand : let m := beatMem (laneSlot 0x5D 2 1 0x11 [atForm 0 0x100 4, atForm 0 0 4])
    OneBeat (beatState (beatWork [m])) (beatWork [m]) [] ∧ isForm (vSrc m.c 0) = true ∧
    ((List.range 4).filter fun e => (beatState (beatWork [m])).maskBit (vMsk m.c) e).length ≤ (vForm m.regs m.c 0).count ∧ Dense m 4 0x1100 :=
  ⟨beat_of _ (by decide +kernel) (by decide +kernel) (by decide +kernel), by decide +kernel, by decide +kernel, dense_of (by decide +kernel)⟩
theorem witness_beat_compare : let m := beatMem (laneSlot 0x4E 2 1 0x22 [atForm 0 0 4, atForm 0 0 4])
    OneBeat (beatState (beatWork [m])) (beatWork [m]) [] ∧ isForm (vSrc m.c 0) = true ∧ isForm (vSrc m.c 1) = true ∧ vDst m.c = 0x20 + 2 :=
  ⟨beat_of _ (by decide +kernel) (by decide +kernel) (by decide +kernel), by decide +kernel, by decide +kernel, by decide +kernel⟩
theorem witness_beat_quantize : let m := beatMem quantSlot
    let s := beatState (beatWork [m])
    let d := bsdAt m.regs m.c 0
    let row := ((List.range 4).map fun e => some ((decodeElem (vOt m.c) (formCode s m 0 e)).divPos (fp32 m.scale).val)) ++ List.replicate (32 - 4) none
    let q := quantBlock d.fmt (decide (vFn m.c = 1)) (fun i k => srRnd (vSr m.c) (beatWork [m]).key (i * d.cols + k + srBase m.c)) [row]
    let bytes := (blkBytes d 0 0 (q.1.headD ⟨[], 0, none⟩)).flatMap fun p => p.2.zipIdx.map fun (b, j) => (p.1 + j, b)
    vSrc m.c 0 = 0x11 ∧ vMsk m.c = 0 ∧ d.sq = false ∧ d.rows = 1 ∧ d.cols = 4 ∧ q.1.length = 1 ∧ (bytes.map (·.1)).Nodup ∧ (∀ p ∈ bytes, p.1 < spmSize) := by decide +kernel
theorem witness_beat_quantize_one : OneBeat (beatState (beatWork [beatMem quantSlot])) (beatWork [beatMem quantSlot]) [] := beat_of _ (by decide +kernel) (by decide +kernel) (by decide +kernel)
theorem witness_beat_reduce : let m := beatMem redSlot
    OneBeat (beatState (beatWork [m])) (beatWork [m]) [] ∧ isRed m.c = true ∧ isForm (vSrc m.c 0) = true ∧ isN (vDst m.c) = true ∧ redSeg m.c = 0 ∧ redPv m.c = false ∧
    (beatWork [m]).pend.contains (0, vDst m.c - 8) = true :=
  ⟨beat_of _ (by decide +kernel) (by decide +kernel) (by decide +kernel), by decide +kernel, by decide +kernel, by decide +kernel, by decide +kernel, by decide +kernel, by decide +kernel⟩
def coupleA : Slot := laneSlot 0x46 0 0 1 [atForm 0 0 4]
def coupleB : Slot := asOpc 0x45 (slot 3 (BitVec.ofNat 64 (1 * 2 ^ 48 + 0x11 * 2 ^ 42 + 1 * 2 ^ 36 + 1 * 2 ^ 16 + 0x7F)) [atForm 0 0x100 4])
theorem witness_beat_coupled : let w := beatWork [beatMem coupleA, beatMem coupleB]
    OneBeat (beatState w) w [] ∧ elementwise coupleA = true ∧ elementwise coupleB = true ∧ isForm (vSrc coupleA 0) = true ∧ laneSrcs coupleA = 1 ∧ laneSrcs coupleB = 1 ∧
    isK (vDst coupleA) = true ∧ vSrc coupleB 0 = vDst coupleA ∧ fmtBits (srcTy coupleB 0) = fmtBits (dstTy coupleA) ∧ vMsk coupleA = 0 ∧ Dense (beatMem coupleB) 4 0x1100 :=
  ⟨beat_one _ rfl (by decide +kernel) rfl (by decide +kernel) (by decide +kernel), by decide +kernel, by decide +kernel, by decide +kernel, by decide +kernel, by decide +kernel, by decide +kernel, by decide +kernel, by decide +kernel, by decide +kernel, dense_of (by decide +kernel)⟩

theorem witness_ledger : let l : List (Machine.Num × Nat) := [(.fin false (2 ^ 40), 4), (.fin false 1, 4), (.fin true (2 ^ 40), 4)]
    (∀ p ∈ l, 1 ≤ p.2 ∧ p.2 ≤ 64 ∧ (match p.1 with | .fin _ m => decide (0 < m) | _ => false) = true) ∧ l.length ≤ 2 ^ 24 ∧ windowOf l = -38 ∧ ∀ p ∈ l, windowOf l ≤ lowBit p := by decide +kernel
theorem witness_ledger_whole : ∀ p ∈ ([(.fin false (2 ^ 40), 4), (.fin false 1, 4), (.fin true (2 ^ 40), 4)] : List (Machine.Num × Nat)),
    (p.1.val / pow2 (lowBit p)).floor * pow2 (lowBit p) = p.1.val := by decide +kernel
theorem witness_ledger_spread : let l : List (Machine.Num × Nat) := [(.fin false (2 ^ 90), 4), (.fin false 1, 4)]
    windowOf l = 12 ∧ ∃ p ∈ l, lowBit p < windowOf l := ⟨by decide +kernel, (.fin false 1, 4), by decide +kernel, by decide +kernel⟩
theorem witness_ledger_cell : tget Ledger.empty ([] : Tbl Ledger) ((passOf 0 0).at' 0 0) = Ledger.empty ∧ mxpOut (passOf 0 0).c ≠ 3 := by decide +kernel

end Sys2Proof.Tests
end

section
/-!
PROOFS. Host accesses to the registers of the window: the layout of the register map, a write and a read of one register bit by
bit, and which offsets a write or a read treats by the access codes alone (00 R12 to R15).
-/

namespace Sys2Proof.Machine

/-! ### Layout of the register map -/

/-- The fields of one register: each a range of bits of the word, no two of them with a bit in common. -/
def fieldLayout (fs : List Field) : Prop :=
  (∀ f ∈ fs, f.lo ≤ f.hi ∧ f.hi < 64) ∧ fs.Pairwise fun f g => f.hi < g.lo ∨ g.hi < f.lo

theorem regMap_fieldLayout : ∀ r ∈ regMap, fieldLayout r.fields := by
  unfold fieldLayout; decide +kernel

theorem regFields_fieldLayout (off : Nat) : fieldLayout (regFields off) := by
  unfold regFields
  split
  · next r h => exact regMap_fieldLayout r (List.mem_of_find?_eq_some h)
  · exact ⟨by simp, .nil⟩

/-- The register that holds DENIED has no field that the lifecycle state locks, so a write to it never denies itself. -/
theorem lcStatus_no_rwl : (regFields 0x7008).any (fun f => f.acc = .rwl) = false := by decide +kernel

/-! ### One field, bit by bit -/

theorem bit_zero (i : Nat) : bit (0 : W64) i = false := by simp [bit]

/-- Bits [hi:lo] of one word replaced by those of another. -/
theorem bit_putFld_fld (x v : W64) {hi lo : Nat} (h : lo ≤ hi) (h64 : hi < 64) (i : Nat) :
    bit (putFld x hi lo (fld v hi lo)) i = if lo ≤ i ∧ i ≤ hi then bit v i else bit x i := by
  by_cases hi64 : i < 64
  · rw [bit_putFld x _ h hi64, testBit_fld]
    split
    · next hc => rw [Nat.add_sub_cancel' hc.1, decide_eq_true (by omega), Bool.true_and]
    · rfl
  · rw [if_neg (by omega)]
    simp [bit, not_lt.mp hi64]

theorem bit_putFld_zero (x : W64) {hi lo : Nat} (h : lo ≤ hi) (h64 : hi < 64) (i : Nat) :
    bit (putFld x hi lo 0) i = if lo ≤ i ∧ i ≤ hi then false else bit x i := by
  simpa [fld, bit] using bit_putFld_fld x 0 h h64 i

theorem bit_andNot (x m : W64) (i : Nat) : bit (x &&& ~~~m) i = (bit x i && !bit m i) := by
  by_cases h : i < 64
  · simp [bit, h]
  · simp [bit, not_lt.mp h]

theorem bit_or (x y : W64) (i : Nat) : bit (x ||| y) i = (bit x i || bit y i) := BitVec.getLsbD_or

/-- A write of one field gives each of its bits what its access code says, and no other bit. -/
theorem Field.bit_write (locked : Bool) (old v : W64) {f : Field} (hf : f.lo ≤ f.hi ∧ f.hi < 64) (i : Nat) :
    bit (Field.write locked old v f) i = if f.lo ≤ i ∧ i ≤ f.hi then f.after locked old v i else bit old i := by
  have put := fun x => bit_putFld_fld x v hf.1 hf.2 i
  have zero := fun x => bit_putFld_zero x hf.1 hf.2 i
  unfold Field.write Field.after
  cases f.acc with
  | rw | rws => exact put old
  | rwl => cases locked <;> simp [put]
  | w1c => simp only [bit_andNot, put, bit_zero]; split <;> simp
  | w1s => simp only [bit_or, put, bit_zero]; split <;> simp
  | wzc => by_cases h0 : fld v f.hi f.lo = 0 <;> simp [h0, zero]
  | ro | wo => simp

/-! ### The fields of a register one after the other -/

/-- Updates of fields that do not hold a bit leave it. -/
theorem bit_foldl_outside {g : W64 → Field → W64} {fs : List Field} {i : Nat} (hg : ∀ f ∈ fs, ∀ w, bit (g w f) i = bit w i) (w : W64) :
    bit (fs.foldl g w) i = bit w i := by
  induction fs generalizing w with
  | nil => rfl
  | cons f fs ih => rw [List.foldl_cons, ih fun e he => hg e (by simp [he]), hg f (by simp)]

/-- Of the updates of a register's fields only the one whose field holds a bit decides about it; it meets the bit as it was. -/
theorem bit_foldl_inside {g : W64 → Field → W64} {fs : List Field} {f : Field} {i : Nat} (hfs : fieldLayout fs) (hf : f ∈ fs)
    (hi : f.lo ≤ i ∧ i ≤ f.hi) (hg : ∀ e ∈ fs, ¬ (e.lo ≤ i ∧ i ≤ e.hi) → ∀ w, bit (g w e) i = bit w i) (w : W64) :
    ∃ w', bit w' i = bit w i ∧ bit (fs.foldl g w) i = bit (g w' f) i := by
  obtain ⟨l, r, rfl⟩ := List.append_of_mem hf
  have hd := hfs.2
  simp only [List.pairwise_append, List.pairwise_cons, List.mem_cons, forall_eq_or_imp] at hd
  obtain ⟨-, ⟨after, -⟩, before⟩ := hd
  refine ⟨l.foldl g w, bit_foldl_outside (fun e he => hg e (by simp [he]) ?_) w, ?_⟩
  · have := (before e he).1
    omega
  · rw [List.foldl_append, List.foldl_cons]
    refine bit_foldl_outside (fun e he => hg e (by simp [he]) ?_) _
    have := after e he
    omega

/-- What a write leaves in a bit depends on the old word in that bit only. -/
theorem Field.after_congr (locked : Bool) {old old' : W64} (v : W64) (f : Field) {i : Nat} (h : bit old i = bit old' i) :
    f.after locked old v i = f.after locked old' v i := by
  simp only [Field.after, h]

/-- A write of all fields of a register, in a bit of one of them. -/
theorem bit_writeFields_inside (locked : Bool) (old v : W64) {fs : List Field} (hfs : fieldLayout fs) {f : Field} (hf : f ∈ fs) {i : Nat}
    (hi : f.lo ≤ i ∧ i ≤ f.hi) : bit (fs.foldl (Field.write locked · v) old) i = f.after locked old v i := by
  obtain ⟨w, hw, h⟩ := bit_foldl_inside (g := (Field.write locked · v)) hfs hf hi
    (fun e he hn w => by rw [Field.bit_write _ _ _ (hfs.1 e he), if_neg hn]) old
  rw [h, Field.bit_write _ _ _ (hfs.1 f hf), if_pos hi, f.after_congr locked v hw]

/-- A write of all fields of a register, in a bit of none of them (00 R14). -/
theorem bit_writeFields_outside (locked : Bool) (old v : W64) {fs : List Field} (hfs : fieldLayout fs) {i : Nat}
    (hi : ∀ f ∈ fs, ¬ (f.lo ≤ i ∧ i ≤ f.hi)) : bit (fs.foldl (Field.write locked · v) old) i = bit old i :=
  bit_foldl_outside (fun f hf w => by rw [Field.bit_write _ _ _ (hfs.1 f hf), if_neg (hi f hf)]) old

/-! ### What a read shows (00 R12, R14, R15) -/

/-- One field's step of `readMask`, in one bit. -/
theorem bit_showField (w : W64) {f : Field} (hf : f.lo ≤ f.hi ∧ f.hi < 64) (i : Nat) :
    bit (if f.acc = .wo then w else putFld w f.hi f.lo (2 ^ 64 - 1)) i =
      if f.lo ≤ i ∧ i ≤ f.hi ∧ f.acc ≠ .wo then true else bit w i := by
  by_cases hwo : f.acc = .wo
  · simp [hwo]
  · by_cases hi64 : i < 64
    · rw [if_neg hwo, bit_putFld w _ hf.1 hi64, Nat.testBit_two_pow_sub_one]
      have : i - f.lo < 64 := by omega
      simp [hwo, this]
    · rw [if_neg hwo, if_neg (by omega)]
      simp [bit, not_lt.mp hi64]

theorem bit_readMask_inside {off : Nat} {f : Field} (hf : f ∈ regFields off) {i : Nat} (hi : f.lo ≤ i ∧ i ≤ f.hi) :
    bit (readMask off) i = decide (f.acc ≠ .wo) := by
  have hfs := regFields_fieldLayout off
  obtain ⟨w, hw, h⟩ := bit_foldl_inside (g := fun w f => if f.acc = .wo then w else putFld w f.hi f.lo (2 ^ 64 - 1)) hfs hf hi
    (fun e he hn w => by rw [bit_showField _ (hfs.1 e he), if_neg (by tauto)]) 0
  rw [readMask, h, bit_showField _ (hfs.1 f hf), hw, bit_zero]
  simp [hi]

theorem bit_readMask_outside {off i : Nat} (hi : ∀ f ∈ regFields off, ¬ (f.lo ≤ i ∧ i ≤ f.hi)) : bit (readMask off) i = false := by
  have hfs := regFields_fieldLayout off
  rw [readMask, bit_foldl_outside fun f hf w => by rw [bit_showField _ (hfs.1 f hf), if_neg fun h => hi f hf ⟨h.1, h.2.1⟩], bit_zero]

theorem State.bit_shown (s : State) (off i : Nat) : bit (s.shown off) i = (bit (readMask off) i && bit (s.rd off) i) := by
  rw [State.shown, Bool.and_comm]
  exact BitVec.getLsbD_and

/-! ### Registers of the state -/

theorem State.rd_wr (s : State) (k j : Nat) (v : W64) : (s.wr k v).rd j = if k = j then v else s.rd j := tget_tset ..

theorem State.wr_onlyCsr {s s' : State} (h : onlyCsr s s') (k : Nat) (v : W64) : onlyCsr s (s'.wr k v) := by
  rw [onlyCsr] at h ⊢
  rw [h]
  rfl

theorem State.deny_onlyCsr (s : State) : onlyCsr s s.deny := State.wr_onlyCsr (s := s) (s' := s) rfl ..

theorem State.rd_deny (s : State) (k : Nat) : s.deny.rd k = if 0x7008 = k then putFld (s.rd 0x7008) 0 0 1 else s.rd k :=
  s.rd_wr ..

/-- The state in which the fields of a write are stored: DENIED is set where the write meets a locked RWL field (00 R13). -/
def State.lockCheck (s : State) (off : Nat) : State :=
  if s.rwlLocked && (regFields off).any (fun f => f.acc = .rwl) then s.deny else s

theorem State.plainWrite_eq (s : State) (off : Nat) (v : W64) :
    s.plainWrite off v = (s.lockCheck off).wr off ((regFields off).foldl (Field.write (s.lockCheck off).rwlLocked · v) ((s.lockCheck off).rd off)) := rfl

theorem State.lockCheck_onlyCsr (s : State) (off : Nat) : onlyCsr s (s.lockCheck off) := by
  unfold State.lockCheck
  split
  · exact s.deny_onlyCsr
  · rfl

theorem State.rd_lockCheck_other (s : State) (off : Nat) {k : Nat} (h : k ≠ 0x7008) : (s.lockCheck off).rd k = s.rd k := by
  unfold State.lockCheck
  split
  · rw [State.rd_deny, if_neg h.symm]
  · rfl

theorem State.rd_lockCheck_lcStatus (s : State) (off : Nat) :
    (s.lockCheck off).rd 0x7008 =
      if 2 ≤ s.lcs ∧ (regFields off).any (fun f => f.acc = .rwl) = true then putFld (s.rd 0x7008) 0 0 1 else s.rd 0x7008 := by
  unfold State.lockCheck State.rwlLocked
  simp only [Bool.and_eq_true, decide_eq_true_eq, ge_iff_le]
  split
  · exact s.rd_deny 0x7008
  · rfl

/-- The check changes nothing in the register that the write is for. -/
theorem State.rd_lockCheck_same (s : State) (off : Nat) : (s.lockCheck off).rd off = s.rd off := by
  by_cases h : off = 0x7008
  · subst h
    rw [State.rd_lockCheck_lcStatus, lcStatus_no_rwl]
    simp
  · exact s.rd_lockCheck_other off h

theorem State.rwlLocked_lockCheck (s : State) (off : Nat) : (s.lockCheck off).rwlLocked = decide (2 ≤ s.lcs) := by
  unfold State.rwlLocked State.lcs State.rf
  rw [s.rd_lockCheck_other off (by decide)]

/-! ### A write by access codes -/

theorem State.plainWrite_onlyCsr (s : State) (off : Nat) (v : W64) : onlyCsr s (s.plainWrite off v) :=
  State.wr_onlyCsr (s.lockCheck_onlyCsr off) ..

/-- The word that a write by access codes stores. -/
theorem State.rd_plainWrite_same (s : State) (off : Nat) (v : W64) :
    (s.plainWrite off v).rd off = (regFields off).foldl (Field.write (decide (2 ≤ s.lcs)) · v) (s.rd off) := by
  rw [State.plainWrite_eq, State.rd_wr, if_pos rfl, State.rwlLocked_lockCheck, State.rd_lockCheck_same]

theorem State.rd_plainWrite_other (s : State) {off k : Nat} (v : W64) (h : k ≠ off) : (s.plainWrite off v).rd k = (s.lockCheck off).rd k := by
  rw [State.plainWrite_eq, State.rd_wr, if_neg h.symm]

/-! ### Accesses without rules of their own -/

theorem State.atHost_open {s : State} (hs : s.pins.stopReady = true) (hb : s.pins.bypassClosed = false) (hd : s.rb 8 0 = true) (off : Nat)
    (f : State → State) : s.atHost off f = f s := by
  simp [State.atHost, State.notReady, hs, hb, hd]

theorem State.vgWrite_eq_plainWrite {s : State} (h : ∀ g, s.roundOpen g = false) (off : Nat) (v : W64) : s.vgWrite off v = s.plainWrite off v := by
  simp [State.vgWrite, h]

theorem State.ckeConfig_eq_plainWrite {s : State} (h : s.cstate ≠ 1 ∧ s.cstate ≠ 2) (off : Nat) (v : W64) :
    s.ckeConfig off v = s.plainWrite off v := by
  simp [State.ckeConfig, h]

theorem State.recordWrite_eq_plainWrite {s : State} (h : s.lcs ≠ 4) (off : Nat) (v : W64) : s.recordWrite off v = s.plainWrite off v :=
  if_neg h

theorem exec_registerWrite (off : W16) (v : W64) (s : State) :
    exec (.registerWrite off v) s = .next (s.atHost (off.toNat / 8 * 8) fun s => s.hostWrite (off.toNat / 8 * 8) v) := rfl

/-- A write at an offset without rules of its own, where nothing protects its register, is one by access codes. -/
theorem State.hostWrite_eq_plainWrite {s : State} {off : Nat} (v : W64) (hown : ownWrite off = false)
    (hvg : isVgReg off = true → ∀ g, s.roundOpen g = false) (hcke : isCkeConfig off = true → s.cstate ≠ 1 ∧ s.cstate ≠ 2)
    (hrec : isRecord off = true → s.lcs ≠ 4) : s.hostWrite off v = s.plainWrite off v := by
  have hplain : s.hostWrite off v = if isVgReg off then s.vgWrite off v else if isCkeConfig off then s.ckeConfig off v
      else if isRecord off then s.recordWrite off v else s.plainWrite off v := by
    simp only [ownWrite, List.contains_cons, List.contains_nil, Bool.or_false, Bool.or_eq_false_iff, beq_eq_false_iff_ne, ne_eq] at hown
    simp [State.hostWrite, hown]
  rw [hplain]
  split
  · next h => exact State.vgWrite_eq_plainWrite (hvg h) off v
  split
  · next h => exact State.ckeConfig_eq_plainWrite (hcke h) off v
  split
  · next h => exact State.recordWrite_eq_plainWrite (hrec h) off v
  · rfl

/-- A read at an offset that shows no other state shows the stored register. -/
theorem State.hostRead_eq_shown (s : State) {off : Nat} (hown : ownRead off = false) : s.hostRead off = s.shown off := by
  simp only [ownRead, List.contains_cons, List.contains_nil, Bool.or_false, Bool.or_eq_false_iff, beq_eq_false_iff_ne, ne_eq] at hown
  obtain ⟨⟨⟨⟨hlist, hstrm⟩, hreg⟩, htrk⟩, hsect⟩ := hown
  simp only [Bool.and_eq_false_iff, decide_eq_false_iff_not] at hstrm
  have hA : ¬ (0x400 ≤ off ∧ off < 0x500) := by omega
  have hX : ¬ (0x500 ≤ off ∧ off < 0x600) := by omega
  simp [State.hostRead, hlist, hA, hX, hreg, htrk, hsect]

/-- Settles O57: a write or a read at such an offset is one by access codes, and those act field by field, bit by bit. -/
theorem registerAccessCodes : Obligations.RegisterAccessCodes := by
  unfold Obligations.RegisterAccessCodes
  refine ⟨?_, ?_⟩
  · intro s off v hs hb hd o fs hown hvg hcke hrec
    have hfs : fieldLayout fs := regFields_fieldLayout o
    refine ⟨s.plainWrite o v, ?_, s.plainWrite_onlyCsr o v, ?_, ?_, ?_, ?_⟩
    · rw [exec_registerWrite, State.atHost_open hs hb hd, State.hostWrite_eq_plainWrite v hown hvg hcke hrec]
    · intro k hk hlc
      rw [s.rd_plainWrite_other v hk, s.rd_lockCheck_other o hlc]
    · intro ho
      rw [s.rd_plainWrite_other v ho.symm, s.rd_lockCheck_lcStatus]
    · intro f hf i hlo hhi
      rw [s.rd_plainWrite_same, bit_writeFields_inside _ _ _ hfs hf ⟨hlo, hhi⟩]
    · intro i hi
      rw [s.rd_plainWrite_same, bit_writeFields_outside _ _ _ hfs hi]
  · intro s off _ hown
    rw [s.hostRead_eq_shown hown]
    refine ⟨fun f hf i hlo hhi => ?_, fun i hi => ?_⟩
    · rw [s.bit_shown, bit_readMask_inside hf ⟨hlo, hhi⟩]
    · rw [s.bit_shown, bit_readMask_outside hi, Bool.false_and]

end Sys2Proof.Machine
end

section
/-!
PROOFS. Ledgers: the window lies where the largest contribution puts it, the lowest bit is the least of theirs, and the window sum
misses the exact sum by what shifts and truncations drop, which is nothing where no contribution reaches below the window
(02 R46 to R57).
-/

namespace Sys2Proof.Machine

/-! ### Powers of two -/

theorem pow2_eq_zpow (e : Int) : pow2 e = (2 : Rat) ^ e := by
  cases e with
  | ofNat n => simp [pow2]
  | negSucc n => simp [pow2, Rat.mkRat_eq_div, zpow_negSucc]

theorem pow2_pos (e : Int) : 0 < pow2 e := by
  rw [pow2_eq_zpow]
  positivity

theorem pow2_le_pow2 {a b : Int} (h : a ≤ b) : pow2 a ≤ pow2 b := by
  rw [pow2_eq_zpow, pow2_eq_zpow]
  exact zpow_le_zpow_right₀ (by norm_num) h

/-- A unit of a higher window is a whole number of units of a lower one. -/
theorem pow2_eq_shift_mul {a b : Int} (h : a ≤ b) : pow2 b = ((2 ^ (b - a).toNat : Int) : Rat) * pow2 a := by
  have e : b = ((b - a).toNat : Int) + a := by omega
  rw [pow2_eq_zpow, pow2_eq_zpow]
  conv_lhs => rw [e, zpow_add₀ two_ne_zero, zpow_natCast]
  push_cast
  rfl

theorem lt_pow2_floorLog2 {q : Rat} (hq : 0 < q) : q < pow2 (floorLog2 q + 1) := by
  simp only [floorLog2]
  split
  · next h =>
    have hn : (q.num : Rat) < 2 ^ (q.num.toNat.log2 + 1) := by
      have : q.num < 2 ^ (q.num.toNat.log2 + 1) := by
        have := @Nat.lt_log2_self q.num.toNat
        have hpos := Rat.num_pos.mpr hq
        zify at this
        rwa [Int.toNat_of_nonneg hpos.le] at this
      exact_mod_cast this
    have hd : (2 : Rat) ^ q.den.log2 ≤ q.den := by exact_mod_cast Nat.log2_self_le q.den_ne_zero
    rw [pow2_eq_zpow]
    calc q = q.num / q.den := (Rat.num_div_den q).symm
      _ < 2 ^ (q.num.toNat.log2 + 1) / 2 ^ q.den.log2 := div_lt_div₀ hn hd (by positivity) (by positivity)
      _ = 2 ^ ((q.num.toNat.log2 : Int) - q.den.log2 + 1) := by
        rw [show (q.num.toNat.log2 : Int) - q.den.log2 + 1 = ((q.num.toNat.log2 + 1 : Nat) : Int) - (q.den.log2 : Nat) by push_cast; ring,
          zpow_sub₀ two_ne_zero, zpow_natCast, zpow_natCast]
  · next h =>
    rw [Int.sub_add_cancel]
    exact not_le.mp h

/-! ### Residues and shifts (02 R48, R51) -/

theorem mod3_lt (w : Int) : mod3 w < 3 := by
  unfold mod3
  omega

theorem mod3_add (a b : Int) : (mod3 a + mod3 b) % 3 = mod3 (a + b) := by
  unfold mod3
  omega

/-- A product with 2^k has k times the residue doubled. -/
theorem mod3_mul_two_pow (q : Int) (k : Nat) : mod3 q = if k % 2 = 1 then 2 * mod3 (q * 2 ^ k) % 3 else mod3 (q * 2 ^ k) := by
  induction k with
  | zero => simp
  | succ k ih =>
    rw [ih, pow_succ, ← mul_assoc]
    generalize q * 2 ^ k = a
    unfold mod3
    split <;> split <;> omega

/-- A shift keeps the residue true (02 R51). -/
theorem shiftW_mod3 (w : Int) (k : Nat) : shiftW w (mod3 w) k = (w / 2 ^ k, mod3 (w / 2 ^ k)) := by
  by_cases h : w / 2 ^ k * 2 ^ k = w
  · have hres := mod3_mul_two_pow (w / 2 ^ k) k
    rw [h] at hres
    simp [shiftW, h, hres]
  · simp [shiftW, h]

/-- The window sum after the window has moved up to `y`. -/
def Ledger.moved (g : Ledger) (y : Int) : Int := g.w / 2 ^ (y - g.x).toNat

/-- What a move drops is less than one unit of the new window. -/
theorem Ledger.moved_missed (g : Ledger) {y : Int} (h : g.x ≤ y) :
    (g.moved y : Rat) * pow2 y ≤ g.w * pow2 g.x ∧ g.w * pow2 g.x < (g.moved y + 1) * pow2 y := by
  have hd : (0 : Int) < 2 ^ (y - g.x).toNat := by positivity
  have hle : g.moved y * 2 ^ (y - g.x).toNat ≤ g.w := Int.ediv_mul_le _ hd.ne'
  have hlt : g.w < (g.moved y + 1) * 2 ^ (y - g.x).toNat := Int.lt_ediv_add_one_mul_self _ hd
  rw [pow2_eq_shift_mul h, ← mul_assoc, ← mul_assoc]
  constructor
  · exact mul_le_mul_of_nonneg_right (by exact_mod_cast hle) (pow2_pos _).le
  · exact mul_lt_mul_of_pos_right (by exact_mod_cast hlt) (pow2_pos _)

/-- A sum that is a whole number of the new window's units stays as it is. -/
theorem Ledger.moved_exact (g : Ledger) {y k : Int} (h : g.x ≤ y) (hk : (g.w : Rat) * pow2 g.x = k * pow2 y) : g.moved y = k := by
  rw [pow2_eq_shift_mul h, ← mul_assoc] at hk
  have hw : g.w = k * 2 ^ (y - g.x).toNat := by exact_mod_cast mul_right_cancel₀ (pow2_pos _).ne' hk
  rw [Ledger.moved, hw]
  exact Int.mul_ediv_cancel _ (by positivity)

theorem Ledger.moved_bounds (g : Ledger) (y : Int) {a b : Int} (ha : 0 ≤ a) (hb : 0 ≤ b) (hlo : -a ≤ g.w) (hhi : g.w ≤ b) :
    -a ≤ g.moved y ∧ g.moved y ≤ b := by
  have hd : (1 : Int) ≤ 2 ^ (y - g.x).toNat := one_le_pow₀ (by norm_num)
  constructor
  · exact (Int.le_ediv_iff_mul_le (by positivity)).mpr (by nlinarith)
  · exact Int.lt_add_one_iff.mp ((Int.ediv_lt_iff_lt_mul (by positivity)).mpr (by nlinarith))

/-! ### The lowest bit, and a contribution that fits (02 R48, R49) -/

/-- The lowest bit of a ledger with that of one more contribution. -/
def lowMin (o : Option Int) (c : Int) : Int := match o with | some v => min v c | none => c

theorem le_lowMin (o : Option Int) (c y : Int) : y ≤ lowMin o c ↔ (∀ v ∈ o, y ≤ v) ∧ y ≤ c := by
  cases o <;> simp [lowMin]

/-- A lowest bit is known by what lies below it. -/
theorem lowest_ext {o o' : Option Int} (h : ∀ y, (∀ v ∈ o, y ≤ v) ↔ ∀ v ∈ o', y ≤ v) : o = o' := by
  cases o with
  | none =>
    cases o' with
    | none => rfl
    | some v => exact absurd ((h (v + 1)).mp (by simp) v rfl) (by omega)
  | some u =>
    cases o' with
    | none => exact absurd ((h (u + 1)).mpr (by simp) u rfl) (by omega)
    | some v => exact congrArg some (eq_of_forall_le_iff fun y => by simpa using h y)

/-- Where the sum keeps inside the window, settling stores it as it is and notes a contribution below the window (02 R48, R49). -/
theorem Ledger.settle_of_fits (g : Ledger) {w x : Int} (res : Nat) (l : Option Int) (inx : Bool) (hlo : -(2 ^ 103) ≤ w) (hhi : w < 2 ^ 103)
    (hx : x ≤ 511) : (g.settle w res x l inx).1 = { g with w := w, x := x, l := l, inx := inx || l.any (decide <| · < x), res := res } := by
  have ho : (decide (w ≥ 2 ^ 103) || decide (w < -(2 ^ 103))) = false := by
    simpa using ⟨hhi, hlo⟩
  unfold Ledger.settle
  simp only [ho, Bool.false_eq_true, if_false, if_neg (not_lt.mpr hx)]
  cases l <;> rfl

/-- The window sum after a contribution of value `v` under a window that starts at `y` (02 R48). -/
def Ledger.sumAt (g : Ledger) (v : Rat) (y : Int) : Int := g.moved y + (v / pow2 y).floor

/-- A finite contribution to a ledger whose sum keeps inside the window (02 R47, R48, R51). -/
theorem Ledger.addNum_of_fits {g : Ledger} {z : Bool} {m : Rat} {s : Nat} {y : Int} (hm : 0 < m) (hspec : g.spec = 0) (hres : g.res = mod3 g.w)
    (hempty : -512 ≤ g.x) (hcnt : g.cnt < 2 ^ 24) (hy : y = max g.x (floorLog2 m - 78)) (hmax : y ≤ 511)
    (hlo : -(2 ^ 103) ≤ g.sumAt (Num.fin z m).val y) (hhi : g.sumAt (Num.fin z m).val y < 2 ^ 103) :
    let low := lowMin g.l (lowBit (.fin z m, s))
    (g.addNum (.fin z m) s).1 = { g with
      w := g.sumAt (Num.fin z m).val y, x := y, l := some low, inx := g.inx || decide (low < y), res := mod3 (g.sumAt (Num.fin z m).val y), cnt := g.cnt + 1 } := by
  intro low
  have hc : satInc 25 g.cnt = g.cnt + 1 := by
    unfold satInc
    omega
  have hxn : max g.x (max (-512) (floorLog2 m - 78)) = y := by omega
  have hmove : (if max (-512) (floorLog2 m - 78) > g.x then shiftW g.w g.res (max (-512) (floorLog2 m - 78) - g.x).toNat else (g.w, g.res)) =
      (g.moved y, mod3 (g.moved y)) := by
    split
    · rw [hres, shiftW_mod3, Ledger.moved, show max (-512) (floorLog2 m - 78) = y by omega]
    · rw [hres, Ledger.moved, show (y - g.x).toNat = 0 by omega, pow_zero, Int.ediv_one]
  have hcount : decide (g.cnt + 1 > 2 ^ 24) = false := decide_eq_false (by omega)
  unfold Ledger.addNum
  simp only [if_neg hm.ne', hspec, ne_eq, not_true_eq_false, if_false, hc, hmove, hxn, hcount, Bool.or_false, mod3_add]
  exact Ledger.settle_of_fits _ _ (some low) _ hlo hhi hmax

/-! ### Sets of contributions: the window is their least upper bound, the sum is additive -/

theorem windowOf_append_singleton (l : List (Num × Nat)) (p : Num × Nat) : windowOf (l ++ [p]) = max (windowOf l) (binade p.1 - 78) := by
  simp [windowOf]

theorem windowOf_le_iff (l : List (Num × Nat)) (y : Int) : windowOf l ≤ y ↔ -512 ≤ y ∧ ∀ p ∈ l, binade p.1 - 78 ≤ y := by
  induction l using List.reverseRecOn with
  | nil => simp [windowOf]
  | append_singleton l p ih =>
    rw [windowOf_append_singleton, max_le_iff, ih]
    simp [or_imp, forall_and, and_assoc]

theorem windowOf_eq_of_perm {l l' : List (Num × Nat)} (h : l.Perm l') : windowOf l = windowOf l' :=
  eq_of_forall_ge_iff fun y => by simp only [windowOf_le_iff, h.mem_iff]

theorem windowOf_append (l l' : List (Num × Nat)) : windowOf (l ++ l') = max (windowOf l) (windowOf l') :=
  eq_of_forall_ge_iff fun y => by
    simp only [windowOf_le_iff, max_le_iff, List.mem_append, or_imp, forall_and]
    tauto

theorem neg_512_le_windowOf (l : List (Num × Nat)) : -512 ≤ windowOf l := ((windowOf_le_iff l _).mp le_rfl).1

theorem sumVal_append (l l' : List (Num × Nat)) : sumVal (l ++ l') = sumVal l + sumVal l' := by
  simp [sumVal]

theorem sumVal_eq_of_perm {l l' : List (Num × Nat)} (h : l.Perm l') : sumVal l = sumVal l' := (h.map _).sum_eq

/-- No contribution reaches below the window (02 R48, R49). -/
def OnGrid (l : List (Num × Nat)) : Prop := ∀ p ∈ l, windowOf l ≤ lowBit p

theorem OnGrid.of_perm {l l' : List (Num × Nat)} (h : l.Perm l') (hg : OnGrid l) : OnGrid l' := fun p hp => by
  rw [← windowOf_eq_of_perm h]
  exact hg p (h.mem_iff.mpr hp)

theorem OnGrid.left {l l' : List (Num × Nat)} (h : OnGrid (l ++ l')) : OnGrid l := fun p hp =>
  le_trans (by rw [windowOf_append]; exact le_max_left ..) (h p (List.mem_append_left _ hp))

theorem OnGrid.right {l l' : List (Num × Nat)} (h : OnGrid (l ++ l')) : OnGrid l' := h.of_perm List.perm_append_comm |>.left

theorem Contributions.left {l l' : List (Num × Nat)} (h : Contributions (l ++ l')) : Contributions l := fun p hp => h p (List.mem_append_left _ hp)

theorem Contributions.right {l l' : List (Num × Nat)} (h : Contributions (l ++ l')) : Contributions l' := fun p hp => h p (List.mem_append_right _ hp)

/-- A whole number of units at `a` is a whole number of the smaller units below. -/
theorem whole_of_le {y a : Int} (h : y ≤ a) (k : Int) : ∃ j : Int, (k : Rat) * pow2 a = j * pow2 y :=
  ⟨k * 2 ^ (a - y).toNat, by rw [pow2_eq_shift_mul h]; push_cast; ring⟩

theorem Contributions.val_whole {l : List (Num × Nat)} (hc : Contributions l) {p : Num × Nat} (hp : p ∈ l) {y : Int} (hy : y ≤ lowBit p) :
    ∃ k : Int, p.1.val = k * pow2 y := by
  obtain ⟨-, -, -, k, hk⟩ := hc p hp
  rw [hk]
  exact whole_of_le hy k

theorem Contributions.sumVal_whole {l : List (Num × Nat)} (hc : Contributions l) {y : Int} (hy : ∀ p ∈ l, y ≤ lowBit p) :
    ∃ k : Int, sumVal l = k * pow2 y := by
  induction l with
  | nil => exact ⟨0, by simp [sumVal]⟩
  | cons p l ih =>
    obtain ⟨j, hj⟩ := hc.val_whole (List.mem_cons_self ..) (hy p (List.mem_cons_self ..))
    obtain ⟨k, hk⟩ := ih (fun q hq => hc q (List.mem_cons_of_mem _ hq)) (fun q hq => hy q (List.mem_cons_of_mem _ hq))
    refine ⟨j + k, ?_⟩
    rw [show sumVal (p :: l) = p.1.val + sumVal l from List.sum_cons, hj, hk]
    push_cast
    ring

/-! ### What a window sum holds -/

/-- A contribution lies less than 79 binades above the bottom of its window (02 R48). -/
theorem abs_val_lt_of_window {z : Bool} {m : Rat} (hm : 0 < m) {y : Int} (hy : floorLog2 m - 78 ≤ y) :
    |(Num.fin z m).val| < (2 ^ 79 : Int) * pow2 y := by
  have habs : |(Num.fin z m).val| = m := by
    cases z <;> simp [Num.val, abs_of_pos hm]
  calc |(Num.fin z m).val| = m := habs
    _ < pow2 (floorLog2 m + 1) := lt_pow2_floorLog2 hm
    _ ≤ pow2 (y + 79) := pow2_le_pow2 (by omega)
    _ = (2 ^ 79 : Int) * pow2 y := by rw [pow2_eq_shift_mul (show y ≤ y + 79 by omega), add_sub_cancel_left]; rfl

theorem floor_bounds_of_window {z : Bool} {m : Rat} (hm : 0 < m) {y : Int} (hy : floorLog2 m - 78 ≤ y) :
    -(2 ^ 79) ≤ ((Num.fin z m).val / pow2 y).floor ∧ ((Num.fin z m).val / pow2 y).floor ≤ 2 ^ 79 - 1 := by
  obtain ⟨hlo, hhi⟩ := abs_lt.mp (abs_val_lt_of_window (z := z) hm hy)
  rw [Rat.le_floor_iff, Int.le_sub_one_iff, Rat.floor_lt_iff, le_div_iff₀ (pow2_pos y), div_lt_iff₀ (pow2_pos y)]
  push_cast at hlo hhi ⊢
  exact ⟨by linarith, hhi⟩

/-- What a truncation drops is less than one unit of the window. -/
theorem floor_missed (v : Rat) (y : Int) :
    ((v / pow2 y).floor : Rat) * pow2 y ≤ v ∧ v < ((v / pow2 y).floor + 1) * pow2 y := by
  rw [← le_div_iff₀ (pow2_pos y), ← div_lt_iff₀ (pow2_pos y)]
  exact ⟨Rat.floor_le _, by exact_mod_cast Rat.lt_floor_add_one (v / pow2 y)⟩

theorem Ledger.sumAt_bounds {g : Ledger} {z : Bool} {m : Rat} {y : Int} {n : Nat} (hm : 0 < m) (hy : floorLog2 m - 78 ≤ y)
    (hlo : -(n * 2 ^ 79) ≤ g.w) (hhi : g.w ≤ n * (2 ^ 79 - 1)) :
    -((n + 1 : Nat) * 2 ^ 79) ≤ g.sumAt (Num.fin z m).val y ∧ g.sumAt (Num.fin z m).val y ≤ (n + 1 : Nat) * (2 ^ 79 - 1) := by
  obtain ⟨mlo, mhi⟩ := g.moved_bounds y (by omega) (by omega : (0 : Int) ≤ n * (2 ^ 79 - 1)) hlo hhi
  obtain ⟨flo, fhi⟩ := floor_bounds_of_window (z := z) hm hy
  unfold Ledger.sumAt
  push_cast
  constructor <;> linarith

/-- A contribution makes the sum miss less than two units of the window more: one by the shift, one by the truncation (02 R50). -/
theorem Ledger.sumAt_missed {g : Ledger} {y : Int} (h : g.x ≤ y) (v : Rat) {sum : Rat} {n : Nat} (hlo : 0 ≤ sum - g.w * pow2 g.x)
    (hhi : sum - g.w * pow2 g.x ≤ 2 * n * pow2 g.x) :
    0 ≤ sum + v - g.sumAt v y * pow2 y ∧ sum + v - g.sumAt v y * pow2 y < 2 * (n + 1 : Nat) * pow2 y := by
  obtain ⟨mlo, mhi⟩ := g.moved_missed h
  obtain ⟨flo, fhi⟩ := floor_missed v y
  have hunit : 2 * n * pow2 g.x ≤ 2 * n * pow2 y := mul_le_mul_of_nonneg_left (pow2_le_pow2 h) (by positivity)
  unfold Ledger.sumAt
  push_cast
  constructor <;> linarith

theorem Ledger.sumAt_exact {g : Ledger} {y j k : Int} (h : g.x ≤ y) {v : Rat} (hw : (g.w : Rat) * pow2 g.x = j * pow2 y) (hv : v = k * pow2 y) :
    (g.sumAt v y : Rat) * pow2 y = g.w * pow2 g.x + v := by
  rw [Ledger.sumAt, g.moved_exact h hw, hv, mul_div_cancel_right₀ _ (pow2_pos y).ne', Rat.floor_intCast, hw]
  push_cast
  ring

/-! ### The ledger of a list -/

/-- A ledger holds a list of contributions: its window and its lowest bit are theirs, INX tells whether one reaches below the window,
the residue is the sum's, and where none reaches below, the sum is exact. -/
structure Ledger.Sums (g : Ledger) (l : List (Num × Nat)) : Prop where
  spec : g.spec = 0
  window : g.x = windowOf l
  low : ∀ y, (∀ v ∈ g.l, y ≤ v) ↔ ∀ p ∈ l, y ≤ lowBit p
  inx : g.inx = false ↔ OnGrid l
  res : g.res = mod3 g.w
  exact : OnGrid l → (g.w : Rat) * pow2 g.x = sumVal l

/-- What bounds a ledger while it counts contributions: the count is exact, the sum keeps inside the window, and it misses less than two
units for each (02 R48, R50). -/
structure Ledger.Counts (g : Ledger) (l : List (Num × Nat)) : Prop where
  cnt : g.cnt = l.length
  lower : -(l.length * 2 ^ 79) ≤ g.w
  upper : g.w ≤ l.length * (2 ^ 79 - 1)
  below : 0 ≤ sumVal l - g.w * pow2 g.x
  missed : sumVal l - g.w * pow2 g.x ≤ 2 * l.length * pow2 g.x
  missedLess : l ≠ [] → sumVal l - g.w * pow2 g.x < 2 * l.length * pow2 g.x

theorem Ledger.empty_sums : Ledger.empty.Sums [] where
  spec := rfl
  window := rfl
  low := by simp [Ledger.empty]
  inx := by simp [Ledger.empty, OnGrid]
  res := rfl
  exact := by simp [Ledger.empty, sumVal]

theorem Ledger.empty_counts : Ledger.empty.Counts [] := by
  constructor <;> simp [Ledger.empty, sumVal]

theorem ledgerOf_append_singleton (l : List (Num × Nat)) (p : Num × Nat) : ledgerOf (l ++ [p]) = ((ledgerOf l).addNum p.1 p.2).1 := by
  simp [ledgerOf]

/-- INX is 0 just where the lowest bit does not lie below the window: a window only moves up (02 R49). -/
theorem Ledger.Sums.inx_iff_low {g : Ledger} {l : List (Num × Nat)} (hg : g.Sums l) : g.inx = false ↔ ∀ v ∈ g.l, g.x ≤ v := by
  rw [hg.inx, hg.low, hg.window]
  rfl

theorem Ledger.addNum_sums {g : Ledger} {l : List (Num × Nat)} {p : Num × Nat} (hg : g.Sums l) (hcounts : g.Counts l)
    (hc : Contributions (l ++ [p])) (hn : (l ++ [p]).length ≤ 2 ^ 24) (hx : windowOf (l ++ [p]) ≤ 511) :
    (g.addNum p.1 p.2).1.Sums (l ++ [p]) ∧ (g.addNum p.1 p.2).1.Counts (l ++ [p]) := by
  obtain ⟨-, -, ⟨z, m, hp, hm⟩, -⟩ := hc p (by simp)
  obtain ⟨v, s⟩ := p
  obtain rfl : v = .fin z m := hp
  have hwin : windowOf (l ++ [(.fin z m, s)]) = max g.x (floorLog2 m - 78) := by rw [windowOf_append_singleton, hg.window]; rfl
  set y := windowOf (l ++ [(.fin z m, s)]) with hy
  have hgx : g.x ≤ y := hwin ▸ le_max_left ..
  rw [List.length_append, List.length_singleton] at hn
  obtain ⟨hlo, hhi⟩ := Ledger.sumAt_bounds (z := z) hm (hwin ▸ le_max_right ..) hcounts.lower hcounts.upper
  obtain ⟨elo, ehi⟩ := Ledger.sumAt_missed hgx (Num.fin z m).val hcounts.below hcounts.missed
  have hempty : -512 ≤ g.x := hg.window ▸ neg_512_le_windowOf l
  have hsum : sumVal (l ++ [(.fin z m, s)]) = sumVal l + (Num.fin z m).val := by simp [sumVal]
  rw [Ledger.addNum_of_fits (s := s) hm hg.spec hg.res hempty (by rw [hcounts.cnt]; omega) hwin hx (by omega) (by omega)]
  have hlow : ∀ u, u ≤ lowMin g.l (lowBit (.fin z m, s)) ↔ ∀ q ∈ l ++ [(.fin z m, s)], u ≤ lowBit q := fun u => by
    rw [le_lowMin, hg.low]
    simp [or_imp, forall_and]
  constructor
  · refine ⟨hg.spec, rfl, fun u => ?_, ?_, rfl, fun hgrid => ?_⟩
    · simpa using hlow u
    · rw [OnGrid, ← hy, ← hlow, Bool.or_eq_false_iff, decide_eq_false_iff_not, not_lt, hg.inx_iff_low]
      exact and_iff_right_of_imp fun h v hv => hgx.trans (((le_lowMin ..).mp h).1 v hv)
    · obtain ⟨j, hj⟩ := hc.left.sumVal_whole fun q hq => hgrid q (List.mem_append_left _ hq)
      obtain ⟨k, hk⟩ := hc.val_whole (by simp) (hgrid (.fin z m, s) (by simp))
      rw [hsum, ← hg.exact hgrid.left]
      exact Ledger.sumAt_exact hgx ((hg.exact hgrid.left).trans hj) hk
  · rw [← hsum] at elo ehi
    exact ⟨by simp [hcounts.cnt], by simpa using hlo, by simpa using hhi, elo, by simpa using ehi.le, fun _ => by simpa using ehi⟩

theorem ledgerOf_sums {l : List (Num × Nat)} (hc : Contributions l) (hn : l.length ≤ 2 ^ 24) (hx : windowOf l ≤ 511) :
    (ledgerOf l).Sums l ∧ (ledgerOf l).Counts l := by
  induction l using List.reverseRecOn with
  | nil => exact ⟨Ledger.empty_sums, Ledger.empty_counts⟩
  | append_singleton l p ih =>
    have hn' : l.length ≤ 2 ^ 24 := le_trans (by simp) hn
    have hx' : windowOf l ≤ 511 := le_trans (by rw [windowOf_append]; exact le_max_left ..) hx
    obtain ⟨hsums, hcounts⟩ := ih hc.left hn' hx'
    rw [ledgerOf_append_singleton]
    exact Ledger.addNum_sums hsums hcounts hc hn hx

/-- Contributions on the grid determine the ledger that holds them, but for its count. -/
theorem Ledger.Sums.unique {g g' : Ledger} {l : List (Num × Nat)} (hg : g.Sums l) (hg' : g'.Sums l) (hgrid : OnGrid l) :
    g = { g' with cnt := g.cnt } := by
  have hx : g.x = g'.x := hg.window.trans hg'.window.symm
  have hw : g.w = g'.w := by
    have h := (hg.exact hgrid).trans (hg'.exact hgrid).symm
    rw [hx] at h
    exact_mod_cast mul_right_cancel₀ (pow2_pos _).ne' h
  have hl : g.l = g'.l := lowest_ext fun y => (hg.low y).trans (hg'.low y).symm
  have hinx : g.inx = g'.inx := (hg.inx.mpr hgrid).trans (hg'.inx.mpr hgrid).symm
  have hspec : g.spec = g'.spec := hg.spec.trans hg'.spec.symm
  have hres : g.res = g'.res := by rw [hg.res, hg'.res, hw]
  rw [← hw, ← hx, ← hl, ← hspec, ← hinx, ← hres]

/-- Contributions on the grid make the same ledger in every order (02 R48). -/
theorem ledgerOf_eq_of_perm {l l' : List (Num × Nat)} (h : l.Perm l') (hc : Contributions l) (hn : l.length ≤ 2 ^ 24) (hx : windowOf l ≤ 511)
    (hgrid : OnGrid l) : ledgerOf l' = ledgerOf l := by
  obtain ⟨hsums, hcounts⟩ := ledgerOf_sums hc hn hx
  obtain ⟨hsums', hcounts'⟩ := ledgerOf_sums (l := l') (fun p hp => hc p (h.mem_iff.mpr hp)) (h.length_eq ▸ hn) (windowOf_eq_of_perm h ▸ hx)
  have hkeep : (ledgerOf l').Sums l := {
    spec := hsums'.spec
    window := hsums'.window.trans (windowOf_eq_of_perm h).symm
    low := fun y => by simp only [hsums'.low, h.mem_iff]
    inx := hsums'.inx.trans ⟨OnGrid.of_perm h.symm, OnGrid.of_perm h⟩
    res := hsums'.res
    exact := fun hg => (hsums'.exact (hg.of_perm h)).trans (sumVal_eq_of_perm h).symm }
  rw [hkeep.unique hsums hgrid, hcounts'.cnt, ← h.length_eq, ← hcounts.cnt]

/-! ### LX128 words (02 R55, R56) -/

/-- A signed number is read back from a field of enough bits. -/
theorem sgn_emod {n : Nat} {w : Int} (hn : 0 < n) (hlo : -(2 ^ (n - 1)) ≤ w) (hhi : w < 2 ^ (n - 1)) : sgn n (w % 2 ^ n).toNat = w := by
  obtain ⟨k, rfl⟩ : ∃ k, n = k + 1 := ⟨n - 1, by omega⟩
  rw [Nat.add_sub_cancel] at hlo hhi
  have hP : (0 : Int) < 2 ^ k := by positivity
  rw [sgn, Nat.add_sub_cancel]
  zify
  rw [Int.toNat_of_nonneg (Int.emod_nonneg _ (by positivity)), pow_succ]
  rcases le_or_gt 0 w with h | h
  · rw [Int.emod_eq_of_lt h (by linarith), if_pos hhi]
  · rw [← Int.add_mul_emod_self_right w 1, Int.emod_eq_of_lt (by linarith) (by linarith), if_neg (by linarith)]
    ring

theorem toNat_emod_two_pow_lt (w : Int) (n : Nat) : (w % 2 ^ n).toNat < 2 ^ n := by
  zify
  rw [Int.toNat_of_nonneg (Int.emod_nonneg _ (by positivity))]
  exact Int.emod_lt_of_pos _ (by positivity)

/-- A word carries no count (02 R56). -/
theorem Ledger.word_of_cnt (g : Ledger) (n : Nat) : ({ g with cnt := n } : Ledger).word = g.word := rfl

theorem Ledger.Sums.word_eq {g g' : Ledger} {l : List (Num × Nat)} (hg : g.Sums l) (hg' : g'.Sums l) (hgrid : OnGrid l) : g.word = g'.word := by
  rw [hg.unique hg' hgrid, Ledger.word_of_cnt]

/-- The number that LOW holds. -/
def Ledger.lowField (g : Ledger) : Nat := match g.l with | some v => (v - g.x).toNat | none => 127

/-- The number that LX128's fields make: W, X, LOW, INX and RES, with SPEC finite (02 Table 2-11). -/
def lxNumber (w x low inx res : Nat) : Nat := w * 2 ^ 24 + x * 2 ^ 14 + low * 2 ^ 7 + inx * 16 + res * 4

theorem Ledger.word_of_finite {g : Ledger} (hspec : g.spec = 0) :
    g.word = BitVec.ofNat 128 (lxNumber (g.w % 2 ^ 104).toNat (g.x % 2 ^ 10).toNat g.lowField (b2n g.inx) g.res) := by
  obtain ⟨w, x, l, spec, inx, res, cnt⟩ := g
  obtain rfl : spec = 0 := hspec
  have h10 : (2 : Int) ^ 10 = 1024 := by norm_num
  cases l with
  | none => simp only [Ledger.word, Ledger.lowField, lxNumber, h10, ne_eq, not_true_eq_false, if_false, zero_mul, add_zero]
  | some v =>
    have hlow : (if v < x then 0 else (v - x).toNat) = (v - x).toNat := by split <;> omega
    simp only [Ledger.word, Ledger.lowField, lxNumber, h10, hlow, ne_eq, not_true_eq_false, if_false, zero_mul, add_zero]

theorem fld_eq_div_mod {n : Nat} (x : BitVec n) (hi lo : Nat) : fld x hi lo = x.toNat / 2 ^ lo % 2 ^ (hi - lo + 1) := by
  rw [fld, Nat.shiftRight_eq_div_pow]

/-- Each field of a finite word reads as it was written. -/
theorem lxNumber_fields {w x low inx res : Nat} (hw : w < 2 ^ 104) (hx : x < 2 ^ 10) (hlow : low < 2 ^ 7) (hinx : inx ≤ 1) (hres : res < 3) :
    let v := BitVec.ofNat 128 (lxNumber w x low inx res)
    fld v 127 24 = w ∧ fld v 23 14 = x ∧ fld v 13 7 = low ∧ fld v 6 5 = 0 ∧ fld v 4 4 = inx ∧ fld v 3 2 = res := by
  simp only [fld_eq_div_mod, BitVec.toNat_ofNat, lxNumber]
  refine ⟨?_, ?_, ?_, ?_, ?_, ?_⟩ <;> omega

/-- A finite ledger whose lowest bit lies in the window is read back from its word, but for its count. -/
theorem wordLedger_word {g : Ledger} (hspec : g.spec = 0) (hlo : -(2 ^ 103) ≤ g.w) (hhi : g.w < 2 ^ 103) (hxlo : -512 ≤ g.x) (hxhi : g.x ≤ 511)
    (hres : g.res < 3) (hlow : ∀ v ∈ g.l, g.x ≤ v ∧ v < g.x + 104) : wordLedger g.word = { g with cnt := 0 } := by
  have hb : b2n g.inx ≤ 1 := by cases g.inx <;> decide
  have hfield : (g.lowField < 104 ∧ g.l = some (g.x + g.lowField)) ∨ (g.lowField = 127 ∧ g.l = none) := by
    obtain ⟨w, x, l, spec, inx, res, cnt⟩ := g
    cases l with
    | none => exact Or.inr ⟨rfl, rfl⟩
    | some v =>
      obtain ⟨h1, h2⟩ : x ≤ v ∧ v < x + 104 := hlow v rfl
      simp only [Ledger.lowField, Option.some.injEq]
      omega
  obtain ⟨hW, hX, hL, hS, hI, hR⟩ := lxNumber_fields (toNat_emod_two_pow_lt g.w 104) (toNat_emod_two_pow_lt g.x 10) (low := g.lowField) (by omega) hb hres
  rw [← Ledger.word_of_finite hspec] at hW hX hL hS hI hR
  have hinx : bit g.word 4 = g.inx := by
    have h := testBit_fld g.word 4 4 0
    rw [hI, b2n] at h
    cases hi : g.inx <;> simpa [hi] using h.symm
  have hok : lxMalformed g.word = false := by
    simp only [lxMalformed, hL, hR]
    grind
  have hw : sfld g.word 127 24 = g.w := by rw [sfld, hW]; exact sgn_emod (by omega) hlo hhi
  have hx : sfld g.word 23 14 = g.x := by rw [sfld, hX]; exact sgn_emod (by omega) hxlo (by omega)
  have hl : (if g.lowField = 127 then none else some (g.x + g.lowField)) = g.l := by
    rcases hfield with ⟨h, hl⟩ | ⟨h, hl⟩
    · rw [if_neg (by omega), hl]
    · rw [if_pos h, hl]
  simp only [wordLedger, hok, hS, hw, hx, hL, hR, hinx, hl, Bool.false_eq_true, if_false, ne_eq, not_true_eq_false, ← hspec]

/-- The sum of at most 2^24 contributions keeps inside the window (02 R48). -/
theorem Ledger.Counts.fits {g : Ledger} {l : List (Num × Nat)} (hg : g.Counts l) (hn : l.length ≤ 2 ^ 24) : -(2 ^ 103) ≤ g.w ∧ g.w < 2 ^ 103 := by
  have hlo := hg.lower
  have hhi := hg.upper
  omega

/-- The lowest bit lies less than 104 bits above the bottom of the window. -/
theorem Ledger.Sums.low_bounds {g : Ledger} {l : List (Num × Nat)} (hg : g.Sums l) (hc : Contributions l) (hgrid : OnGrid l) {v : Int} (hv : v ∈ g.l) :
    g.x ≤ v ∧ v < g.x + 104 := by
  refine ⟨hg.inx_iff_low.mp (hg.inx.mpr hgrid) v hv, ?_⟩
  obtain ⟨p, hp⟩ : ∃ p, p ∈ l := by
    by_contra! h
    have := (hg.low (v + 1)).mpr (fun p hp => absurd hp (h p)) v hv
    omega
  have hlow : v ≤ lowBit p := (hg.low v).mp (fun u hu => (Option.mem_unique hv hu).le) p hp
  have htop : binade p.1 - 78 ≤ g.x := hg.window ▸ ((windowOf_le_iff l _).mp le_rfl).2 p hp
  obtain ⟨hs, -⟩ := hc p hp
  unfold lowBit at hlow
  omega

/-- What is read back from the word of contributions on the grid holds them. -/
theorem wordLedger_sums {l : List (Num × Nat)} (hc : Contributions l) (hn : l.length ≤ 2 ^ 24) (hx : windowOf l ≤ 511) (hgrid : OnGrid l) :
    (wordLedger (ledgerOf l).word).Sums l := by
  obtain ⟨hsums, hcounts⟩ := ledgerOf_sums hc hn hx
  obtain ⟨hlo, hhi⟩ := hcounts.fits hn
  rw [wordLedger_word hsums.spec hlo hhi (hsums.window ▸ neg_512_le_windowOf l) (hsums.window ▸ hx) (hsums.res ▸ mod3_lt _)
    fun v hv => hsums.low_bounds hc hgrid hv]
  exact ⟨hsums.spec, hsums.window, hsums.low, hsums.inx, hsums.res, hsums.exact⟩

/-- The lowest bit of two merged ledgers. -/
def lowJoin (a b : Option Int) : Option Int := match a, b with | some u, some v => some (min u v) | some u, none => some u | none, v => v

theorem le_lowJoin (a b : Option Int) (y : Int) : (∀ v ∈ lowJoin a b, y ≤ v) ↔ (∀ v ∈ a, y ≤ v) ∧ ∀ v ∈ b, y ≤ v := by
  cases a <;> cases b <;> simp [lowJoin]

/-- A merge of finite ledgers whose sum keeps inside the window (02 R56). -/
theorem Ledger.merge_of_fits {g b : Ledger} {y : Int} (hg : g.spec = 0) (hb : b.spec = 0) (hgres : g.res = mod3 g.w) (hbres : b.res = mod3 b.w)
    (hy : y = max g.x b.x) (hmax : y ≤ 511) (hlo : -(2 ^ 103) ≤ g.moved y + b.moved y) (hhi : g.moved y + b.moved y < 2 ^ 103) :
    (g.merge b).1 = { g with
      w := g.moved y + b.moved y, x := y, l := lowJoin g.l b.l, inx := g.inx || b.inx || (lowJoin g.l b.l).any (decide <| · < y),
      res := mod3 (g.moved y + b.moved y) } := by
  have hmerge : (g.merge b).1 = (g.settle (g.moved y + b.moved y) (mod3 (g.moved y + b.moved y)) y (lowJoin g.l b.l) (g.inx || b.inx)).1 := by
    unfold Ledger.merge
    simp only [hg, hb, ne_eq, not_true_eq_false, decide_false, Bool.or_self, Bool.false_eq_true, if_false, ← hy, hgres, hbres, shiftW_mod3, mod3_add] <;> rfl
  rw [hmerge, Ledger.settle_of_fits _ _ _ _ hlo hhi hmax]

/-- Two ledgers on the grid of all their contributions merge into one that holds them all (02 R56, R57). -/
theorem Ledger.merge_sums {g b : Ledger} {l l' : List (Num × Nat)} (hg : g.Sums l) (hb : b.Sums l') (hc : Contributions (l ++ l'))
    (hn : (l ++ l').length ≤ 2 ^ 24) (hx : windowOf (l ++ l') ≤ 511) (hgrid : OnGrid (l ++ l')) : (g.merge b).1.Sums (l ++ l') := by
  obtain ⟨hsums, hcounts⟩ := ledgerOf_sums hc hn hx
  obtain ⟨hlo, hhi⟩ := hcounts.fits hn
  have hy : windowOf (l ++ l') = max g.x b.x := by rw [windowOf_append, hg.window, hb.window]
  set y := windowOf (l ++ l') with hydef
  obtain ⟨j, hj⟩ := hc.left.sumVal_whole fun p hp => hgrid p (List.mem_append_left _ hp)
  obtain ⟨k, hk⟩ := hc.right.sumVal_whole fun p hp => hgrid p (List.mem_append_right _ hp)
  have hgw : g.moved y = j := g.moved_exact (hy ▸ le_max_left ..) ((hg.exact hgrid.left).trans hj)
  have hbw : b.moved y = k := b.moved_exact (hy ▸ le_max_right ..) ((hb.exact hgrid.right).trans hk)
  have hsum : ((j + k : Int) : Rat) * pow2 y = sumVal (l ++ l') := by
    rw [sumVal_append, hj, hk]
    push_cast
    ring
  have hw : g.moved y + b.moved y = (ledgerOf (l ++ l')).w := by
    have h := (hsums.exact hgrid).trans hsum.symm
    rw [hsums.window] at h
    rw [hgw, hbw]
    exact_mod_cast (mul_right_cancel₀ (pow2_pos _).ne' h).symm
  have hlow : ∀ u, (∀ v ∈ lowJoin g.l b.l, u ≤ v) ↔ ∀ p ∈ l ++ l', u ≤ lowBit p := fun u => by
    rw [le_lowJoin, hg.low, hb.low]
    simp [or_imp, forall_and]
  have hbelow : (lowJoin g.l b.l).any (decide <| · < y) = false := by
    have hge := (hlow y).mpr hgrid
    cases hjoin : lowJoin g.l b.l with
    | none => rfl
    | some v => exact decide_eq_false (hge v hjoin).not_gt
  rw [Ledger.merge_of_fits hg.spec hb.spec hg.res hb.res hy hx (hw ▸ hlo) (hw ▸ hhi), hbelow, hg.inx.mpr hgrid.left, hb.inx.mpr hgrid.right]
  exact ⟨hg.spec, rfl, hlow, iff_of_true rfl hgrid, rfl, fun _ => by rw [hgw, hbw]; exact hsum⟩

/-- The words of two parts merge into the word of the whole (02 R57). -/
theorem merge_word_eq {l l' : List (Num × Nat)} (hc : Contributions (l ++ l')) (hn : (l ++ l').length ≤ 2 ^ 24) (hx : windowOf (l ++ l') ≤ 511)
    (hgrid : OnGrid (l ++ l')) : ((wordLedger (ledgerOf l).word).merge (wordLedger (ledgerOf l').word)).1.word = (ledgerOf (l ++ l')).word := by
  have hx' := max_le_iff.mp (windowOf_append l l' ▸ hx)
  rw [List.length_append] at hn
  have hl := wordLedger_sums hc.left (by omega) hx'.1 hgrid.left
  have hl' := wordLedger_sums hc.right (by omega) hx'.2 hgrid.right
  rw [← List.length_append] at hn
  exact (Ledger.merge_sums hl hl' hc hn hx hgrid).word_eq (ledgerOf_sums hc hn hx).1 hgrid

/-! ### Non-finite contributions (02 R52) -/

/-- The canonical NaN state, under any count. -/
def Ledger.IsNan (g : Ledger) : Prop := g = { Ledger.empty with spec := 3, cnt := g.cnt }

theorem Ledger.addNum_nan (g : Ledger) (z : Bool) (s : Nat) : (g.addNum (.nan z) s).1.IsNan := rfl

/-- A finite contribution to a ledger that is not finite is counted, if it is not zero, and no more. -/
theorem Ledger.addNum_fin_of_nonfinite {g : Ledger} (hg : g.spec ≠ 0) (z : Bool) (m : Rat) (s : Nat) :
    (g.addNum (.fin z m) s).1 = { g with cnt := if m = 0 then g.cnt else satInc 25 g.cnt } := by
  by_cases hm : m = 0 <;> simp [Ledger.addNum, hm, hg]

/-- Nothing leads out of NaN. -/
theorem Ledger.IsNan.addNum {g : Ledger} (hg : g.IsNan) (v : Num) (s : Nat) : (g.addNum v s).1.IsNan := by
  rw [hg]
  cases v with
  | nan z => exact Ledger.addNum_nan ..
  | inf z => cases z <;> rfl
  | fin z m =>
    rw [Ledger.addNum_fin_of_nonfinite (by simp)]
    rfl

theorem Ledger.IsNan.word {g : Ledger} (hg : g.IsNan) : g.word = ({ Ledger.empty with spec := 3 } : Ledger).word := by
  rw [hg]
  exact Ledger.word_of_cnt { Ledger.empty with spec := 3 } _

theorem ledgerOf_isNan {l : List (Num × Nat)} (h : ∃ p ∈ l, p.1.isNan = true) : (ledgerOf l).IsNan := by
  induction l using List.reverseRecOn with
  | nil => simp at h
  | append_singleton l q ih =>
    rw [ledgerOf_append_singleton]
    obtain ⟨p, hp, hnan⟩ := h
    rcases List.mem_append.mp hp with hp | hp
    · exact (ih ⟨p, hp, hnan⟩).addNum ..
    · obtain rfl := List.mem_singleton.mp hp
      obtain ⟨v, s⟩ := p
      cases v with
      | nan z => exact Ledger.addNum_nan ..
      | inf z => simp [Num.isNan] at hnan
      | fin z m => simp [Num.isNan] at hnan

/-! ### A cell of the array (02 R47, R53, R54) -/

@[simp] theorem Ledger.addNum_zero (g : Ledger) (z : Bool) (s : Nat) : g.addNum (.fin z 0) s = (g, 0) := by simp [Ledger.addNum]

/-- The products of a cell, each with its significand's width (02 R47). -/
def cellProducts (p : Pass) (west north : Feed) (i j : Nat) : List (Num × Nat) :=
  (List.range p.k).map fun k => ((west.elem i k).v.mul (north.elem j k).v, (west.elem i k).s + (north.elem j k).s)

/-- Products that are zero leave a ledger as it is. -/
theorem ledgerOf_filter_nonzero (l : List (Num × Nat)) :
    ledgerOf (l.filter fun q => decide (q.1 ≠ .fin false 0) && decide (q.1 ≠ .fin true 0)) = ledgerOf l := by
  unfold ledgerOf
  rw [List.foldl_filter]
  congr 1
  funext g q
  split
  · rfl
  · next h =>
    have hz : q.1 = .fin false 0 ∨ q.1 = .fin true 0 := by
      simpa [-not_and, not_and_or] using h
    rcases hz with hz | hz <;> rw [hz, Ledger.addNum_zero]

/-- A cell that begins empty ends with the ledger of its products. -/
theorem Pass.cell_ledger {p : Pass} {grid : Tbl Ledger} {i j : Nat} {west north : Feed} (hw : p.west = some west) (hn : p.north = some north)
    (hempty : tget Ledger.empty grid (p.at' i j) = Ledger.empty) : (p.cell grid i j).1 = ledgerOf (cellProducts p west north i j) := by
  unfold Pass.cell ledgerOf cellProducts
  rw [hw, hn, hempty, List.foldl_map]
  exact (List.foldl_hom Prod.fst (fun _ _ => rfl)).symm

theorem drainTo_spread (f : Nat) (r : Rnd) (sat : Bool) (v : Num) : (drainTo f r sat v).2.spread = 0 := by
  cases v with
  | nan z => rfl
  | inf z => rfl
  | fin z m =>
    simp only [drainTo]
    split
    · split <;> rfl
    · split <;> rfl

theorem Pass.drain_lx (p : Pass) (grid : Tbl Ledger) (i j : Nat) (h : mxpOut p.c = 3) :
    (p.drain grid i j).bits = (p.cell grid i j).1.word.toNat ∧ (p.drain grid i j).amax = 0 ∧
    (p.drain grid i j).cnts.spread = b2n (p.cell grid i j).1.inx := by
  simp [Pass.drain, h]

theorem Pass.drain_rounded (p : Pass) (grid : Tbl Ledger) (i j : Nat) (h : mxpOut p.c ≠ 3) :
    (p.drain grid i j).bits = (drainTo (mxpOut p.c) (srRnd (bit p.c.base 18) p.key (fld (p.c.x 1) 31 0 + i * mxpN p.c + j)) (bit p.c.base 17)
      ((p.cell grid i j).1.value p.scale)).1 ∧
    (p.drain grid i j).amax = (if (decodeElem (mxpOut p.c) (p.drain grid i j).bits).isFin then
      bits32 (decodeElem (mxpOut p.c) (p.drain grid i j).bits).abs else 0) ∧
    (p.drain grid i j).cnts.spread = b2n (p.cell grid i j).1.inx := by
  simp [Pass.drain, h, Cnts.add, drainTo_spread]

theorem Pass.drain_spread (p : Pass) (grid : Tbl Ledger) (i j : Nat) : (p.drain grid i j).cnts.spread = b2n (p.cell grid i j).1.inx := by
  by_cases h : mxpOut p.c = 3
  · exact (p.drain_lx grid i j h).2.2
  · exact (p.drain_rounded grid i j h).2.2

/-- Settles O60: the invariant of the ledger gives the sum and its order, reading a word back gives the merge, NaN absorbs, and a cell's
ledger is that of its products. -/
theorem ledgersAreExact : Obligations.LedgersAreExact := by
  unfold Obligations.LedgersAreExact
  refine ⟨fun l hc hn hx => ?_, fun l l' hc hn hx hgrid => merge_word_eq hc hn hx hgrid, fun l h => (ledgerOf_isNan h).word, ?_⟩
  · obtain ⟨hsums, hcounts⟩ := ledgerOf_sums hc hn hx
    refine ⟨hsums.spec, hsums.window, hcounts.cnt, by simp [Ledger.resErr, hsums.res], fun hgrid => ?_, fun hoff => ?_⟩
    · have hexact := hsums.exact hgrid
      refine ⟨hsums.inx.mpr hgrid, hexact, fun scale => ?_, fun l' h => ledgerOf_eq_of_perm h hc hn hx hgrid⟩
      simp only [Ledger.value, hsums.spec, hexact]
    · obtain ⟨p, hp, hlow⟩ := hoff
      have hgrid : ¬ OnGrid l := fun h => (h p hp).not_gt hlow
      exact ⟨by simpa using mt hsums.inx.mp hgrid, hcounts.below, hcounts.missedLess (List.ne_nil_of_mem hp)⟩
  · intro p grid i j west north hw hn hempty l g
    have hg : (p.cell grid i j).1 = g := (Pass.cell_ledger hw hn hempty).trans (ledgerOf_filter_nonzero _).symm
    rw [← hg]
    refine ⟨rfl, p.drain_spread grid i j, fun h => ?_, fun h => (p.drain_rounded grid i j h).2.1, fun h => (p.drain_rounded grid i j h).1⟩
    obtain ⟨hbits, hamax, -⟩ := p.drain_lx grid i j h
    exact ⟨hbits, hamax⟩

end Sys2Proof.Machine
end

section
/-!
PROOFS. The array's commands: TTF binds its descriptor to a free feed, MXP appends a pass, and each holds its word back while there is no
place for it (03 R61, R67, R73; 08 R222, R223).
-/

namespace Sys2Proof.Machine

/-- A slot field that names no slot, or one that may observe, passes the check unchanged (04 R83). -/
theorem State.bindCheck_bound (s : State) (slot : Nat)
    (h : ∀ n, (if slot = 0x7F then none else some slot) = some n → (s.trkAt n).bound = true ∧ (s.trkAt n).unav = false) :
    s.bindCheck slot = (s, if slot = 0x7F then none else some slot) := by
  by_cases hs : slot = 0x7F
  · simp [State.bindCheck, hs]
  · obtain ⟨hb, hu⟩ := h slot (if_neg hs)
    simp [State.bindCheck, hs, hb, hu]

@[simp] theorem State.began_trkAt (s : State) (st : Sid) (n : Nat) : (s.began st).trkAt n = s.trkAt n := by simp [State.trkAt]
@[simp] theorem State.began_feedAt (s : State) (st : Sid) (north : Bool) (n : Nat) : (s.began st).feedAt north n = s.feedAt north n := by
  simp [State.feedAt, State.feeds]

/-- A command that is not of class W leaves what it made. -/
theorem CmdSem.left_notW {m : CmdSem} (h : m.isW = notW) (st : Sid) (c : Slot) (s : State) (l : List RegWr) : m.left st c s l = s := by
  simp [CmdSem.left, h, notW]

/-- A command whose word does not issue in this ac: the wait that is not quiet shows in the stream's stall. -/
theorem issueRow_stall {s : State} {st : Sid} {c : Slot} {m : CmdSem} {k n : Nat} (h : Clear m s st c) (hk : k ≠ quietStall)
    (hr : m.run (s.began st) st c (s.loneLw st c) = .stall k n) :
    issueRow m st c s = .next (s.modStr st fun t => { t with stall := some (k, n) }) := by
  simp only [issueRow_clear h, hr, if_neg hk]

theorem runTtf_bound {s : State} {st : Sid} {c : Slot} (h : s.feedAt (bit c.base 45) (c.f 47 46) ≠ none) :
    runTtf s st c = .stall 5 (if bit c.base 45 then 10 else 9) := by
  rw [runTtf, if_pos (Option.isSome_iff_ne_none.mpr h)]
  cases bit c.base 45 <;> rfl

theorem runTtf_free {s : State} {st : Sid} {c : Slot} (h : s.feedAt (bit c.base 45) (c.f 47 46) = none)
    (ht : ∀ n, (if c.f 43 37 = 0x7F then none else some (c.f 43 37)) = some n → (s.trkAt n).bound = true ∧ (s.trkAt n).unav = false) :
    let b := ttfBsd (s.str st).regs c
    runTtf s st c = .ok (s.setFeed (bit c.base 45) (c.f 47 46) (some
      { c := c, a := (s.str st).a, scale := if b.ts = 1 then (s.str st).rdN b.tsn else 0x3F800000
        trk := if c.f 43 37 = 0x7F then none else some (c.f 43 37), cs := (s.csu st).tagNow, lw := s.here st, tiles := [], epar := [], told := false })) [] := by
  simp only [runTtf, h, Option.isSome_none, Bool.false_eq_true, if_false, s.bindCheck_bound _ ht]
  rfl

theorem runMxp_full {s : State} {st : Sid} {c : Slot} (h : 4 ≤ s.arr.waiting.length) : runMxp s st c = .stall 5 8 := if_pos h

theorem runMxp_place {s : State} {st : Sid} {c : Slot} (h : s.arr.waiting.length < 4)
    (ht : ∀ n, (if c.f 16 10 = 0x7F then none else some (c.f 16 10)) = some n → (s.trkAt n).bound = true ∧ (s.trkAt n).unav = false) :
    runMxp s st c = .ok { s with arr := { s.arr with
      passCnt := s.arr.passCnt + 1
      waiting := s.arr.waiting ++ [{
        c := c, k := mxpK (s.str st).regs c, initAddr := (mxpInitAddr (s.str st).regs c).toNat
        trk := if c.f 16 10 = 0x7F then none else some (c.f 16 10)
        cs := (s.csu st).tagNow, key := s.key 0, lw := s.here st, num := s.arr.passCnt + 1, west := none, north := none, init := []
        done := 0, sampled := false, qc := 0, qr := 0, calSect := none }] } } [] := by
  simp only [runMxp, ge_iff_le, if_neg (not_le.mpr h), s.bindCheck_bound _ ht]

theorem exec_ttf (st : Sid) (c0 : Slot) (s : State) : exec (.ttf st c0) s = issueRow ttfSem st (asOpc 0x30 c0) s := rfl
theorem exec_mxp (st : Sid) (c0 : Slot) (s : State) : exec (.mxp st c0) s = issueRow mxpSem st (asOpc 0x31 c0) s := rfl

/-- Settles O36: by whether the feed is free, and whether a place of the four is left. -/
theorem turntableAndMatrixCommands : Obligations.TurntableAndMatrixCommands := by
  unfold Obligations.TurntableAndMatrixCommands
  intro s c0
  refine ⟨fun hclear => ⟨fun hfree htrk => ?_, fun hbound => ?_⟩, fun hclear => ⟨fun hplace htrk => ?_, fun hfull => ?_⟩⟩
  · rw [exec_ttf, issueRow_ok hclear (runTtf_free (by simpa using hfree) (by simpa using htrk)), CmdSem.left_notW rfl]
    rfl
  · rw [exec_ttf, issueRow_stall hclear (by decide) (runTtf_bound (by simpa using hbound))]
  · rw [exec_mxp, issueRow_ok hclear (runMxp_place (by simpa using hplace) (by simpa using htrk)), CmdSem.left_notW rfl]
    rfl
  · rw [exec_mxp, issueRow_stall hclear (by decide) (runMxp_full (by simpa using hfull))]

end Sys2Proof.Machine
end

section
/-!
PROOFS. The initial values of a pass wider than the array (03 R59, R62, R68): cell (i, j) of the 128 columns has number 128 i + j, so the
cell past a row's end is the first of the next row, and one ledger cannot hold the values of both.
-/

namespace Sys2Proof.Machine

/-- A waiting pass of 2 rows and 129 columns with the column of FP32 words at address 0 as its initial values. No MXP issues with
129 columns (R62, Table 3-5); the statement speaks of every waiting pass, and nothing in it bounds N. -/
def widePass : Pass :=
  { c := ⟨0, 0, BitVec.ofNat 64 (2 * 2 ^ 36 + 129 * 2 ^ 28 + 1 * 2 ^ 21), []⟩, k := 0, initAddr := 0, trk := none, cs := none, key := Key.zero
    lw := 0, num := 1, west := none, north := none, init := [], done := 0, sampled := false, qc := 0, qr := 0, calSect := none }

/-- A feed without a tile, as an empty pass takes it. -/
def bareFeed : Feed := { c := ⟨0, 0, 0, []⟩, a := [], scale := 0, trk := none, cs := none, lw := 0, tiles := [], epar := [], told := false }

/-- The pass stands before its begin: both its feeds hold a descriptor, the governor grants all, and the column is 1.0, then 0. -/
def wideState : State :=
  { State.reset with
    csr := tset 0 State.reset.csr 0x6008 0xFF00
    spm := ⟨[(2, 0x80), (3, 0x3F)], [], [], []⟩
    arr := { State.reset.arr with west := [(0, some bareFeed)], north := [(0, some bareFeed)], waiting := [widePass] } }

theorem wideState_mayBegin : wideState.mayBegin 0 widePass = true := by decide +kernel

/-- No word of the column is in error: no word of the scratchpad is. -/
theorem wideState_good (k : Nat) : wideState.spm.eccW k = .good := rfl

/-- The cell past the first row's end is the first of the second row, and the model loads the second row's 0 there last. -/
theorem passBegin_wideState : ∃ t, exec (.passBegin 0) wideState = .next t ∧
    tget Ledger.empty t.arr.live (widePass.at' 0 128) = Ledger.empty := ⟨_, rfl, by decide +kernel⟩

/-- The word 1.0 that the column holds for row 0 is a contribution. -/
theorem ledgerOf_one_ne_empty : ledgerOf [(decodeElem 0 0x3F800000, 24)] ≠ Ledger.empty := by decide +kernel

/-- Refutes O40: a pass of 129 columns with a column of initial values, 1.0 for row 0 and 0 for row 1. The ledger of cell (0, 128), which
should hold the 1.0, is that of cell (1, 0) too, and is empty. -/
theorem not_passesTilesAndEntries : ¬ Obligations.PassesTilesAndEntries := by
  unfold Obligations.PassesTilesAndEntries
  rintro ⟨-, hinit, -⟩
  obtain ⟨t, ht, -, hcells⟩ := hinit wideState 0 widePass [] rfl (by decide) wideState_mayBegin rfl (fun k _ => wideState_good k) rfl rfl
  obtain ⟨-, hcolumn, -⟩ := hcells 0 128 (by decide) (by decide)
  have hone : tget Ledger.empty t.arr.live (widePass.at' 0 128) = ledgerOf [(decodeElem 0 0x3F800000, 24)] := hcolumn (by decide)
  obtain ⟨u, hu, hempty⟩ := passBegin_wideState
  obtain rfl : t = u := Host.Outcome.next.inj (ht.symm.trans hu)
  exact ledgerOf_one_ne_empty (hone.symm.trans hempty)

end Sys2Proof.Machine
end

section
/-!
PROOFS. What an abort leaves alone: however far it goes, it changes no tracker and takes no event back, and but for the rollback's own step
it leaves the verdict on each consist (11 R286, R287, R299).
-/

namespace Sys2Proof.Machine

/-! ### Operations that take no event back -/

/-- From `s` to `t` no tracker changes and no event that pends is taken back. -/
structure State.Keeps (s t : State) : Prop where
  trk : t.trk = s.trk
  pend : ∀ i, s.rb 0x100 i = true → t.rb 0x100 i = true

/-- What an abort decides about a consist: its state, the latched reason and its detail. -/
def Csu.verdict (c : Csu) : CsState × Nat × Nat := (c.st, c.code, c.detail)

theorem Csu.verdict_eq {c : Csu} {st : CsState} {code detail : Nat} :
    c.verdict = (st, code, detail) ↔ c.st = st ∧ c.code = code ∧ c.detail = detail := by simp [Csu.verdict]

/-- Nor is the verdict on a consist another. -/
structure State.Steady (s t : State) : Prop extends State.Keeps s t where
  verdict : ∀ st, (t.csu st).verdict = (s.csu st).verdict

theorem State.Keeps.refl (s : State) : State.Keeps s s := ⟨rfl, fun _ h => h⟩
theorem State.Keeps.trans {s t u : State} (h : s.Keeps t) (h' : t.Keeps u) : s.Keeps u :=
  ⟨h'.trk.trans h.trk, fun i hi => h'.pend i (h.pend i hi)⟩
theorem State.Steady.refl (s : State) : State.Steady s s := ⟨.refl s, fun _ => rfl⟩
theorem State.Steady.trans {s t u : State} (h : s.Steady t) (h' : t.Steady u) : s.Steady u :=
  ⟨h.toKeeps.trans h'.toKeeps, fun st => (h'.verdict st).trans (h.verdict st)⟩

/-- Steps that are steady one by one are steady together. -/
theorem State.Steady.foldl {α : Type} {f : State → α → State} (hf : ∀ (s : State) x, s.Steady (f s x)) (l : List α) (s : State) :
    s.Steady (l.foldl f s) := by
  induction l generalizing s with
  | nil => exact .refl s
  | cons x l ih => exact (hf s x).trans (ih (f s x))

/-- An update of other parts of the state. -/
theorem State.Steady.of_eq {s t : State} (htrk : t.trk = s.trk) (hcsr : t.csr = s.csr) (hA : t.cA = s.cA) (hX : t.cX = s.cX) : s.Steady t :=
  ⟨⟨htrk, fun i h => by simpa only [State.rb, State.rd, hcsr] using h⟩, fun st => by cases st <;> simp only [State.csu, hA, hX]⟩

theorem State.steady_wr (s : State) {off : Nat} (h : off ≠ 0x100) (v : W64) : s.Steady (s.wr off v) :=
  ⟨⟨rfl, fun i hi => by rwa [State.rb, State.rd_wr, if_neg h]⟩, fun st => by cases st <;> rfl⟩

theorem State.steady_setRf (s : State) {off : Nat} (h : off ≠ 0x100) (hi lo v : Nat) : s.Steady (s.setRf off hi lo v) := s.steady_wr h _
theorem State.steady_incRf (s : State) {off : Nat} (h : off ≠ 0x100) (hi lo : Nat) : s.Steady (s.incRf off hi lo) := s.steady_wr h _

theorem State.rb_modCsu (s : State) (st : Sid) (f : Csu → Csu) (off i : Nat) : (s.modCsu st f).rb off i = s.rb off i := by
  simp [State.rb, State.rd]

theorem State.keeps_modCsu (s : State) (st : Sid) (f : Csu → Csu) : s.Keeps (s.modCsu st f) := ⟨s.modCsu_trk st f, fun i => by simp [State.rb_modCsu]⟩

theorem State.steady_modCsu (s : State) (st : Sid) {f : Csu → Csu} (h : ∀ c, (f c).verdict = c.verdict) : s.Steady (s.modCsu st f) where
  toKeeps := s.keeps_modCsu st f
  verdict u := by
    by_cases hu : u = st
    · subst hu
      rw [State.csu_modCsu_same, h]
    · have : u = otherSid st := by revert hu; cases u <;> cases st <;> simp [otherSid]
      rw [this, State.csu_modCsu_other]

/-- Raising sets the source's bit and no other. -/
theorem State.rb_raise (s : State) (src : Nat) {i : Nat} (hi : i < 64) : (s.raise src).rb 0x100 i = (decide (i = src) || s.rb 0x100 i) := by
  have hr : (s.raise src).rd 0x100 = putFld (s.rd 0x100) src src 1 := by
    unfold State.raise
    dsimp only
    split <;> exact (s.rd_wr ..).trans (if_pos rfl)
  rw [State.rb, hr, State.rb, bit_putFld _ _ le_rfl hi]
  by_cases he : i = src
  · simp [he]
  · rw [if_neg (by omega)]
    simp [he]

theorem State.rb_eq_false (s : State) (off : Nat) {i : Nat} (hi : 64 ≤ i) : s.rb off i = false := by simp [State.rb, bit, hi]

theorem State.steady_raise (s : State) (src : Nat) : s.Steady (s.raise src) where
  trk := s.raise_trk src
  pend i h := by
    by_cases hi : i < 64
    · simp [s.rb_raise src hi, h]
    · simp [s.rb_eq_false 0x100 (not_lt.mp hi)] at h
  verdict st := by cases st <;> simp [State.csu]

theorem State.rb_raise_same (s : State) {src : Nat} (h : src < 64) : (s.raise src).rb 0x100 src = true := by simp [s.rb_raise src h]

theorem State.steady_raiseCause (s : State) (src cause : Nat) : s.Steady (s.raiseCause src cause) :=
  (s.steady_raise src).trans (State.steady_setRf _ (by decide) ..)

/-! ### Records and counts -/

theorem State.steady_faultPut (s : State) {i : Nat} (h : i < 16) (w loc : W64) : s.Steady (s.faultPut i w loc) :=
  (((s.steady_wr (by omega) _).trans (State.steady_wr _ (by omega) _)).trans (State.steady_wr _ (by omega) _)).trans (State.steady_wr _ (by omega) _)

theorem State.steady_faultLog (s : State) (w loc : W64) : s.Steady (s.faultLog w loc) := by
  unfold State.faultLog
  dsimp only
  split
  · exact s.steady_incRf (by decide) ..
  · exact ((s.steady_faultPut (Nat.mod_lt _ (by decide)) w loc).trans (State.steady_setRf _ (by decide) ..)).trans (State.steady_raise ..)

theorem State.steady_fault (s : State) (unit kind : Nat) (who : Option (Sid × W16)) (loc : Nat) : s.Steady (s.fault unit kind who loc) :=
  s.steady_faultLog ..

theorem State.steady_noteUncorr (s : State) (who : Option (Sid × W16)) (a : Nat) : s.Steady (s.noteUncorr who a) := by
  have : s.Steady (s.noteAddr a) := by
    unfold State.noteAddr
    split
    · exact .refl s
    · exact s.steady_wr (by decide) _
  exact this.trans (State.steady_fault ..)

theorem State.steady_dirty (s : State) (fab : Bool) (a n : Nat) : s.Steady (s.dirty fab a n) := by
  unfold State.dirty
  dsimp only
  split
  · exact .refl s
  · exact .of_eq rfl rfl rfl rfl

theorem State.steady_poke (s : State) (a : Nat) (bs : List Byte) (poison : Bool) : s.Steady (s.poke a bs poison) :=
  .trans (t := { s with spm := s.spm.poke a bs poison }) (.of_eq rfl rfl rfl rfl) (State.steady_dirty ..)

theorem State.steady_bankCount (s : State) (w : Nat) : s.Steady (s.bankCount w) := by
  unfold State.bankCount
  dsimp only
  have hcount := s.steady_setRf (off := 0x180 + 8 * (w / 16 % 32 / 2)) (by omega)
  split
  · have hraise := fun hi lo v => (hcount hi lo v).trans (State.steady_raise _ evEccThreshold)
    split
    · split
      · exact hraise ..
      · exact (hraise ..).trans ((State.steady_setRf _ (by decide) ..).trans (State.steady_raiseCause ..))
    · exact hraise ..
  · exact hcount ..

theorem State.steady_touch (s : State) (a n : Nat) : s.Steady (s.touch a n) := by
  refine State.Steady.foldl (fun s w => ?_) _ s
  split
  · exact (s.steady_bankCount w).trans (.of_eq rfl rfl rfl rfl)
  · exact .refl s

theorem State.steady_stallOn (s : State) (who a : Nat) (p : Nat × Nat) : s.Steady (s.stallOn who a p) := by
  have hurry : s.Steady (s.hurry p) := by
    unfold State.hurry
    split
    · exact .refl s
    · exact .of_eq rfl rfl rfl rfl
  unfold State.stallOn
  dsimp only
  split
  · exact hurry
  · exact hurry.trans (.trans (t := { s.hurry p with cke := { (s.hurry p).cke with stalls := (s.hurry p).cke.stalls ++ [(who, a)] } })
      (.of_eq rfl rfl rfl rfl) (State.steady_incRf _ (by decide) ..))

/-! ### The parts of a rollback -/

theorem State.steady_untagged (s : State) (side : Option Sid) (a : Nat) (bs : List Byte) (poison : Bool) : s.Steady (s.untagged side a bs poison) := by
  unfold State.untagged
  dsimp only
  split
  · split
    · exact ((s.steady_poke ..).trans (State.steady_incRf _ (by decide) ..)).trans (State.steady_raise ..)
    · exact .refl s
  · split
    · split
      · exact s.steady_poke ..
      · split
        · exact s.steady_modCsu _ fun _ => by rfl
        · split
          · exact (s.steady_poke ..).trans (State.steady_poke ..)
          · exact s.steady_poke ..
    · exact s.steady_poke ..

theorem State.steady_flushWaiting (s : State) (st : Sid) : s.Steady (s.flushWaiting st) := by
  refine (s.steady_modCsu st fun _ => by rfl).trans (State.Steady.foldl (fun s w => ?_) _ _)
  split
  · exact (s.steady_stallOn ..).trans (State.steady_modCsu _ st fun _ => by rfl)
  · exact s.steady_untagged ..

theorem State.steady_restoreLog (s : State) (st : Sid) : s.Steady (s.restoreLog st) := by
  unfold State.restoreLog
  dsimp only
  refine (State.Steady.foldl (fun s w => ?_) _ s).trans (State.steady_modCsu _ st fun _ => rfl)
  split
  · exact (s.steady_noteUncorr ..).trans (State.steady_poke ..)
  · exact (s.steady_touch ..).trans (State.steady_poke ..)

theorem State.steady_lastAbort (s : State) (st : Sid) : s.Steady (s.lastAbort st) := s.steady_wr (by cases st <;> decide) _

theorem State.steady_dropHeld (s : State) (st : Sid) : s.Steady (s.dropHeld st) := by
  have hforget := s.steady_modCsu st (f := fun c => { c with held := [] }) fun _ => rfl
  unfold State.dropHeld
  dsimp only
  split
  · exact hforget.trans (.of_eq rfl rfl rfl rfl)
  · exact hforget

/-- A rollback enters the next state and keeps all else of the verdict. -/
theorem State.rollBack_steps (s : State) (st : Sid) (next : CsState) :
    ∃ u, s.Steady u ∧ State.Steady (u.modCsu st fun c => { c with st := next, due := none }) (s.rollBack st next) :=
  ⟨_, ((s.steady_dropHeld st).trans (State.steady_restoreLog ..)).trans (State.steady_lastAbort ..), State.steady_flushWaiting ..⟩

theorem State.keeps_rollBack (s : State) (st : Sid) (next : CsState) : s.Keeps (s.rollBack st next) := by
  obtain ⟨u, hu, hr⟩ := s.rollBack_steps st next
  exact hu.toKeeps.trans ((u.keeps_modCsu st _).trans hr.toKeeps)

theorem State.rollBack_verdict (s : State) (st : Sid) (next : CsState) :
    ((s.rollBack st next).csu st).verdict = (next, (s.csu st).code, (s.csu st).detail) := by
  obtain ⟨u, hu, hr⟩ := s.rollBack_steps st next
  have hrest : ((u.csu st).code, (u.csu st).detail) = ((s.csu st).code, (s.csu st).detail) := congrArg Prod.snd (hu.verdict st)
  rw [hr.verdict, State.csu_modCsu_same, ← hrest]
  rfl

theorem State.keeps_rollBackDue (s : State) (st : Sid) (next : CsState) : s.Keeps (s.rollBackDue st next) := by
  unfold State.rollBackDue
  split
  · exact s.keeps_modCsu ..
  · exact s.keeps_rollBack ..

/-! ### Aborts -/

theorem State.keeps_latchAbort (s : State) (st : Sid) (code detail : Nat) : s.Keeps (s.latchAbort st code detail) := by
  have latched : s.Keeps ((s.modCsu st fun c => { c with code := code, detail := detail }).raise evConsistAbort) :=
    (s.keeps_modCsu ..).trans (State.steady_raise ..).toKeeps
  unfold State.latchAbort
  dsimp only
  split
  · exact .refl s
  · split
    · exact latched.trans (State.keeps_rollBackDue ..)
    · split
      · split
        · exact latched.trans ⟨rfl, fun _ h => h⟩
        · exact latched
      · exact latched.trans (State.keeps_rollBackDue ..)
    · exact .refl s

theorem State.keeps_abortIf (s : State) (st : Sid) (cs : Option Nat) (code detail : Nat) : s.Keeps (s.abortIf st cs code detail) := by
  have habort : s.Keeps (s.abort st code detail) := by
    unfold State.abort
    dsimp only
    split
    · split
      · exact s.keeps_modCsu ..
      · exact .refl s
    · exact s.keeps_latchAbort ..
  unfold State.abortIf
  split
  · split
    · exact habort
    · exact .refl s
  · exact .refl s

theorem State.cstate_modCsu (s : State) (st : Sid) (f : Csu → Csu) : (s.modCsu st f).cstate = s.cstate := by simp [State.cstate, State.rf, State.rd]

theorem State.rd_raise_other (s : State) (src : Nat) {off : Nat} (h : off ≠ 0x100) : (s.raise src).rd off = s.rd off := by
  unfold State.raise
  dsimp only
  split <;> exact (s.rd_wr ..).trans (if_neg h.symm)

theorem State.cstate_raise (s : State) (src : Nat) : (s.raise src).cstate = s.cstate := by
  simp only [State.cstate, State.rf, s.rd_raise_other src (by decide : (0x1808 : Nat) ≠ 0x100)]

/-- The first reason dooms an open consist at once, outside a beat and a checkpoint stop (11 R286, R287, Table 11-8). -/
theorem State.abortIf_dooms {s : State} {st : Sid} {id : Nat} (code detail : Nat) (hopen : (s.csu st).st = .opened) (hid : (s.csu st).id = id)
    (hcode : (s.csu st).code = 0) (hbeat : (s.csu st).beat = false) (hstop : s.cstate ≠ 1) :
    ((s.abortIf st (some id) code detail).csu st).verdict = (.doomed, code, detail) := by
  have howns : ownsWrites (s.csu st) id = true := by simp [ownsWrites, hid, hopen]
  simp only [State.abortIf, howns, State.abort, hbeat, State.latchAbort, hcode, hopen, State.rollBackDue, State.cstate_raise, State.cstate_modCsu, hstop,
    if_true, if_false, ne_eq, not_true, Bool.false_eq_true, State.rollBack_verdict]
  cases st <;> simp [State.csu, State.modCsu]

end Sys2Proof.Machine
end

section
/-!
PROOFS. The trackers' shared operations: the parity check, the trip, and the merge of one unit of observations (04 R86, R92 to R95, R99).
-/

namespace Sys2Proof.Machine

/-! ### Slots of the table -/

@[simp] theorem State.trkAt_modTrk_same (s : State) (n : Nat) (f : Trk → Trk) : (s.modTrk n f).trkAt n = f (s.trkAt n) :=
  (tget_tset ..).trans (if_pos rfl)

theorem State.trkAt_modTrk_other (s : State) {n j : Nat} (h : j ≠ n) (f : Trk → Trk) : (s.modTrk n f).trkAt j = s.trkAt j :=
  (tget_tset ..).trans (if_neg h.symm)

/-- Only the slot's own value counts for a change of it. -/
theorem State.modTrk_congr (s : State) {n : Nat} {f g : Trk → Trk} (h : f (s.trkAt n) = g (s.trkAt n)) : s.modTrk n f = s.modTrk n g := by
  simp only [State.modTrk, tmod]
  rw [← State.trkAt, h]

theorem State.Keeps.trkAt {s t : State} (h : s.Keeps t) (n : Nat) : t.trkAt n = s.trkAt n := by rw [State.trkAt, State.trkAt, h.trk]

/-! ### Trips and parity errors -/

/-- A trip sets the slot's TRIPPED and raises NUMERIC_TRIP; the abort that follows changes no tracker (04 R95). -/
theorem State.trip_steps (s : State) (n : Nat) (cs : Option Nat) :
    State.Keeps ((s.modTrk n fun t => { t with tripped := true }).raise evNumericTrip) (s.trip n cs) := State.keeps_abortIf ..

theorem State.trk_trip (s : State) (n : Nat) (cs : Option Nat) : (s.trip n cs).trk = (s.modTrk n fun t => { t with tripped := true }).trk :=
  (s.trip_steps n cs).trk.trans (State.raise_trk ..)

theorem State.trkAt_trip_same (s : State) (n : Nat) (cs : Option Nat) : (s.trip n cs).trkAt n = { s.trkAt n with tripped := true } := by
  rw [State.trkAt, s.trk_trip, ← State.trkAt, State.trkAt_modTrk_same]

theorem State.trkAt_trip_other (s : State) {n j : Nat} (h : j ≠ n) (cs : Option Nat) : (s.trip n cs).trkAt j = s.trkAt j := by
  rw [State.trkAt, s.trk_trip, ← State.trkAt, s.trkAt_modTrk_other h]

theorem State.rb_trip (s : State) (n : Nat) (cs : Option Nat) : (s.trip n cs).rb 0x100 evNumericTrip = true :=
  (s.trip_steps n cs).pend _ (State.rb_raise_same _ (by decide))

theorem State.trip_pend (s : State) (n : Nat) (cs : Option Nat) {i : Nat} (h : s.rb 0x100 i = true) : (s.trip n cs).rb 0x100 i = true :=
  (s.trip_steps n cs).pend i ((State.steady_raise _ _).pend i h)

theorem bitmapBase_ge (cls : Nat) : 0x5020 ≤ bitmapBase cls := by unfold bitmapBase; split <;> decide
theorem entryBase_ge (cls : Nat) : 0x5100 ≤ entryBase cls := by unfold entryBase; split <;> decide

theorem State.steady_setMark (s : State) (cls u : Nat) : s.Steady (s.setMark cls u) := by
  have := bitmapBase_ge cls
  have := entryBase_ge cls
  unfold State.setMark
  split
  · exact .refl s
  · split
    · exact (s.steady_setRf (by omega) ..).trans (State.steady_raiseCause ..)
    · split
      · exact ((s.steady_setRf (by omega) ..).trans (State.steady_setRf _ (by omega) ..)).trans (State.steady_raiseCause ..)
      · exact s.steady_setRf (by decide) ..

theorem State.steady_wearParity (s : State) (cls u : Nat) : s.Steady (s.wearParity cls u) := by
  have hcount : s.Steady (s.modWear cls u fun w => { w with count := satInc 16 w.count }) := .of_eq rfl rfl rfl rfl
  unfold State.wearParity State.markUnit
  dsimp only
  split
  · split
    · exact hcount
    · exact hcount.trans (State.steady_setMark ..)
  · exact hcount

/-- A sound slot passes its parity check. -/
theorem State.trkParity_good {s : State} {n : Nat} (h : (s.trkAt n).bad = false) (cs : Option Nat) : s.trkParity n cs = s := by
  simp [State.trkParity, h]

/-- A flipped bit: PERR is marked, the error is recorded and counted against the physical slot, and the slot trips (04 R99). -/
theorem State.trkParity_bad {s : State} {n : Nat} (h : (s.trkAt n).bad = true) (cs : Option Nat) :
    ∃ u, State.Keeps ((s.modTrk n fun t => { t with bad := false, perr := true }).fault 0x08 3 none n |>.raiseCause evStateParity 2) u ∧
      s.trkParity n cs = u.trip n cs := by
  simp only [State.trkParity, h, Bool.not_true, Bool.false_eq_true, if_false]
  split
  · exact ⟨_, (State.steady_wearParity ..).toKeeps, rfl⟩
  · exact ⟨_, .refl _, rfl⟩

theorem State.trkParity_marks {s : State} {n : Nat} (h : (s.trkAt n).bad = true) (cs : Option Nat) :
    (s.trkParity n cs).trkAt n = { s.trkAt n with bad := false, perr := true, tripped := true } ∧
      (s.trkParity n cs).rb 0x100 evStateParity = true ∧ (s.trkParity n cs).rb 0x100 evNumericTrip = true := by
  obtain ⟨u, hu, hp⟩ := State.trkParity_bad h cs
  have hslot : u.trkAt n = { s.trkAt n with bad := false, perr := true } := by
    rw [hu.trkAt, (State.steady_raiseCause ..).trkAt, (State.steady_fault ..).trkAt, State.trkAt_modTrk_same]
  have hevent : u.rb 0x100 evStateParity = true :=
    hu.pend _ ((State.steady_setRf _ (by decide) ..).pend _ (State.rb_raise_same _ (by decide)))
  rw [hp]
  exact ⟨by rw [State.trkAt_trip_same, hslot], u.trip_pend n cs hevent, u.rb_trip n cs⟩

/-! ### One unit of observations into a slot -/

/-- A slot after one unit of observations: the larger amax, every count added up and saturated (04 R86, R92). -/
def Trk.observe (t : Trk) (amax : W32) (c : Cnts) (elems : Nat) : Trk :=
  { t with
    amax := if t.amax.toNat < amax.toNat then amax else t.amax
    has := true
    ep := [min (2 ^ 24 - 1) (t.ep.getD 0 0 + c.spread), min (2 ^ 24 - 1) (t.ep.getD 1 0 + c.flush), min (2 ^ 24 - 1) (t.ep.getD 2 0 + elems)]
    cnt := (List.range 5).map fun i => min (2 ^ 48 - 1) (t.cnt.getD i 0 + c.toList.getD i 0)
    sat := (List.range 5).map fun i => t.sat.getD i false || decide (2 ^ 48 - 1 < t.cnt.getD i 0 + c.toList.getD i 0) }

/-- Do the excursions or the non-finites of the last unit trip the slot that has observed it (04 R95)? -/
def Trk.tripsOn (t : Trk) (c : Cnts) : Bool :=
  (c.spread > 0 && decide (t.ep.getD 0 0 > fld t.scfg 49 34) && fld t.scfg 49 34 ≠ 0xFFFF) || (c.nonfin > 0 && bit t.scfg 25)

theorem Trk.tripsOn_observe (t : Trk) (amax : W32) (c : Cnts) (elems : Nat) :
    (t.observe amax c elems).tripsOn c = true ↔
      (0 < c.spread ∧ fld t.scfg 49 34 < min (2 ^ 24 - 1) (t.ep.getD 0 0 + c.spread) ∧ fld t.scfg 49 34 ≠ 0xFFFF) ∨
        (0 < c.nonfin ∧ bit t.scfg 25 = true) := by
  simp [Trk.tripsOn, Trk.observe, and_assoc]

/-- The counts after a unit, each with whether it saturated. -/
def Trk.sums (t : Trk) (c : Cnts) : List (Nat × Bool) := (t.cnt.zip c.toList).map fun p => satAdd48 p.1 p.2

theorem exists_of_length_eq_five {α : Type} {l : List α} (h : l.length = 5) : ∃ a b c d e, l = [a, b, c, d, e] := by
  match l, h with
  | [a, b, c, d, e], _ => exact ⟨a, b, c, d, e, rfl⟩

/-- `observe` is what the model's merge makes of the slot, where its counts and SAT bits are five. -/
theorem Trk.observe_eq {t : Trk} (hcnt : t.cnt.length = 5) (hsat : t.sat.length = 5) (amax : W32) (c : Cnts) (elems : Nat) :
    t.observe amax c elems = { t with
      amax := maxBits t.amax amax, has := true, cnt := (t.sums c).map Prod.fst, sat := (t.sat.zip (t.sums c)).map fun p => p.1 || p.2.2
      ep := [satInc 24 (t.ep.getD 0 0) c.spread, satInc 24 (t.ep.getD 1 0) c.flush, satInc 24 (t.ep.getD 2 0) elems] } := by
  obtain ⟨k0, k1, k2, k3, k4, hk⟩ := exists_of_length_eq_five hcnt
  obtain ⟨b0, b1, b2, b3, b4, hb⟩ := exists_of_length_eq_five hsat
  simp [Trk.observe, Trk.sums, hk, hb, Cnts.toList, satAdd48, satInc, maxBits, List.range_succ]

/-- A slot of the state observes a unit; a count that saturates now raises TRK_SAT. -/
def State.observed (s : State) (n : Nat) (amax : W32) (c : Cnts) (elems : Nat) : State :=
  let u := s.modTrk n (Trk.observe · amax c elems)
  if (((s.trkAt n).sums c).zip (s.trkAt n).sat).any fun p => p.1.2 && !p.2 then u.raise evTrkSat else u

theorem State.observed_steps (s : State) (n : Nat) (amax : W32) (c : Cnts) (elems : Nat) :
    State.Steady (s.modTrk n (Trk.observe · amax c elems)) (s.observed n amax c elems) := by
  unfold State.observed
  dsimp only
  split
  · exact State.steady_raise ..
  · exact .refl _

/-- A merge into a sound slot: it observes the unit, and trips where it must. -/
theorem State.merge_slot {s : State} {n : Nat} (hbad : (s.trkAt n).bad = false) (hcnt : (s.trkAt n).cnt.length = 5) (hsat : (s.trkAt n).sat.length = 5)
    (cs : Option Nat) (amax : W32) (c : Cnts) (elems : Nat) :
    s.merge (some n) cs amax c elems =
      if ((s.trkAt n).observe amax c elems).tripsOn c then (s.observed n amax c elems).trip n cs else s.observed n amax c elems := by
  have hmod : (s.modTrk n fun t => { t with
      amax := maxBits t.amax amax, has := true, cnt := ((s.trkAt n).sums c).map Prod.fst
      sat := (t.sat.zip ((s.trkAt n).sums c)).map fun p => p.1 || p.2.2
      ep := [satInc 24 (t.ep.getD 0 0) c.spread, satInc 24 (t.ep.getD 1 0) c.flush, satInc 24 (t.ep.getD 2 0) elems] }) =
        s.modTrk n (Trk.observe · amax c elems) := s.modTrk_congr (Trk.observe_eq hcnt hsat amax c elems).symm
  have hslot : (s.observed n amax c elems).trkAt n = (s.trkAt n).observe amax c elems := by
    rw [(s.observed_steps n amax c elems).trkAt, State.trkAt_modTrk_same]
  rw [← hslot, State.observed, ← hmod, State.merge, State.trkParity_good hbad]
  rfl

/-! ### What observations leave alone -/

/-- Everything but the trackers, the window and the packets to come is as before. -/
def onlyTrackers (s t : State) : Prop := t = { s with trk := t.trk, csr := t.csr, ring := t.ring }

theorem onlyTrackers.trans {s t u : State} (h : onlyTrackers s t) (h' : onlyTrackers t u) : onlyTrackers s u := by
  rw [onlyTrackers] at *
  rw [h', h]

theorem State.onlyTrackers_modTrk (s : State) (n : Nat) (f : Trk → Trk) : onlyTrackers s (s.modTrk n f) := rfl
theorem State.onlyTrackers_setRf (s : State) (off hi lo v : Nat) : onlyTrackers s (s.setRf off hi lo v) := rfl

theorem State.onlyTrackers_raise (s : State) (src : Nat) : onlyTrackers s (s.raise src) := by
  unfold State.raise
  dsimp only
  split <;> rfl

theorem State.onlyTrackers_numcAdd (s : State) (i k : Nat) : onlyTrackers s (s.numcAdd i k) := by
  unfold State.numcAdd
  dsimp only
  split
  · rfl
  · split
    · exact (s.onlyTrackers_setRf ..).trans ((State.onlyTrackers_setRf ..).trans (State.onlyTrackers_raise ..))
    · exact s.onlyTrackers_setRf ..

theorem State.onlyTrackers_observed (s : State) (n : Nat) (amax : W32) (c : Cnts) (elems : Nat) : onlyTrackers s (s.observed n amax c elems) := by
  unfold State.observed
  dsimp only
  split
  · exact (s.onlyTrackers_modTrk ..).trans (State.onlyTrackers_raise ..)
  · exact s.onlyTrackers_modTrk ..

theorem onlyTrackers.consists {s t : State} (h : onlyTrackers s t) : t.cA = s.cA ∧ t.cX = s.cX := by
  rw [onlyTrackers] at h
  rw [h]
  exact ⟨rfl, rfl⟩

theorem onlyTrackers.sameSpm {s t : State} (h : onlyTrackers s t) : sameSpm s t := by
  rw [onlyTrackers] at h
  rw [Machine.sameSpm, h]

theorem onlyTrackers.streams {s t : State} (h : onlyTrackers s t) : t.sA = s.sA ∧ t.sX = s.sX := by
  rw [onlyTrackers] at h
  rw [h]
  exact ⟨rfl, rfl⟩

theorem State.cstate_observed (s : State) (n : Nat) (amax : W32) (c : Cnts) (elems : Nat) : (s.observed n amax c elems).cstate = s.cstate := by
  unfold State.observed
  dsimp only
  split
  · exact State.cstate_raise ..
  · rfl

/-- A trip dooms the open consist that its command was issued in (04 R95, 11 R286). -/
theorem State.trip_dooms {s : State} {id : Nat} (n : Nat) (hopen : s.cX.st = .opened) (hid : s.cX.id = id) (hcode : s.cX.code = 0)
    (hbeat : s.cX.beat = false) (hstop : s.cstate ≠ 1) : (s.trip n (some id)).cX.verdict = (.doomed, 5, n) := by
  have hX : ((s.modTrk n fun t => { t with tripped := true }).raise evNumericTrip).csu .x = s.cX := State.raise_cX ..
  have hcstate : ((s.modTrk n fun t => { t with tripped := true }).raise evNumericTrip).cstate = s.cstate := State.cstate_raise ..
  exact State.abortIf_dooms (st := .x) 5 n (hX ▸ hopen) (hX ▸ hid) (hX ▸ hcode) (hX ▸ hbeat) (hcstate ▸ hstop)

/-- Outside a consist a trip stays with its slot. -/
theorem State.onlyTrackers_trip_none (s : State) (n : Nat) : onlyTrackers s (s.trip n none) :=
  (s.onlyTrackers_modTrk n _).trans (State.onlyTrackers_raise ..)

/-! ### The core-wide counters (04 R94) -/

theorem State.rf_setRf_same (s : State) (off : Nat) {hi lo : Nat} (h : lo ≤ hi) (h64 : hi < 64) (v : Nat) :
    (s.setRf off hi lo v).rf off hi lo = v % 2 ^ (hi - lo + 1) := by
  rw [State.rf, State.setRf, State.rd_wr, if_pos rfl, fld_putFld_same _ _ h h64]

theorem State.rd_setRf_other (s : State) {off k : Nat} (h : off ≠ k) (hi lo v : Nat) : (s.setRf off hi lo v).rd k = s.rd k :=
  (s.rd_wr ..).trans (if_neg h)

/-- A core-wide counter adds up and saturates. -/
theorem State.rf_numcAdd_same (s : State) (i k : Nat) : (s.numcAdd i k).rf (0x9800 + 8 * i) 47 0 = min (2 ^ 48 - 1) (s.rf (0x9800 + 8 * i) 47 0 + k) := by
  have hlt : s.rf (0x9800 + 8 * i) 47 0 < 2 ^ 48 := Nat.mod_lt _ (by decide)
  have hset : ∀ v, v ≤ 2 ^ 48 - 1 → (s.setRf (0x9800 + 8 * i) 47 0 v).rf (0x9800 + 8 * i) 47 0 = v := fun v hv => by
    rw [State.rf_setRf_same _ _ (by decide) (by decide), Nat.mod_eq_of_lt (by omega)]
  unfold State.numcAdd satAdd48
  dsimp only
  split
  · omega
  · split
    · rw [State.rf, State.rd_raise_other _ _ (by omega), State.setRf, State.rd_wr, if_pos rfl,
        fld_putFld_other _ _ (by decide) (by decide) (by decide) (by decide)]
      exact hset _ (Nat.min_le_left ..)
    · exact hset _ (Nat.min_le_left ..)

theorem State.rf_numcAdd_other (s : State) {i j : Nat} (h : i ≠ j) (k : Nat) : (s.numcAdd i k).rf (0x9800 + 8 * j) 47 0 = s.rf (0x9800 + 8 * j) 47 0 := by
  unfold State.rf State.numcAdd
  dsimp only
  split
  · rfl
  · split
    · rw [State.rd_raise_other _ _ (by omega), State.rd_setRf_other _ (by omega), State.rd_setRf_other _ (by omega)]
    · rw [State.rd_setRf_other _ (by omega)]

theorem State.trk_numcAdd (s : State) (i k : Nat) : (s.numcAdd i k).trk = s.trk := by
  unfold State.numcAdd
  dsimp only
  split
  · rfl
  · split <;> simp

theorem State.rf_counter_lt (s : State) (off : Nat) : s.rf off 47 0 < 2 ^ 48 := Nat.mod_lt _ (by decide)

/-- Counts added one after the other each reach their own counter. -/
theorem State.rf_foldl_numcAdd (l : List Nat) (m i : Nat) (s : State) :
    ((l.zipIdx m).foldl (fun s (k, i) => s.numcAdd i k) s).rf (0x9800 + 8 * i) 47 0 =
      min (2 ^ 48 - 1) (s.rf (0x9800 + 8 * i) 47 0 + if m ≤ i then l.getD (i - m) 0 else 0) := by
  have hlt := s.rf_counter_lt (0x9800 + 8 * i)
  induction l generalizing m s with
  | nil =>
    simp
    omega
  | cons k l ih =>
    rw [List.zipIdx_cons, List.foldl_cons, ih _ _ (State.rf_counter_lt ..)]
    obtain rfl | hne := eq_or_ne m i
    · rw [s.rf_numcAdd_same]
      simp
    · rw [s.rf_numcAdd_other hne]
      by_cases hle : m + 1 ≤ i
      · have hpos : i - m = i - (m + 1) + 1 := by omega
        rw [if_pos hle, if_pos (by omega), hpos, List.getD_cons_succ]
      · rw [if_neg hle, if_neg (by omega)]

/-- Observations without a slot go to the five core-wide counters, and to no tracker. -/
theorem State.rf_merge_none (s : State) (cs : Option Nat) (amax : W32) (c : Cnts) (elems i : Nat) :
    (s.merge none cs amax c elems).rf (0x9800 + 8 * i) 47 0 = min (2 ^ 48 - 1) (s.rf (0x9800 + 8 * i) 47 0 + c.toList.getD i 0) :=
  (State.rf_foldl_numcAdd c.toList 0 i s).trans (by simp)

theorem State.trk_merge_none (s : State) (cs : Option Nat) (amax : W32) (c : Cnts) (elems : Nat) : (s.merge none cs amax c elems).trk = s.trk := by
  simp [State.merge, Cnts.toList, State.trk_numcAdd]

/-! ### The clause of O37 on merges -/

/-- O37's clause on merges: what a merge leaves in the slot, in the others, in the events and in the consists. -/
theorem merges_act (s : State) (n : Nat) (cs : Option Nat) (amax : W32) (k : Cnts) (elems : Nat) :
    let t := s.trkAt n
    let u := s.merge (some n) cs amax k elems
    let trips := (0 < k.spread ∧ fld t.scfg 49 34 < min (2 ^ 24 - 1) (t.ep.getD 0 0 + k.spread) ∧ fld t.scfg 49 34 ≠ 0xFFFF) ∨
      (0 < k.nonfin ∧ bit t.scfg 25 = true)
    t.bad = false → t.cnt.length = 5 → t.sat.length = 5 →
      (∃ tripped, u.trkAt n = { t.observe amax k elems with tripped := tripped } ∧ (tripped = true ↔ t.tripped = true ∨ trips)) ∧
      (∀ j, j ≠ n → u.trkAt j = s.trkAt j) ∧ (trips → u.rb 0x100 evNumericTrip = true) ∧
      (∀ id, trips → cs = some id → s.cX.st = .opened → s.cX.id = id → s.cX.code = 0 → s.cX.beat = false → s.cstate ≠ 1 →
        u.cX.verdict = (.doomed, 5, n)) ∧
      (¬ trips ∨ cs = none → u.cA = s.cA ∧ u.cX = s.cX ∧ sameSpm s u) := by
  intro t u trips hbad hcnt hsat
  have hu : u = _ := State.merge_slot hbad hcnt hsat cs amax k elems
  have honly := s.onlyTrackers_observed n amax k elems
  obtain ⟨hA, hX⟩ := honly.consists
  have hslot : (s.observed n amax k elems).trkAt n = t.observe amax k elems := by
    rw [(s.observed_steps n amax k elems).trkAt, State.trkAt_modTrk_same]
  have hother : ∀ j, j ≠ n → (s.observed n amax k elems).trkAt j = s.trkAt j := fun j hj => by
    rw [(s.observed_steps n amax k elems).trkAt, s.trkAt_modTrk_other hj]
  have htrips : (t.observe amax k elems).tripsOn k = true ↔ trips := t.tripsOn_observe amax k elems
  by_cases h : trips
  · rw [if_pos (htrips.mpr h)] at hu
    rw [hu]
    refine ⟨⟨true, by rw [State.trkAt_trip_same, hslot], by simp [h]⟩, fun j hj => by rw [State.trkAt_trip_other _ hj, hother j hj],
      fun _ => State.rb_trip .., ?_, ?_⟩
    · rintro id - rfl hopen hid hcode hbeat hstop
      exact State.trip_dooms n (hX ▸ hopen) (hX ▸ hid) (hX ▸ hcode) (hX ▸ hbeat) (by rwa [State.cstate_observed])
    · rintro (hn | rfl)
      · exact absurd h hn
      · have hall := honly.trans (State.onlyTrackers_trip_none _ n)
        exact ⟨hall.consists.1, hall.consists.2, hall.sameSpm⟩
  · rw [if_neg (mt htrips.mp h)] at hu
    rw [hu]
    exact ⟨⟨t.tripped, by rw [hslot]; rfl, by simp [h]⟩, hother, fun hp => absurd hp h, fun _ hp => absurd hp h, fun _ => ⟨hA, hX, honly.sameSpm⟩⟩

end Sys2Proof.Machine
end

section
/-!
PROOFS. The close of a tracker's epoch: what joins the almanac, how WIDE and CLEAN follow from the epoch's counts, and how NEXT is derived
(04 R88, R89, R97, R99).
-/

namespace Sys2Proof.Machine

/-! ### The scale that puts a reference at TGT (04 R89) -/

/-- The number of 32 FP32 bits, by their exponent and fraction (02 R32). -/
theorem fp32_eq (x : W32) : fp32 x =
    if x.toNat / 2 ^ 23 % 2 ^ 8 = 255 then
      (if x.toNat % 2 ^ 23 = 0 then .inf (decide (x.toNat / 2 ^ 31 % 2 = 1)) else .nan (decide (x.toNat / 2 ^ 31 % 2 = 1)))
    else if x.toNat / 2 ^ 23 % 2 ^ 8 = 0 then .fin (decide (x.toNat / 2 ^ 31 % 2 = 1)) ((x.toNat % 2 ^ 23 : Nat) * pow2 (-149))
    else .fin (decide (x.toNat / 2 ^ 31 % 2 = 1)) ((2 ^ 23 + x.toNat % 2 ^ 23 : Nat) * pow2 ((x.toNat / 2 ^ 23 % 2 ^ 8 : Nat) - 127 - 23)) := by
  simp [fp32, decodeElem, fpLayout, ieeeTop, Nat.shiftRight_eq_div_pow]

/-- The FP32 code with exponent k and no fraction is 2^k. -/
theorem fp32_pow2 {k : Int} (hlo : -126 ≤ k) (hhi : k ≤ 127) : fp32 (BitVec.ofNat 32 ((k + 127).toNat * 2 ^ 23)) = .fin false (pow2 k) := by
  obtain ⟨e, he⟩ : ∃ e : Nat, k + 127 = e := ⟨(k + 127).toNat, by omega⟩
  have hcode : (BitVec.ofNat 32 ((k + 127).toNat * 2 ^ 23)).toNat = e * 2 ^ 23 := by
    rw [he, Int.toNat_natCast, BitVec.toNat_ofNat, Nat.mod_eq_of_lt (by omega)]
  have hfrac : e * 2 ^ 23 % 2 ^ 23 = 0 := Nat.mul_mod_left ..
  have hexp : e * 2 ^ 23 / 2 ^ 23 % 2 ^ 8 = e := by omega
  have hsign : decide (e * 2 ^ 23 / 2 ^ 31 % 2 = 1) = false := by
    rw [decide_eq_false_iff_not]
    omega
  have hmag : ((2 ^ 23 : Nat) : Rat) * pow2 ((e : Int) - 127 - 23) = pow2 k := by
    rw [pow2_eq_shift_mul (by omega : (e : Int) - 127 - 23 ≤ k), show (k - ((e : Int) - 127 - 23)).toNat = 23 by omega]
    norm_num
  rw [fp32_eq, hcode, hfrac, hexp, hsign, if_neg (by omega), if_neg (by omega), Nat.add_zero, hmag]

theorem fp32_zero : fp32 0 = .fin false 0 := by simp [fp32_eq]

/-- The power of two that puts a reference at TGT; CUR where the reference is zero or not finite. -/
def Trk.nextFrom (t : Trk) (ref : W32) : W32 :=
  match fp32 ref with
  | .fin _ m =>
    if m = 0 then t.cur
    else BitVec.ofNat 32 ((max (-126) (min 127 (floorLog2 m + 1 - (fld t.scfg 56 50 : Nat))) + 127).toNat * 2 ^ 23)
  | _ => t.cur

theorem Trk.nextFrom_scale (t : Trk) {ref : W32} {neg : Bool} {m : Rat} (h : fp32 ref = .fin neg m) (hm : m ≠ 0) :
    fp32 (t.nextFrom ref) = .fin false (pow2 (max (-126) (min 127 (floorLog2 m + 1 - (fld t.scfg 56 50 : Nat))))) := by
  simp only [Trk.nextFrom, h, if_neg hm]
  exact fp32_pow2 (by omega) (by omega)

theorem Trk.nextFrom_zero (t : Trk) : t.nextFrom 0 = t.cur := by
  rw [Trk.nextFrom, fp32_zero]
  exact if_pos rfl

/-! ### The reference: the largest or the second largest of the window -/

theorem insertionSort_ge_of_perm_cons {l r : List Nat} {a : Nat} (h : l.Perm (a :: r)) (hmax : ∀ x ∈ r, x ≤ a) :
    l.insertionSort (· ≥ ·) = a :: r.insertionSort (· ≥ ·) := by
  rw [← List.insertionSort_cons_of_forall_rel (r := (· ≥ ·)) hmax]
  exact ((List.perm_insertionSort ..).trans (h.trans (List.perm_insertionSort ..).symm)).eq_of_sortedGE List.sortedGE_insertionSort List.sortedGE_insertionSort

/-- The almanac values that NEXT is derived from: the latest H + 1. -/
def Trk.window (t : Trk) : List W32 := t.alm.take (fld t.scfg 61 58 + 1)

/-- Their magnitudes, largest first. -/
def Trk.ranked (t : Trk) : List Nat := (t.window.map (·.toNat)).insertionSort (· ≥ ·)

/-- The reference of POL 1, and that of any other policy. -/
def Trk.reference (t : Trk) : Nat := if fld t.scfg 63 62 = 1 then t.ranked.headD 0 else match t.ranked with | _ :: b :: _ => b | [a] => a | [] => 0

theorem Trk.derive_eq (t : Trk) : t.derive = if fld t.scfg 63 62 = 0 ∨ t.alm = [] then t.cur else t.nextFrom (BitVec.ofNat 32 t.reference) := by
  have hwin : t.alm.take (min (fld t.scfg 61 58 + 1) t.alm.length) = t.window := by simp [Trk.window, List.take_eq_take_min]
  unfold Trk.derive
  dsimp only
  rw [hwin]
  by_cases h : fld t.scfg 63 62 = 0 ∨ t.alm = []
  · rw [if_pos h, if_pos (by simpa using h)]
  · rw [if_neg h, if_neg (by simpa using h)]
    rfl

theorem Trk.ranked_eq_cons {t : Trk} {a : W32} {r : List W32} (h : t.window.Perm (a :: r)) (hmax : ∀ x ∈ r, x.toNat ≤ a.toNat) :
    t.ranked = a.toNat :: (r.map (·.toNat)).insertionSort (· ≥ ·) :=
  insertionSort_ge_of_perm_cons (h.map _) (by simpa using hmax)

theorem Trk.reference_largest {t : Trk} {ref : W32} (hpol : fld t.scfg 63 62 = 1) (href : ref ∈ t.window) (hmax : ∀ x ∈ t.window, x.toNat ≤ ref.toNat) :
    t.reference = ref.toNat := by
  rw [Trk.reference, if_pos hpol, Trk.ranked_eq_cons (List.perm_cons_erase href) fun x hx => hmax x (List.mem_of_mem_erase hx)]
  rfl

theorem Trk.reference_single {t : Trk} {ref : W32} (hpol : fld t.scfg 63 62 = 2) (h : t.window = [ref]) : t.reference = ref.toNat := by
  simp [Trk.reference, hpol, Trk.ranked, h]

theorem Trk.reference_second {t : Trk} {i : Nat} {top ref : W32} (hpol : fld t.scfg 63 62 = 2) (htop : t.window[i]? = some top)
    (hmax : ∀ x ∈ t.window, x.toNat ≤ top.toNat) (href : ref ∈ t.window.eraseIdx i) (hsecond : ∀ x ∈ t.window.eraseIdx i, x.toNat ≤ ref.toNat) :
    t.reference = ref.toNat := by
  obtain ⟨hi, rfl⟩ := List.getElem?_eq_some_iff.mp htop
  have hrest : (t.window.eraseIdx i).Perm (ref :: (t.window.eraseIdx i).erase ref) := List.perm_cons_erase href
  rw [Trk.reference, if_neg (by omega), Trk.ranked_eq_cons (List.getElem_cons_eraseIdx_perm hi).symm fun x hx => hmax x (List.mem_of_mem_eraseIdx hx),
    insertionSort_ge_of_perm_cons (hrest.map _) (by simpa using fun x hx => hsecond x (List.mem_of_mem_erase hx))]

theorem Trk.derive_from {t : Trk} {ref : W32} (hpol : fld t.scfg 63 62 ≠ 0) (halm : t.alm ≠ []) (h : t.reference = ref.toNat) :
    t.derive = t.nextFrom ref := by
  rw [t.derive_eq, if_neg (by simp [hpol, halm]), h, BitVec.ofNat_toNat, BitVec.setWidth_eq]

/-! ### The close of an epoch (04 R88, R97, R99) -/

/-- Did the epoch have excursions, or more than one flush in 2^FSH elements? -/
def Trk.dirty (t : Trk) : Bool :=
  decide (t.ep.getD 0 0 > 0) || (decide (fld t.scfg 29 26 ≠ 0) && decide (t.ep.getD 1 0 * 2 ^ fld t.scfg 29 26 > t.ep.getD 2 0))

theorem Trk.dirty_iff (t : Trk) :
    t.dirty = true ↔ 0 < t.ep.getD 0 0 ∨ (fld t.scfg 29 26 ≠ 0 ∧ t.ep.getD 2 0 < t.ep.getD 1 0 * 2 ^ fld t.scfg 29 26) := by
  simp [Trk.dirty]

theorem Trk.evalWide_eq (t : Trk) : t.evalWide = { t with
    wide := t.dirty || (t.wide && decide (min 15 (t.clean + 1) < fld t.scfg 33 30)), clean := if t.dirty then 0 else min 15 (t.clean + 1) } := by
  have heval : t.evalWide = if t.dirty then { t with wide := true, clean := 0 }
    else { t with clean := min (t.clean + 1) 15, wide := t.wide && !decide (min (t.clean + 1) 15 ≥ fld t.scfg 33 30) } := rfl
  rw [heval]
  cases t.dirty <;>
    simp only [Nat.min_comm, ge_iff_le, ← not_lt, decide_not, Bool.not_not, Bool.true_or, Bool.false_or, if_true, Bool.false_eq_true, if_false]

/-- What an epoch that observed something leaves in the almanac, in WIDE and in CLEAN. -/
def Trk.filed (t : Trk) : Trk := if t.has then (if t.perr then t else { t with alm := (t.amax :: t.alm).take 16 }).evalWide else t

theorem Trk.filed_eq (t : Trk) : t.filed = { t with
    alm := if t.has && !t.perr then (t.amax :: t.alm).take 16 else t.alm
    wide := if t.has then t.dirty || (t.wide && decide (min 15 (t.clean + 1) < fld t.scfg 33 30)) else t.wide
    clean := if t.has then (if t.dirty then 0 else min 15 (t.clean + 1)) else t.clean } := by
  simp only [Trk.filed, Trk.evalWide_eq]
  obtain ⟨_, _, _, _, _, has, _, _, _, perr, _⟩ := t
  cases has <;> cases perr <;> rfl

/-- An epoch closes: it is filed, NEXT is derived, CUR committed, and the next epoch begins. -/
theorem Trk.advance_eq (t : Trk) (commit : Bool) :
    t.advance commit = { t.filed with
      next := if t.perr then t.next else t.filed.derive
      cur := if t.perr then t.cur else if commit then t.filed.derive else t.cur
      amax := 0, has := false, ep := [0, 0, 0] } := by
  have hadvance : t.advance commit =
    { (if t.filed.perr then t.filed else { t.filed with next := t.filed.derive, cur := if commit then t.filed.derive else t.filed.cur }) with
      amax := 0, has := false, ep := [0, 0, 0] } := rfl
  rw [hadvance, t.filed_eq]
  cases t.perr <;> simp

/-- A value is the power of two that puts a reference at TGT, where the reference is a number and not zero. -/
def AtTgt (scfg : W64) (ref v : W32) : Prop :=
  ∀ neg m, fp32 ref = .fin neg m → m ≠ 0 → fp32 v = .fin false (pow2 (max (-126) (min 127 (floorLog2 m + 1 - (fld scfg 56 50 : Nat)))))

/-- NEXT puts its reference at TGT, and is CUR where the reference is zero. -/
theorem Trk.derive_at_tgt {t : Trk} {ref : W32} (hpol : fld t.scfg 63 62 ≠ 0) (href : ref ∈ t.window) (h : t.reference = ref.toNat) :
    AtTgt t.scfg ref t.derive ∧ (ref = 0 → t.derive = t.cur) := by
  have halm : t.alm ≠ [] := List.ne_nil_of_mem (List.mem_of_mem_take href)
  rw [Trk.derive_from hpol halm h]
  exact ⟨fun _ _ hfin hm => t.nextFrom_scale hfin hm, fun hzero => hzero ▸ t.nextFrom_zero⟩

/-- NEXT is what a configuration derives from CUR and an almanac: CUR under POL 0 and without a value, else from the largest (POL 1) or the
second largest (POL 2) of the latest H + 1 values (04 R89). -/
structure Derives (scfg : W64) (cur next : W32) (alm : List W32) : Prop where
  none : fld scfg 63 62 = 0 ∨ alm = [] → next = cur
  largest : fld scfg 63 62 = 1 → ∀ ref ∈ alm.take (fld scfg 61 58 + 1), (∀ x ∈ alm.take (fld scfg 61 58 + 1), x.toNat ≤ ref.toNat) →
    AtTgt scfg ref next ∧ (ref = 0 → next = cur)
  single : fld scfg 63 62 = 2 → ∀ ref, alm.take (fld scfg 61 58 + 1) = [ref] → AtTgt scfg ref next
  second : fld scfg 63 62 = 2 → ∀ i top, (alm.take (fld scfg 61 58 + 1))[i]? = some top →
    (∀ x ∈ alm.take (fld scfg 61 58 + 1), x.toNat ≤ top.toNat) → ∀ ref ∈ (alm.take (fld scfg 61 58 + 1)).eraseIdx i,
    (∀ x ∈ (alm.take (fld scfg 61 58 + 1)).eraseIdx i, x.toNat ≤ ref.toNat) → AtTgt scfg ref next ∧ (ref = 0 → next = cur)

theorem Trk.derives (t : Trk) : Derives t.scfg t.cur t.derive t.alm where
  none h := by rw [t.derive_eq, if_pos h]
  largest hpol _ href hmax := Trk.derive_at_tgt (by omega) href (Trk.reference_largest hpol href hmax)
  single hpol _ hwin := (Trk.derive_at_tgt (by omega) (by simp [Trk.window, hwin]) (Trk.reference_single hpol hwin)).1
  second hpol _ _ htop hmax _ href hsecond :=
    Trk.derive_at_tgt (by omega) (List.mem_of_mem_eraseIdx href) (Trk.reference_second hpol htop hmax href hsecond)

/-! ### The close, field by field -/

theorem Trk.advance_alm (t : Trk) (commit : Bool) : (t.advance commit).alm = if t.has && !t.perr then (t.amax :: t.alm).take 16 else t.alm := by
  rw [t.advance_eq, t.filed_eq]

/-- What the close leaves as it was. -/
theorem Trk.advance_keeps (t : Trk) (commit : Bool) :
    let u := t.advance commit
    u.scfg = t.scfg ∧ u.bound = t.bound ∧ u.cnt = t.cnt ∧ u.sat = t.sat ∧ u.perr = t.perr ∧ u.tripped = t.tripped := by
  rw [t.advance_eq, t.filed_eq]
  exact ⟨rfl, rfl, rfl, rfl, rfl, rfl⟩

theorem Trk.advance_silent {t : Trk} (h : t.has = false) (commit : Bool) : (t.advance commit).wide = t.wide ∧ (t.advance commit).clean = t.clean := by
  rw [t.advance_eq, t.filed_eq]
  simp [h]

theorem Trk.advance_dirty {t : Trk} (h : t.has = true) (hd : t.dirty = true) (commit : Bool) :
    (t.advance commit).wide = true ∧ (t.advance commit).clean = 0 := by
  rw [t.advance_eq, t.filed_eq]
  simp [h, hd]

theorem Trk.advance_clean {t : Trk} (h : t.has = true) (hd : t.dirty ≠ true) (commit : Bool) :
    (t.advance commit).clean = min 15 (t.clean + 1) ∧
      (t.advance commit).wide = (t.wide && decide ((t.advance commit).clean < fld t.scfg 33 30)) := by
  rw [t.advance_eq, t.filed_eq]
  simp [h, hd]

theorem Trk.advance_perr {t : Trk} (h : t.perr = true) (commit : Bool) : (t.advance commit).next = t.next ∧ (t.advance commit).cur = t.cur := by
  rw [t.advance_eq]
  simp [h]

theorem Trk.advance_cur {t : Trk} (h : t.perr = false) (commit : Bool) : (t.advance commit).cur = if commit then (t.advance commit).next else t.cur := by
  rw [t.advance_eq]
  simp [h]

theorem Trk.advance_next {t : Trk} (h : t.perr = false) (commit : Bool) :
    Derives t.scfg t.cur (t.advance commit).next (t.advance commit).alm := by
  have hderives := t.filed.derives
  have hnext : (t.advance commit).next = t.filed.derive := by
    rw [t.advance_eq]
    simp [h]
  have halm : (t.advance commit).alm = t.filed.alm := by rw [t.advance_eq]
  rw [hnext, halm]
  rw [t.filed_eq] at hderives ⊢
  exact hderives

end Sys2Proof.Machine
end

section
/-!
PROOFS. The STK commands at issue: the value that one reads, what it does to its slot once the slot's earlier merges are made, and its wait
for them (04 R81 to R83, Table 4-1; 08 R228).
-/

namespace Sys2Proof.Machine

/-! ### Reads in place: no word of the scratchpad is in a log -/

theorem State.logCopy_nil {s : State} {st : Sid} (h : (s.csu st).log = []) (w : Nat) : s.logCopy st w = none := by simp [State.logCopy, h]

theorem State.viewAddr_inPlace {s : State} (hA : s.cA.log = []) (hX : s.cX.log = []) (viewer : Option Sid) (a : Nat) : s.viewAddr viewer a = a := by
  simp [State.viewAddr, State.logCopy_nil (st := .a) hA, State.logCopy_nil (st := .x) hX]

/-- The ECC words that a read of `n` bytes meets. -/
def eccSpan (a n : Nat) : List Nat := (upto (if n = 0 then 0 else (a + n - 1) / 8 + 1 - a / 8)).map (· + a / 8)

/-- Each of them holds one of the bytes. -/
theorem eccSpan_byte {a n w : Nat} (h : w ∈ eccSpan a n) : ∃ i, i < n ∧ (a + i) / 8 = w := by
  obtain ⟨k, hk, rfl⟩ := List.mem_map.mp h
  rw [upto, List.mem_range] at hk
  split at hk
  · omega
  · refine ⟨if k = 0 then 0 else 8 * (k + a / 8) - a, ?_, ?_⟩ <;> split <;> omega

theorem State.touch_good {s : State} {a n : Nat} (h : ∀ w ∈ eccSpan a n, s.spm.eccW w = .good) : s.touch a n = s := by
  have hwords : ∀ l : List Nat, (∀ w ∈ l, s.spm.eccW w = .good) → l.foldl (fun s w =>
      if s.spm.eccW w = .single then
        let s := s.bankCount w
        { s with spm := { s.spm with wb := if s.spm.wb.contains w then s.spm.wb else s.spm.wb ++ [w] } }
      else s) s = s := by
    intro l hl
    induction l with
    | nil => rfl
    | cons w l ih =>
      rw [List.foldl_cons, if_neg (by simp [hl w (by simp)])]
      exact ih fun x hx => hl x (by simp [hx])
  exact hwords _ h

/-- A read of good words corrects nothing. -/
theorem State.touchView_good {s : State} (hA : s.cA.log = []) (hX : s.cX.log = []) (viewer : Option Sid) {a n : Nat}
    (h : ∀ i, i < n → s.spm.eccAt (a + i) = .good) : s.touchView viewer a n = s := by
  have hword : ∀ w ∈ eccSpan a n, s.touch (s.viewAddr viewer (8 * w)) 8 = s := by
    intro w hw
    obtain ⟨i, hi, rfl⟩ := eccSpan_byte hw
    rw [State.viewAddr_inPlace hA hX]
    refine State.touch_good fun x hx => ?_
    obtain ⟨j, hj, rfl⟩ := eccSpan_byte hx
    rw [show (8 * ((a + i) / 8) + j) / 8 = (a + i) / 8 by omega]
    exact h i hi
  have hwords : ∀ l : List Nat, (∀ w ∈ l, s.touch (s.viewAddr viewer (8 * w)) 8 = s) →
      l.foldl (fun s w => s.touch (s.viewAddr viewer (8 * w)) 8) s = s := by
    intro l hl
    induction l with
    | nil => rfl
    | cons w l ih =>
      rw [List.foldl_cons, hl w (by simp)]
      exact ih fun x hx => hl x (by simp [hx])
  exact hwords _ hword

theorem State.badView_good {s : State} (hA : s.cA.log = []) (hX : s.cX.log = []) (viewer : Option Sid) {a n : Nat}
    (h : ∀ i, i < n → s.spm.eccAt (a + i) = .good) : s.badView viewer a n = none := by
  have hspan : s.badView viewer a n = ((eccSpan a n).find? fun w => s.spm.eccAt (s.viewAddr viewer (w * 8)) = .bad).map (· * 8) := rfl
  rw [hspan, Option.map_eq_none_iff, List.find?_eq_none]
  intro w hw
  obtain ⟨i, hi, rfl⟩ := eccSpan_byte hw
  have hgood := h i hi
  rw [Spm.eccAt] at hgood
  simp [State.viewAddr_inPlace hA hX, Spm.eccAt, hgood]

theorem State.peekLe_inPlace {s : State} (hA : s.cA.log = []) (hX : s.cX.log = []) (viewer : Option Sid) (a n : Nat) :
    s.peekLe viewer a n = leNat ((List.range n).map fun i => s.spm.byte (a + i)) := by
  simp only [State.peekLe, State.peek, upto, State.viewAddr_inPlace hA hX]

/-! ### An STK command that issues -/

theorem asOpc_opc {o : Nat} (h : o < 128) (c : Slot) : (asOpc o c).opc = o := by
  rw [Slot.opc, asOpc, fld_putFld_same _ _ (by decide) (by decide)]
  exact Nat.mod_eq_of_lt h

/-- An STK command of the X-stream that issues: where it reads the scratchpad, its bytes are good, in place, and no write to them is under
way; no Method R block holds its own write back. -/
structure StkIssues (s : State) (c : Slot) : Prop where
  clear : Clear stkSem s .x c
  noLogA : s.cA.log = []
  noLogX : s.cX.log = []
  reads : ∀ p, stkRead s.sX c = some p → s.readWaits .x (s.loneLw .x c) p.1 p.2 = false ∧ ∀ i, i < p.2 → s.spm.eccAt (p.1 + i) = .good
  noBlock : s.stkBlock .x c = none

/-- With its value read, the command acts, or waits for the merges. -/
theorem StkIssues.run {s : State} {c : Slot} (h : StkIssues s c) : runStk (s.began .x) .x c (s.loneLw .x c) =
    if s.unmerged (stkSlot s.sX c) then .wait (s.began .x) (.merges (stkSlot s.sX c) (stkVal s s.sX c)) []
    else .ok ((s.began .x).stkAct .x c (stkSlot s.sX c) (stkVal s s.sX c)).1 ((s.began .x).stkAct .x c (stkSlot s.sX c) (stkVal s s.sX c)).2 := by
  have hA : (s.began .x).cA.log = [] := h.noLogA
  have hX : (s.began .x).cX.log = [] := h.noLogX
  have hread : stkRead ((s.began .x).str .x) c = stkRead s.sX c := rfl
  have hval : stkVal (s.began .x) ((s.began .x).str .x) c = stkVal s s.sX c := rfl
  have hslot : stkSlot ((s.began .x).str .x) c = stkSlot s.sX c := rfl
  have hmerged : (s.began .x).unmerged = s.unmerged := rfl
  have hblock : (s.began .x).stkBlock .x c = none := h.noBlock
  have hstall : (s.began .x).stallStk .x c = s.began .x := by simp [State.stallStk, hblock]
  simp only [runStk, hread, hval, hslot]
  cases hr : stkRead s.sX c with
  | none => simp only [hmerged, hblock, hstall, Option.isSome_none, Bool.or_false]
  | some p =>
    obtain ⟨hfree, hgood⟩ := h.reads p hr
    have hfree' : (s.began .x).readWaits .x (s.loneLw .x c) p.1 p.2 = false := hfree
    have hgood' : ∀ i, i < p.2 → (s.began .x).spm.eccAt (p.1 + i) = .good := hgood
    simp only [hfree', State.badView_good hA hX _ hgood', State.touchView_good hA hX _ hgood', hmerged, hblock, hstall, Option.isSome_none,
      Bool.or_false, Bool.false_eq_true, if_false]

/-- Where merges are outstanding the command waits for them, with its value. -/
theorem StkIssues.waits {s : State} {c : Slot} (h : StkIssues s c) (hmerges : s.unmerged (stkSlot s.sX c) = true) :
    issueRow stkSem .x c s = .next (s.waits .x c (s.began .x) (.merges (stkSlot s.sX c) (stkVal s s.sX c))) :=
  issueRow_wait h.clear (h.run.trans (if_pos hmerges))

/-- Without them it acts. -/
theorem StkIssues.acts {s s' : State} {c : Slot} {l : List RegWr} (h : StkIssues s c) (hmerges : s.unmerged (stkSlot s.sX c) = false)
    (hact : (s.began .x).stkAct .x c (stkSlot s.sX c) (stkVal s s.sX c) = (s', l)) :
    issueRow stkSem .x c s = .next (s.retired .x c (stkSem.left .x c s' l) none l) := by
  refine issueRow_ok h.clear (h.run.trans ?_)
  rw [if_neg (by simp [hmerges]), hact]

theorem CmdSem.left_nil (m : CmdSem) (st : Sid) (c : Slot) (s : State) : m.left st c s [] = s := by
  simp [CmdSem.left, State.supersede]

/-! ### What the commands do to their slot (04 Table 4-1) -/

section
variable {s : State} {st : Sid} {c : Slot} {n : Nat} (hbad : (s.trkAt n).bad = false)
include hbad

theorem State.stkAct_bind (h : c.opc = 0x38) (v : W64) : s.stkAct st c n v = (s.modTrk n (Trk.bind · v), []) := by
  simp [State.stkAct, h, State.trkParity_good hbad]

theorem State.stkAct_free (h : c.opc = 0x39) (v : W64) : s.stkAct st c n v = (s.modTrk n fun t => { t with bound := false }, []) := by
  simp [State.stkAct, h, State.trkParity_good hbad]

theorem State.stkAct_advance (h : c.opc = 0x3A) (hbound : (s.trkAt n).bound = true) (v : W64) :
    s.stkAct st c n v = (s.modTrk n (Trk.advance · (bit c.base 36)), []) := by
  simp [State.stkAct, h, State.trkParity_good hbad, hbound]

theorem State.stkAct_merge (h : c.opc = 0x3B) (hbound : (s.trkAt n).bound = true) (v : W64) :
    s.stkAct st c n v = (s.stkMerge n (v.setWidth 32), []) := by
  simp [State.stkAct, h, State.trkParity_good hbad, hbound]

theorem State.stkAct_set (h : c.opc = 0x3C) (v : W64) :
    s.stkAct st c n v = (s.modTrk n fun t => { t with cur := v.setWidth 32, next := v.setWidth 32 }, []) := by
  simp [State.stkAct, h, State.trkParity_good hbad]

theorem State.stkAct_read_reg (h : c.opc = 0x3D) (hreg : isN (c.f 29 24) = true) (v : W64) :
    s.stkAct st c n v = (s, [⟨0, c.f 29 24 - 8, leNat (((s.trkAt n).item (c.f 36 33) (c.f 32 30)).take 4)⟩]) := by
  simp [State.stkAct, h, State.trkParity_good hbad, hreg]

theorem State.stkAct_read_form (h : c.opc = 0x3D) (hreg : isN (c.f 29 24) = false) (v : W64) :
    s.stkAct st c n v = (s.writePairs (some st) (s.csu st).tagNow
      ((selForm (s.str st).regs c (c.f 29 24) 0).byteAddrs.zip ((s.trkAt n).item (c.f 36 33) (c.f 32 30))), []) := by
  simp [State.stkAct, h, State.trkParity_good hbad, hreg]

theorem State.stkAct_clear (h : c.opc = 0x3E) (hbound : (s.trkAt n).bound = true) (v : W64) :
    s.stkAct st c n v = (s.modTrk n fun t => { t with
      cnt := t.cnt.zipIdx.map fun (k, i) => if (c.f 36 32).testBit i then 0 else k
      sat := t.sat.zipIdx.map fun (b, i) => b && !(c.f 36 32).testBit i }, []) := by
  have hmask : ∀ i, (c.f 36 32).testBit i = decide ((c.f 36 32 >>> i) % 2 = 1) := fun i => by
    rw [Nat.testBit_eq_decide_div_mod_eq, Nat.shiftRight_eq_div_pow]
  simp only [State.stkAct, h, State.trkParity_good hbad, hbound, hmask, if_true, decide_eq_true_eq, ne_eq, decide_not]

/-- A use of an unbound slot only counts (04 R83). -/
theorem State.stkAct_unbound (h : c.opc = 0x3A ∨ c.opc = 0x3B ∨ c.opc = 0x3E) (hbound : (s.trkAt n).bound = false) (v : W64) :
    s.stkAct st c n v = (s.unboundUse, []) := by
  rcases h with h | h | h <;> simp [State.stkAct, h, State.trkParity_good hbad, hbound]

end

end Sys2Proof.Machine
end

section
/-!
PROOFS. The STK commands of the X-stream, one by one, and STK_MERGES_DONE (04 R81 to R83, Table 4-1; 08 R228).
-/

namespace Sys2Proof.Machine

/-! ### The value of STKMRG and STKSET -/

theorem leNat_lt (l : List Byte) : leNat l < 256 ^ l.length := by
  induction l with
  | nil => simp [leNat]
  | cons b l ih =>
    have := b.isLt
    rw [leNat, List.length_cons, pow_succ]
    omega

/-- The operand of STKMRG and STKSET: a word of the scratchpad, a register, or an immediate. -/
def State.stkOperand (s : State) (c : Slot) : W32 :=
  if isForm (c.f 36 31) then BitVec.ofNat 32 (leNat ((List.range 4).map fun i => s.spm.byte ((selForm s.sX.regs c (c.f 36 31) 0).addrN 0 + i)))
  else if isN (c.f 36 31) then s.sX.rdN (c.f 36 31 - 8) else BitVec.ofNat 32 (fld (c.x 0) 31 0)

theorem setWidth_ofNat_of_lt {m : Nat} (h : m < 2 ^ 32) : (BitVec.ofNat 32 m).setWidth 64 = BitVec.ofNat 64 m := by
  apply BitVec.eq_of_toNat_eq
  simp only [BitVec.toNat_setWidth, BitVec.toNat_ofNat]
  omega

theorem setWidth_twice (v : W32) : (v.setWidth 64).setWidth 32 = v := by simp

theorem stkRead_operand {t : Stream} {c : Slot} (h : c.opc = 0x3B ∨ c.opc = 0x3C) :
    stkRead t c = if isForm (c.f 36 31) then some ((selForm t.regs c (c.f 36 31) 0).addrN 0, 4) else none := by
  rcases h with h | h <;> simp [stkRead, h]

theorem stkVal_operand {s : State} {c : Slot} (hA : s.cA.log = []) (hX : s.cX.log = []) (h : c.opc = 0x3B ∨ c.opc = 0x3C) :
    stkVal s s.sX c = (s.stkOperand c).setWidth 64 := by
  have hsel : (decide (c.opc = 0x3B) || decide (c.opc = 0x3C)) = true := by simpa using h
  unfold stkVal State.stkOperand
  rw [stkRead_operand h]
  cases hform : isForm (c.f 36 31)
  · simp only [hsel, Bool.false_eq_true, if_false, if_true]
    split
    · rfl
    · exact (setWidth_ofNat_of_lt (Nat.mod_lt _ (by decide))).symm
  · simp only [if_true, State.peekLe_inPlace hA hX]
    refine (setWidth_ofNat_of_lt ?_).symm
    simpa using leNat_lt ((List.range 4).map fun i => s.spm.byte ((selForm s.sX.regs c (c.f 36 31) 0).addrN 0 + i))

theorem stkVal_bind {s : State} {c : Slot} (hA : s.cA.log = []) (hX : s.cX.log = []) (h : c.opc = 0x38) :
    stkVal s s.sX c = BitVec.ofNat 64 (leNat ((List.range 8).map fun i => s.spm.byte ((stkAddr s.sX c).toNat + i))) := by
  simp only [stkVal, stkRead, h, State.peekLe_inPlace hA hX]

/-! ### STKMRG of a value (04 R82) -/

/-- A value that a merge only counts: negative and not zero, or not a number. -/
def Num.onlyCounted : Num → Bool
  | .fin neg m => neg && decide (m ≠ 0)
  | _ => true

theorem State.stkMerge_eq (s : State) (n : Nat) (v : W32) : s.stkMerge n v =
    if (fp32 v).onlyCounted then
      let q := satAdd48 ((s.trkAt n).cnt.getD 4 0) 1
      let u := s.modTrk n fun t => { t with cnt := t.cnt.set 4 q.1, sat := if q.2 then t.sat.set 4 true else t.sat }
      if q.2 && !(s.trkAt n).sat.getD 4 false then u.raise evTrkSat else u
    else s.modTrk n fun t => { t with amax := maxBits t.amax (v &&& 0x7FFFFFFF), has := true } := rfl

theorem State.stkMerge_number {s : State} (n : Nat) {v : W32} (h : (fp32 v).onlyCounted = false) :
    s.stkMerge n v = s.modTrk n fun t => { t with amax := maxBits t.amax (v &&& 0x7FFFFFFF), has := true } := by
  rw [s.stkMerge_eq, if_neg (by simp [h])]

theorem State.stkMerge_counted {s : State} {n : Nat} {v : W32} (h : (fp32 v).onlyCounted = true) (hroom : (s.trkAt n).cnt.getD 4 0 < 2 ^ 48 - 1) :
    s.stkMerge n v = s.modTrk n fun t => { t with cnt := t.cnt.set 4 (t.cnt.getD 4 0 + 1) } := by
  have hadd : satAdd48 ((s.trkAt n).cnt.getD 4 0) 1 = ((s.trkAt n).cnt.getD 4 0 + 1, false) :=
    Prod.ext (Nat.min_eq_right (by omega)) (decide_eq_false (by omega))
  rw [s.stkMerge_eq, if_pos h, hadd]
  exact s.modTrk_congr rfl

theorem fp32_nonneg {v : W32} (h : v.toNat < 0x7F800000) : (fp32 v).onlyCounted = false := by
  have hsign : decide (v.toNat / 2 ^ 31 % 2 = 1) = false := by
    rw [decide_eq_false_iff_not]
    omega
  rw [fp32_eq, hsign, if_neg (by omega)]
  split <;> rfl

theorem fp32_rejected {v : W32} (h : 0x7F800000 ≤ v.toNat) (hz : v ≠ 0x80000000) : (fp32 v).onlyCounted = true := by
  have hz' : v.toNat ≠ 0x80000000 := fun he => hz (BitVec.eq_of_toNat_eq he)
  have hv := v.isLt
  rw [fp32_eq]
  split
  · split <;> rfl
  · have hsign : v.toNat / 2 ^ 31 % 2 = 1 := by omega
    split
    · have hfrac : 0 < v.toNat % 2 ^ 23 := by omega
      have hpos : (0 : Rat) < (v.toNat % 2 ^ 23 : Nat) * pow2 (-149) := mul_pos (by exact_mod_cast hfrac) (pow2_pos _)
      simp only [Num.onlyCounted, hsign, decide_true, Bool.true_and, decide_eq_true_eq]
      exact hpos.ne'
    · have hpos : (0 : Rat) < (2 ^ 23 + v.toNat % 2 ^ 23 : Nat) * pow2 ((v.toNat / 2 ^ 23 % 2 ^ 8 : Nat) - 127 - 23) :=
        mul_pos (by positivity) (pow2_pos _)
      simp only [Num.onlyCounted, hsign, decide_true, Bool.true_and, decide_eq_true_eq]
      exact hpos.ne'

theorem and_magnitude {v : W32} (h : v.toNat < 0x7F800000) : v &&& 0x7FFFFFFF = v := by
  apply BitVec.eq_of_toNat_eq
  rw [BitVec.toNat_and]
  exact (Nat.and_two_pow_sub_one_eq_mod v.toNat 31).trans (Nat.mod_eq_of_lt (by omega))

end Sys2Proof.Machine
end

section
/-!
PROOFS. STK_MERGES_DONE lets the waiting STK command act and ends the wait (04 R81, 08 R228).
-/

namespace Sys2Proof.Machine

/-! ### The end of a wait -/

/-- Superseded writes stand in the stream's own accesses and in the vector work alone. -/
theorem State.supersede_x (s : State) (keys : List (Nat × Nat)) :
    ∃ scal vec, s.supersede .x keys = { s with sX := { s.sX with scal := scal }, vec := vec } := by
  unfold State.supersede
  split
  · exact ⟨s.sX.scal, s.vec, rfl⟩
  · exact ⟨_, _, rfl⟩

/-- A register write changes registers alone; what N registers it leaves depends on those before it. -/
theorem Stream.wrReg_steps (t : Stream) (w : RegWr) :
    (t.wrReg w).loops = t.loops ∧ (t.wrReg w).pendHalt = t.pendHalt ∧ ∀ u : Stream, u.n = t.n → (t.wrReg w).n = (u.wrReg w).n := by
  unfold Stream.wrReg
  split
  · exact ⟨rfl, rfl, fun u h => by rw [h]⟩
  · exact ⟨rfl, rfl, fun u h => h.symm⟩
  · split
    · exact ⟨rfl, rfl, fun u h => h.symm⟩
    · exact ⟨rfl, rfl, fun u h => h.symm⟩

/-- Where no loop is active and no halt is noted, the next word follows. -/
theorem State.finishWord_plain {s : State} {lw : LwInfo} (hloops : s.sX.loops = []) (hhalt : s.sX.pendHalt = none) :
    ∃ scal, s.finishWord .x lw none [] = { s with sX := { s.sX with
      scal := scal, pc := BitVec.ofNat 17 (lw.addr + lw.len), wait := none, waited := 0, waitTold := false, stall := none } } := by
  have hend : loopEnd lw.addr (lw.addr + lw.len) 4 s.sX = (s.sX, lw.addr + lw.len) := by simp [loopEnd, hloops]
  have hword : s.finishWord .x lw none [] = (s.modStr .x fun _ => { s.sX.carrySteps (loopEnd lw.addr (lw.addr + lw.len) 4 s.sX).1 with
    pc := BitVec.ofNat 17 (loopEnd lw.addr (lw.addr + lw.len) 4 s.sX).2, wait := none, waited := 0, waitTold := false, stall := none }).takeNoted .x := rfl
  rw [hword, hend, State.takeNoted_none _ _ (by simpa [State.str, State.modStr, Stream.carrySteps] using hhalt)]
  exact ⟨_, rfl⟩

/-- So does a wait end that holds back no other write and has no control slot beside it. -/
theorem State.finishWait_plain {s : State} {w : Wait} {l : List RegWr} (hwait : s.sX.wait = some w) (hctl : w.ctl = none) (hlate : w.late = [])
    (hloops : s.sX.loops = []) (hhalt : s.sX.pendHalt = none) (hl : l.length ≤ 1) :
    let t := s.finishWait .x l
    t.trk = s.trk ∧ t.sX.wait = none ∧ t.sX.pc = BitVec.ofNat 17 (w.addr + w.len) ∧ t.sX.n = (s.sX.wrReg (l.headD ⟨2, 0, 0⟩)).n ∧
      t.spm = s.spm ∧ t.sA = s.sA := by
  obtain ⟨scal, vec, hsup⟩ := (s.modStr .x fun t => { t with wait := none }).supersede_x (l.map fun q => (q.kind, q.idx))
  have hwait' : s.finishWait .x l =
      (((s.modStr .x fun t => { t with wait := none }).supersede .x (l.map fun q => (q.kind, q.idx))).wrRegs .x l).finishWord .x
        ⟨w.addr, w.len, 0, 0⟩ none [] := by
    simp [State.finishWait, State.str, hwait, hctl, hlate]
  have hregs : ∃ t : Stream, ((s.modStr .x fun t => { t with wait := none }).supersede .x (l.map fun q => (q.kind, q.idx))).wrRegs .x l =
      { s with sX := t, vec := vec } ∧ t.loops = s.sX.loops ∧ t.pendHalt = s.sX.pendHalt ∧ t.n = (s.sX.wrReg (l.headD ⟨2, 0, 0⟩)).n := by
    rw [hsup]
    match l, hl with
    | [], _ => exact ⟨_, rfl, rfl, rfl, rfl⟩
    | [r], _ =>
      obtain ⟨hr, hp, hn⟩ := Stream.wrReg_steps { s.sX with wait := none, scal := scal } r
      exact ⟨_, rfl, hr, hp, hn s.sX rfl⟩
  obtain ⟨t, ht, htloops, hthalt, htn⟩ := hregs
  obtain ⟨scal', hword⟩ := State.finishWord_plain (s := { s with sX := t, vec := vec }) (lw := ⟨w.addr, w.len, 0, 0⟩) (htloops.trans hloops) (hthalt.trans hhalt)
  simp only [hwait', ht, hword]
  exact ⟨trivial, trivial, trivial, htn, trivial, trivial⟩

/-! ### The command's act -/

theorem State.onlyTrackers_stkMerge (s : State) (n : Nat) (v : W32) : onlyTrackers s (s.stkMerge n v) := by
  rw [s.stkMerge_eq]
  dsimp only
  split
  · split
    · exact (s.onlyTrackers_modTrk ..).trans (State.onlyTrackers_raise ..)
    · exact s.onlyTrackers_modTrk ..
  · exact s.onlyTrackers_modTrk ..

/-- But for an STKRD to a form, an STK command writes no scratchpad and at most one register. -/
theorem State.onlyTrackers_stkAct {s : State} {n : Nat} (hbad : (s.trkAt n).bad = false) (st : Sid) {c : Slot}
    (hform : c.opc = 0x3D → isN (c.f 29 24) = true) (v : W64) :
    onlyTrackers s (s.stkAct st c n v).1 ∧ (s.stkAct st c n v).2.length ≤ 1 := by
  have hbound : ∀ {t : State}, onlyTrackers s t → onlyTrackers s (if (s.trkAt n).bound then t else s.unboundUse) := fun h => by
    split
    · exact h
    · exact s.onlyTrackers_numcAdd 5 1
  unfold State.stkAct
  rw [State.trkParity_good hbad]
  dsimp only
  split
  · exact ⟨s.onlyTrackers_modTrk .., by simp⟩
  · exact ⟨s.onlyTrackers_modTrk .., by simp⟩
  · exact ⟨hbound (s.onlyTrackers_modTrk ..), by simp⟩
  · exact ⟨hbound (s.onlyTrackers_stkMerge ..), by simp⟩
  · exact ⟨s.onlyTrackers_modTrk .., by simp⟩
  · next hopc =>
    rw [if_pos (hform hopc)]
    exact ⟨rfl, by simp⟩
  · split
    · exact ⟨s.onlyTrackers_modTrk .., by simp⟩
    · exact ⟨s.onlyTrackers_numcAdd 5 1, by simp⟩

/-! ### The event -/

/-- Only an STKRD to a form can meet a Method R block. -/
theorem State.stkBlock_none {s : State} {st : Sid} {c : Slot} (h : c.opc = 0x3D → isN (c.f 29 24) = true ∨ s.cke.blocks = []) :
    s.stkBlock st c = none := by
  unfold State.stkBlock
  split
  · next hread =>
    simp only [Bool.and_eq_true, decide_eq_true_eq, Bool.not_eq_true'] at hread
    obtain hreg | hblocks := h hread.1
    · simp [hreg] at hread
    · exact s.blockOfPairs_nil _ _ _ hblocks
  · rfl

/-- The command acts, and its stream goes on behind it. -/
theorem stkMergesDone_acts {s : State} {w : Wait} {n : Nat} {v : W64} (hwait : s.sX.wait = some w) (hkind : w.kind = .merges n v)
    (hmerges : s.unmerged n = false) (hstop : s.cstate ≠ 1) (hform : w.cmd.opc = 0x3D → isN (w.cmd.f 29 24) = true) :
    exec .stkMergesDone s = .next ((s.stkAct .x w.cmd n v).1.finishWait .x (s.stkAct .x w.cmd n v).2) := by
  have hblock : s.stkBlock .x w.cmd = none := State.stkBlock_none fun h => .inl (hform h)
  have hdone : exec .stkMergesDone s = execStkMergesDone s := rfl
  simp [hdone, execStkMergesDone, hwait, hkind, hmerges, hstop, hblock]

/-- O37's clause on STK_MERGES_DONE. -/
theorem stkMergesDone_lets_act (s : State) (w : Wait) (n : Nat) (v : W64) (hwait : s.sX.wait = some w) (hkind : w.kind = .merges n v)
    (hctl : w.ctl = none) (hlate : w.late = []) (hhalt : s.sX.pendHalt = none) (hloops : s.sX.loops = []) (hmerges : s.unmerged n = false)
    (hstop : s.cstate ≠ 1) (hbad : (s.trkAt n).bad = false) (hform : w.cmd.opc = 0x3D → isN (w.cmd.f 29 24) = true) :
    ∃ t : State, exec .stkMergesDone s = .next t ∧ t.trk = (s.stkAct .x w.cmd n v).1.trk ∧ t.sX.wait = none ∧
      t.sX.pc = BitVec.ofNat 17 (w.addr + w.len) ∧ t.sX.n = (s.sX.wrReg ((s.stkAct .x w.cmd n v).2.headD ⟨2, 0, 0⟩)).n ∧
      sameSpm s t ∧ t.sA = s.sA := by
  obtain ⟨honly, hl⟩ := State.onlyTrackers_stkAct hbad .x hform v
  obtain ⟨hA, hX⟩ := honly.streams
  obtain ⟨htrk, hw, hpc, hn, hspm, hsA⟩ := State.finishWait_plain (hX ▸ hwait) hctl hlate (hX ▸ hloops) (hX ▸ hhalt) hl
  exact ⟨_, stkMergesDone_acts hwait hkind hmerges hstop hform, htrk, hw, hpc, hX ▸ hn, hspm.trans honly.sameSpm, hsA.trans hA⟩

end Sys2Proof.Machine
end

section
/-!
PROOFS. O37: each STK command of the X-stream acts on its slot alone, or waits for the slot's earlier merges (04 R81 to R91, R94, R95, R97,
R99, Table 4-1; 08 R228).
-/

namespace Sys2Proof.Machine

/-! ### What lets each command issue -/

section
variable {s : State} {c : Slot} (hA : s.cA.log = []) (hX : s.cX.log = []) (hclear : Clear stkSem s .x c)
include hA hX hclear

/-- A command that reads no scratchpad. -/
theorem StkIssues.of_no_read (hopc : c.opc = 0x39 ∨ c.opc = 0x3A ∨ c.opc = 0x3E ∨ c.opc = 0x3D)
    (hform : c.opc = 0x3D → isN (c.f 29 24) = true ∨ s.cke.blocks = []) : StkIssues s c where
  clear := hclear
  noLogA := hA
  noLogX := hX
  reads p hp := by rcases hopc with h | h | h | h <;> simp [stkRead, h] at hp
  noBlock := State.stkBlock_none hform

/-- STKBIND, with a good word. -/
theorem StkIssues.of_bind (hopc : c.opc = 0x38) (hfree : s.readWaits .x (s.loneLw .x c) (stkAddr s.sX c).toNat 8 = false)
    (hgood : ∀ i, i < 8 → s.spm.eccAt ((stkAddr s.sX c).toNat + i) = .good) : StkIssues s c where
  clear := hclear
  noLogA := hA
  noLogX := hX
  reads p hp := by
    simp only [stkRead, hopc, Option.some.injEq] at hp
    exact hp ▸ ⟨hfree, hgood⟩
  noBlock := State.stkBlock_none (by simp [hopc])

/-- STKMRG and STKSET, with a good operand. -/
theorem StkIssues.of_operand (hopc : c.opc = 0x3B ∨ c.opc = 0x3C)
    (hread : isForm (c.f 36 31) = true → s.readWaits .x (s.loneLw .x c) ((selForm s.sX.regs c (c.f 36 31) 0).addrN 0) 4 = false ∧
      ∀ i, i < 4 → s.spm.eccAt ((selForm s.sX.regs c (c.f 36 31) 0).addrN 0 + i) = .good) : StkIssues s c where
  clear := hclear
  noLogA := hA
  noLogX := hX
  reads p hp := by
    rw [stkRead_operand hopc, Option.ite_none_right_eq_some, Option.some.injEq] at hp
    obtain ⟨hform, rfl⟩ := hp
    exact hread hform
  noBlock := State.stkBlock_none (by omega)

end

/-! ### A command that acts at once (04 Table 4-1) -/

/-- An STK command that issues, with every merge into its slot made and no bit of it flipped. -/
structure StkActs (s : State) (c : Slot) : Prop extends StkIssues s c where
  merged : s.unmerged (stkSlot s.sX c) = false
  sound : (s.trkAt (stkSlot s.sX c)).bad = false

/-- Where a command writes its own destination alone, nothing was under way to it. -/
theorem CmdSem.left_dst {m : CmdSem} {s : State} {c : Slot} (h : Clear m s .x c) {l : List RegWr} (hl : l.map (fun r => (r.kind, r.idx)) = m.dst c) :
    m.left .x c (s.began .x) l = s.began .x := by
  have hsettled := h.sound.settled
  simp only [hazard, List.any_append, Bool.or_eq_false_iff] at hsettled
  unfold CmdSem.left
  split
  · exact supersede_settled (hl ▸ hsettled.2)
  · rfl

section
variable {s : State} {c : Slot} (h : StkActs s c)
include h

/-- A command that writes no register leaves what its act leaves. -/
theorem StkActs.silent {s' : State} (hact : (s.began .x).stkAct .x c (stkSlot s.sX c) (stkVal s s.sX c) = (s', [])) :
    issueRow stkSem .x c s = .next (s.retired .x c s' none []) := by
  rw [h.acts h.merged hact, CmdSem.left_nil]

theorem StkActs.began_sound : ((s.began .x).trkAt (stkSlot s.sX c)).bad = false := by
  rw [State.began_trkAt]
  exact h.sound

theorem StkActs.bind (hopc : c.opc = 0x38) : issueRow stkSem .x c s = .next (s.retired .x c ((s.began .x).modTrk (stkSlot s.sX c)
    fun t => t.bind (BitVec.ofNat 64 (leNat ((List.range 8).map fun i => s.spm.byte ((stkAddr s.sX c).toNat + i))))) none []) := by
  rw [h.silent (State.stkAct_bind h.began_sound hopc _), stkVal_bind h.noLogA h.noLogX hopc]

theorem StkActs.free (hopc : c.opc = 0x39) :
    issueRow stkSem .x c s = .next (s.retired .x c ((s.began .x).modTrk (stkSlot s.sX c) fun t => { t with bound := false }) none []) :=
  h.silent (State.stkAct_free h.began_sound hopc _)

theorem StkActs.advance (hopc : c.opc = 0x3A) (hbound : (s.trkAt (stkSlot s.sX c)).bound = true) :
    issueRow stkSem .x c s = .next (s.retired .x c ((s.began .x).modTrk (stkSlot s.sX c) fun t => t.advance (bit c.base 36)) none []) :=
  h.silent (State.stkAct_advance h.began_sound hopc (by rwa [State.began_trkAt]) _)

theorem StkActs.unbound (hopc : c.opc = 0x3A ∨ c.opc = 0x3B ∨ c.opc = 0x3E) (hbound : (s.trkAt (stkSlot s.sX c)).bound = false) :
    issueRow stkSem .x c s = .next (s.retired .x c (s.began .x).unboundUse none []) :=
  h.silent (State.stkAct_unbound h.began_sound hopc (by rwa [State.began_trkAt]) _)

theorem StkActs.merge (hopc : c.opc = 0x3B) (hbound : (s.trkAt (stkSlot s.sX c)).bound = true) :
    issueRow stkSem .x c s = .next (s.retired .x c ((s.began .x).stkMerge (stkSlot s.sX c) (s.stkOperand c)) none []) := by
  rw [h.silent (State.stkAct_merge h.began_sound hopc (by rwa [State.began_trkAt]) _), stkVal_operand h.noLogA h.noLogX (.inl hopc), setWidth_twice]

theorem StkActs.merge_number (hopc : c.opc = 0x3B) (hbound : (s.trkAt (stkSlot s.sX c)).bound = true) (hv : (s.stkOperand c).toNat < 0x7F800000) :
    issueRow stkSem .x c s = .next (s.retired .x c ((s.began .x).modTrk (stkSlot s.sX c)
      fun t => { t with amax := if t.amax.toNat < (s.stkOperand c).toNat then s.stkOperand c else t.amax, has := true }) none []) := by
  rw [h.merge hopc hbound, State.stkMerge_number _ (fp32_nonneg hv), and_magnitude hv]
  rfl

theorem StkActs.merge_counted (hopc : c.opc = 0x3B) (hbound : (s.trkAt (stkSlot s.sX c)).bound = true) (hv : 0x7F800000 ≤ (s.stkOperand c).toNat)
    (hz : s.stkOperand c ≠ 0x80000000) (hroom : (s.trkAt (stkSlot s.sX c)).cnt.getD 4 0 < 2 ^ 48 - 1) :
    issueRow stkSem .x c s = .next (s.retired .x c ((s.began .x).modTrk (stkSlot s.sX c)
      fun t => { t with cnt := t.cnt.set 4 (t.cnt.getD 4 0 + 1) }) none []) := by
  rw [h.merge hopc hbound, State.stkMerge_counted (fp32_rejected hv hz) (by rwa [State.began_trkAt])]

theorem StkActs.set (hopc : c.opc = 0x3C) :
    issueRow stkSem .x c s = .next (s.retired .x c ((s.began .x).modTrk (stkSlot s.sX c)
      fun t => { t with cur := s.stkOperand c, next := s.stkOperand c }) none []) := by
  rw [h.silent (State.stkAct_set h.began_sound hopc _), stkVal_operand h.noLogA h.noLogX (.inr hopc), setWidth_twice]

theorem StkActs.read_reg (hopc : c.opc = 0x3D) (hreg : isN (c.f 29 24) = true) :
    issueRow stkSem .x c s = .next (s.retired .x c (s.began .x) none
      [⟨0, c.f 29 24 - 8, leNat (((s.trkAt (stkSlot s.sX c)).item (c.f 36 33) (c.f 32 30)).take 4)⟩]) := by
  rw [h.acts h.merged (State.stkAct_read_reg h.began_sound hopc hreg _), CmdSem.left_dst h.clear (by simp [stkSem, stkDst, hopc, hreg]),
    State.began_trkAt]

theorem StkActs.read_form (hopc : c.opc = 0x3D) (hreg : isN (c.f 29 24) = false) :
    issueRow stkSem .x c s = .next (s.retired .x c ((s.began .x).writePairs (some .x) s.cX.tagNow
      ((selForm s.sX.regs c (c.f 29 24) 0).byteAddrs.zip ((s.trkAt (stkSlot s.sX c)).item (c.f 36 33) (c.f 32 30)))) none []) := by
  rw [h.silent (State.stkAct_read_form h.began_sound hopc hreg _), State.began_trkAt]
  rfl

theorem StkActs.clear_counts (hopc : c.opc = 0x3E) (hbound : (s.trkAt (stkSlot s.sX c)).bound = true) :
    issueRow stkSem .x c s = .next (s.retired .x c ((s.began .x).modTrk (stkSlot s.sX c) fun t => { t with
      cnt := t.cnt.zipIdx.map fun (k, i) => if (c.f 36 32).testBit i then 0 else k
      sat := t.sat.zipIdx.map fun (b, i) => b && !(c.f 36 32).testBit i }) none []) :=
  h.silent (State.stkAct_clear h.began_sound hopc (by rwa [State.began_trkAt]) _)

end

/-- STKMRG and STKSET wait with their operand. -/
theorem StkIssues.waits_operand {s : State} {c : Slot} (h : StkIssues s c) (hopc : c.opc = 0x3B ∨ c.opc = 0x3C)
    (hmerges : s.unmerged (stkSlot s.sX c) = true) :
    issueRow stkSem .x c s = .next (s.waits .x c (s.began .x) (.merges (stkSlot s.sX c) ((s.stkOperand c).setWidth 64))) := by
  rw [h.waits hmerges, stkVal_operand h.noLogA h.noLogX hopc]

/-! ### The seven commands as rows -/

theorem exec_stkbind (st : Sid) (c : Slot) (s : State) : exec (.stkbind st c) s = issueRow stkSem st (asOpc 0x38 c) s := rfl
theorem exec_stkfree (st : Sid) (c : Slot) (s : State) : exec (.stkfree st c) s = issueRow stkSem st (asOpc 0x39 c) s := rfl
theorem exec_stkadv (st : Sid) (c : Slot) (s : State) : exec (.stkadv st c) s = issueRow stkSem st (asOpc 0x3A c) s := rfl
theorem exec_stkmrg (st : Sid) (c : Slot) (s : State) : exec (.stkmrg st c) s = issueRow stkSem st (asOpc 0x3B c) s := rfl
theorem exec_stkset (st : Sid) (c : Slot) (s : State) : exec (.stkset st c) s = issueRow stkSem st (asOpc 0x3C c) s := rfl
theorem exec_stkrd (st : Sid) (c : Slot) (s : State) : exec (.stkrd st c) s = issueRow stkSem st (asOpc 0x3D c) s := rfl
theorem exec_stkclr (st : Sid) (c : Slot) (s : State) : exec (.stkclr st c) s = issueRow stkSem st (asOpc 0x3E c) s := rfl

end Sys2Proof.Machine
end

section
/-!
PROOFS. O37 is settled, clause by clause.
-/

namespace Sys2Proof.Machine

/-- How WIDE and CLEAN follow from the counts of an epoch that observed something (04 R97). -/
theorem Trk.advance_wide {t : Trk} (h : t.has = true) (commit : Bool) :
    let u := t.advance commit
    if 0 < t.ep.getD 0 0 ∨ (fld t.scfg 29 26 ≠ 0 ∧ t.ep.getD 2 0 < t.ep.getD 1 0 * 2 ^ fld t.scfg 29 26) then u.wide = true ∧ u.clean = 0
    else u.clean = min 15 (t.clean + 1) ∧ u.wide = (t.wide && decide (u.clean < fld t.scfg 33 30)) := by
  intro u
  by_cases hd : t.dirty = true
  · rw [if_pos (t.dirty_iff.mp hd)]
    exact t.advance_dirty h hd commit
  · rw [if_neg (mt t.dirty_iff.mpr hd)]
    exact t.advance_clean h hd commit

/-- The next epoch begins empty. -/
theorem Trk.advance_begins (t : Trk) (commit : Bool) :
    (t.advance commit).amax = 0 ∧ (t.advance commit).has = false ∧ (t.advance commit).ep = [0, 0, 0] := by
  rw [t.advance_eq]
  exact ⟨rfl, rfl, rfl⟩

/-- Settles O37: a merge, a trip and the close of an epoch change the slot alone, and an STK command acts on its slot by these once the
slot's earlier merges are made, at issue or at STK_MERGES_DONE. -/
theorem trackerCommandsAct : Obligations.TrackerCommandsAct := by
  unfold Obligations.TrackerCommandsAct
  refine ⟨fun t commit => ?closes, fun s n cs h => State.trkParity_marks h cs, fun s n cs amax k elems => ⟨?merges, ?counts⟩,
    fun s w n v hwait hkind hctl hlate _ hhalt hloops hmerges hstop hbad hform =>
      stkMergesDone_lets_act s w n v hwait hkind hctl hlate hhalt hloops hmerges hstop hbad hform,
    fun s c0 hA hX => ?commands⟩
  case closes =>
    obtain ⟨hamax, hhas, hep⟩ := t.advance_begins commit
    obtain ⟨hscfg, hbound, hcnt, hsat, hperr, htripped⟩ := t.advance_keeps commit
    refine ⟨hamax, hhas, hep, hscfg, hbound, hcnt, hsat, hperr, htripped, t.advance_alm commit, fun h => t.advance_silent h commit,
      fun h => t.advance_wide h commit, fun h => t.advance_perr h commit, fun h => ⟨t.advance_cur h commit, ?_⟩⟩
    have hnext := t.advance_next h commit
    exact ⟨hnext.none, hnext.largest, hnext.single, hnext.second⟩
  case merges =>
    intro hbad hcnt hsat
    obtain ⟨hslot, hother, hevent, hdoom, hkeep⟩ := merges_act s n cs amax k elems hbad hcnt hsat
    refine ⟨hslot, hother, hevent, fun id htrips hcs hopen hid hcode hbeat hstop => ?_, hkeep⟩
    obtain ⟨hst, hreason, hdetail⟩ := Csu.verdict_eq.mp (hdoom id htrips hcs hopen hid hcode hbeat hstop)
    exact ⟨hreason, hdetail, hst⟩
  case counts => exact ⟨s.trk_merge_none cs amax k elems, fun i _ => s.rf_merge_none cs amax k elems i⟩
  case commands =>
    intro slotOf acts mem good at' read v done unbound
    have hopc : ∀ {o : Nat}, o < 128 → (asOpc o c0).opc = o := fun h => asOpc_opc h c0
    refine ⟨?free, ?adv, ?mrg, ?set, ?rd, ?clr, ?bind, ?waitOperand, ?waitOther⟩
    case free =>
      intro c hclear hacts
      have h39 : c.opc = 0x39 := hopc (by decide)
      have h : StkActs s c := ⟨.of_no_read hA hX hclear (by simp [h39]) (by simp [h39]), hacts.1, hacts.2⟩
      rw [exec_stkfree]
      exact h.free h39
    case adv =>
      intro c hclear hacts
      have h3A : c.opc = 0x3A := hopc (by decide)
      have h : StkActs s c := ⟨.of_no_read hA hX hclear (by simp [h3A]) (by simp [h3A]), hacts.1, hacts.2⟩
      rw [exec_stkadv]
      exact ⟨h.advance h3A, h.unbound (.inl h3A)⟩
    case mrg =>
      intro c hclear hacts hread
      have h3B : c.opc = 0x3B := hopc (by decide)
      have h : StkActs s c := ⟨.of_operand hA hX hclear (.inl h3B) hread, hacts.1, hacts.2⟩
      rw [exec_stkmrg]
      exact ⟨h.merge_number h3B, h.merge_counted h3B, h.unbound (.inr (.inl h3B))⟩
    case set =>
      intro c hclear hacts hread
      have h3C : c.opc = 0x3C := hopc (by decide)
      have h : StkActs s c := ⟨.of_operand hA hX hclear (.inr h3C) hread, hacts.1, hacts.2⟩
      rw [exec_stkset]
      exact h.set h3C
    case rd =>
      intro c hclear hacts item addrs
      have h3D : c.opc = 0x3D := hopc (by decide)
      have h : isN (c.f 29 24) = true ∨ s.cke.blocks = [] → StkActs s c := fun hdst =>
        ⟨.of_no_read hA hX hclear (by simp [h3D]) fun _ => hdst, hacts.1, hacts.2⟩
      rw [exec_stkrd]
      exact ⟨fun hreg => (h (.inl hreg)).read_reg h3D hreg, fun hreg hblocks => (h (.inr hblocks)).read_form h3D hreg⟩
    case clr =>
      intro c hclear hacts
      have h3E : c.opc = 0x3E := hopc (by decide)
      have h : StkActs s c := ⟨.of_no_read hA hX hclear (by simp [h3E]) (by simp [h3E]), hacts.1, hacts.2⟩
      rw [exec_stkclr]
      exact ⟨h.clear_counts h3E, h.unbound (.inr (.inr h3E))⟩
    case bind =>
      intro c a w hclear hgood
      have h38 : c.opc = 0x38 := hopc (by decide)
      have h : StkIssues s c := .of_bind hA hX hclear h38 hgood.1 hgood.2
      rw [exec_stkbind]
      refine ⟨fun hacts => StkActs.bind ⟨h, hacts.1, hacts.2⟩ h38, fun hmerges => ?_⟩
      rw [h.waits hmerges, stkVal_bind hA hX h38]
      rfl
    case waitOperand =>
      refine List.forall_mem_cons.mpr ⟨fun hclear hread hmerges => ?mrg, List.forall_mem_singleton.mpr fun hclear hread hmerges => ?set⟩
      case mrg =>
        have h3B : (asOpc 0x3B c0).opc = 0x3B := hopc (by decide)
        exact (exec_stkmrg .x c0 s).trans ((StkIssues.of_operand hA hX hclear (.inl h3B) hread).waits_operand (.inl h3B) hmerges)
      case set =>
        have h3C : (asOpc 0x3C c0).opc = 0x3C := hopc (by decide)
        exact (exec_stkset .x c0 s).trans ((StkIssues.of_operand hA hX hclear (.inr h3C) hread).waits_operand (.inr h3C) hmerges)
    case waitOther =>
      have hwaits : ∀ {o : Nat}, o = 0x39 ∨ o = 0x3A ∨ o = 0x3E ∨ o = 0x3D → Clear stkSem s .x (asOpc o c0) →
          s.unmerged (slotOf (asOpc o c0)) = true → s.cke.blocks = [] → ∃ val : W64,
            issueRow stkSem .x (asOpc o c0) s = .next (s.waits .x (asOpc o c0) (s.began .x) (.merges (slotOf (asOpc o c0)) val)) :=
        fun ho hclear hmerges hblocks =>
          ⟨_, (StkIssues.of_no_read hA hX hclear (by rwa [hopc (by omega)]) fun _ => .inr hblocks).waits hmerges⟩
      refine List.forall_mem_cons.mpr ⟨?free, List.forall_mem_cons.mpr ⟨?adv, List.forall_mem_cons.mpr ⟨?clr, List.forall_mem_singleton.mpr ?rd⟩⟩⟩
      case free => exact exec_stkfree .x c0 s ▸ hwaits (by decide)
      case adv => exact exec_stkadv .x c0 s ▸ hwaits (by decide)
      case clr => exact exec_stkclr .x c0 s ▸ hwaits (by decide)
      case rd => exact exec_stkrd .x c0 s ▸ hwaits (by decide)

end Sys2Proof.Machine
end

section
/-!
PROOFS. O35: a VE or RED command queues a work that has latched its registers; VSETL sets VLEN; VCHAIN queues its members as one work
(05 R106, R107, R118, R119; 08 R214, R224, R226, R227; 04 R83).
-/

namespace Sys2Proof.Machine

/-! ### Rows -/

/-- The rows of O35: each vector and reduction command with its opcode. -/
def vecRows : List ((Sid → Slot → Instr) × Nat) :=
  [(Instr.vadd, 0x40), (Instr.vsub, 0x41), (Instr.vmul, 0x42), (Instr.vmin, 0x43), (Instr.vmax, 0x44), (Instr.vabs, 0x45),
    (Instr.vneg, 0x46), (Instr.vand, 0x47), (Instr.vor, 0x48), (Instr.vxor, 0x49), (Instr.vnot, 0x4A), (Instr.vshl, 0x4B),
    (Instr.vshr, 0x4C), (Instr.vshra, 0x4D), (Instr.vcmp, 0x4E), (Instr.vsel, 0x4F), (Instr.vcvt, 0x50), (Instr.vmset, 0x51),
    (Instr.vfma, 0x52), (Instr.vexp2, 0x53), (Instr.vlog2, 0x54), (Instr.vrcp, 0x55), (Instr.vrsq, 0x56), (Instr.vq, 0x57),
    (Instr.vdq, 0x58), (Instr.vlxadd, 0x59), (Instr.vlxcvt, 0x5A), (Instr.vlxf, 0x5B), (Instr.vcprs, 0x5C), (Instr.vexpd, 0x5D),
    (Instr.redsum, 0x60), (Instr.redmax, 0x61), (Instr.redmin, 0x62), (Instr.redarg, 0x63), (Instr.redcnt, 0x64)]

theorem exec_vecRow {r : (Sid → Slot → Instr) × Nat} (hr : r ∈ vecRows) (st : Sid) (c : Slot) (s : State) :
    exec (r.1 st c) s = issueRow vecSem st (asOpc r.2 c) s := by
  revert r
  simp only [vecRows, List.forall_mem_cons, List.not_mem_nil, false_implies, implies_true, and_true]
  repeat' constructor

theorem exec_vsetl (st : Sid) (c : Slot) (s : State) : exec (.vsetl st c) s = issueRow vsetlSem st (asOpc 0x5E c) s := rfl

/-! ### What a command latches -/

/-- No check of a list fails where none is its first failing one. -/
theorem firstFail_none {l : List Chk} (h : firstFail l = none) {k : Chk} (hk : k ∈ l) (hcls : k.cls < 7) : k.bad = false := by
  simp only [firstFail, upto, List.findSome?_eq_none_iff, List.mem_range, List.find?_eq_none, Bool.and_eq_true, decide_eq_true_eq, not_and,
    Bool.not_eq_true] at h
  exact h _ hcls k hk rfl

/-- Of the checks of a command, that on a tracker's scale: a slot is named. -/
theorem trackerScale_mem_chkVec (s : State) (st : Sid) (cs : List Slot) (c : Slot) :
    chk 1 (decide (vTs c = 1) && decide (vTrk c = 0x7F)) 3 ∈ chkVec s st cs c := by
  simp [chkVec]

theorem vTrk_of_tracker_scale {s : State} {st : Sid} {cs : List Slot} {c : Slot} {l : List Chk} (h : firstFail l = none)
    (hl : ∀ k ∈ chkVec s st cs c, k ∈ l) (hts : vTs c = 1) : vTrk c ≠ 0x7F := by
  have hsound := firstFail_none h (hl _ (trackerScale_mem_chkVec s st cs c)) (show 1 < 7 by decide)
  simpa [chk, hts] using hsound

/-- A command whose slot may observe, and is sound, latches its registers and changes nothing (04 R83, R90). -/
theorem State.veMem_latches (s : State) (st : Sid) (c : Slot) (lw : Nat) (hscale : vTs c = 1 → vTrk c ≠ 0x7F)
    (hslot : ∀ n, (if vTrk c = 0x7F then none else some (vTrk c)) = some n → (s.trkAt n).bound = true ∧ (s.trkAt n).unav = false ∧ (s.trkAt n).bad = false) :
    s.veMem st c lw = (s, { c := c, a := (s.str st).a, n := (s.str st).n, scale := s.vScale (s.str st).regs c
                            trk := if vTrk c = 0x7F then none else some (vTrk c), lw := lw, lwSlot := c.kind, acc := VeAcc.zero }) := by
  have hparity : (if (isScaled c.opc && decide (vTs c = 1)) = true then s.trkParity (vTrk c) (s.csu st).tagNow else s) = s := by
    split
    · next h =>
      simp only [Bool.and_eq_true, decide_eq_true_eq] at h
      exact State.trkParity_good (hslot _ (if_neg (hscale h.2))).2.2 _
    · rfl
  have hbind := s.bindCheck_bound (vTrk c) fun n hn => ⟨(hslot n hn).1, (hslot n hn).2.1⟩
  simp only [State.veMem, hparity, hbind]

theorem runVec_full {s : State} {st : Sid} {c : Slot} (lw : LwInfo) (h : 8 ≤ (s.vec.ve.filter fun w => w.beat = 0).length) :
    runVec s st c lw = .stall 5 11 := by
  simp [runVec, State.veFull, h]

theorem runVec_room {s s' : State} {st : Sid} {c : Slot} {m : VeMem} (lw : LwInfo) (h : (s.vec.ve.filter fun w => w.beat = 0).length < 8)
    (hm : s.veMem st c (s.here st) = (s', m)) : runVec s st c lw = .ok (s'.pushWork st [m]) [] := by
  simp [runVec, State.veFull, Nat.not_le.mpr h, hm]

/-! ### VCHAIN -/

theorem memberAddrs_fst (a : Nat) (l : List Slot) : (memberAddrs a l).map Prod.fst = l := by
  induction l generalizing a with
  | nil => rfl
  | cons c l ih => simp [memberAddrs, ih]

theorem memberAddrs_length (a : Nat) (l : List Slot) : (memberAddrs a l).length = l.length := by
  rw [← List.length_map (f := Prod.fst), memberAddrs_fst]

theorem mem_of_mem_memberAddrs {a : Nat} {l : List Slot} {p : Slot × Nat} (h : p ∈ memberAddrs a l) : p.1 ∈ l := by
  rw [← memberAddrs_fst a l]
  exact List.mem_map_of_mem h

theorem firstFail_some {l : List Chk} {k : Chk} (h : firstFail l = some k) : k.bad = true ∧ k.cls < 7 := by
  obtain ⟨i, hi, hk⟩ := List.exists_of_findSome?_eq_some h
  have hfound := List.find?_some hk
  simp only [Bool.and_eq_true, decide_eq_true_eq] at hfound
  rw [upto, List.mem_range] at hi
  exact ⟨hfound.2, by omega⟩

theorem memberFail_fails {s : State} {st : Sid} {ms : List (Slot × Nat)} {k : Chk} (h : memberFail s st ms [] = some k) : k.bad = true ∧ k.cls < 7 := by
  obtain ⟨p, -, hp⟩ := List.exists_of_findSome?_eq_some h
  simp only [List.find?_nil, Option.map_eq_some_iff] at hp
  obtain ⟨f, hf, rfl⟩ := hp
  obtain ⟨hbad, hcls⟩ := firstFail_some hf
  exact ⟨hbad, hcls⟩

/-- The check of a chain answers a failing check, or it passes: there are 2 to 8 members, and none of them fails (05 R119). -/
theorem chainChk_cases (s : State) (st : Sid) (c : Slot) (ms : List (Slot × Nat)) :
    (∃ k, chainChk s st c ms [] = some k ∧ k.bad = true ∧ k.cls < 7) ∨ 2 ≤ c.f 47 44 ∧ memberFail s st ms [] = none := by
  have hfails : ∀ rsn det who, ∃ k, some { chk 6 true rsn det with who := who } = some k ∧ k.bad = true ∧ k.cls < 7 :=
    fun _ _ _ => ⟨_, rfl, rfl, show 6 < 7 by decide⟩
  unfold chainChk
  dsimp only
  split
  · exact .inl (hfails 3 0 none)
  next hn =>
  split
  · exact .inl (hfails 2 _ _)
  split
  · exact .inl (hfails 2 0 none)
  split
  · exact .inl (hfails 3 _ _)
  split
  · exact .inl (hfails 2 0 none)
  cases hk : memberFail s st ms [] with
  | none => exact .inr ⟨by simp at hn; omega, rfl⟩
  | some k => exact .inl ⟨k, rfl, memberFail_fails hk⟩

/-- A member of a chain that passes names a slot where it takes its scale from one. -/
theorem memberFail_none {s : State} {st : Sid} {ms : List (Slot × Nat)} (h : memberFail s st ms [] = none) {p : Slot × Nat} (hp : p ∈ ms)
    (hguard : guardTrue (s.str st) p.1 = true) (hts : vTs p.1 = 1) : vTrk p.1 ≠ 0x7F := by
  simp only [memberFail, List.findSome?_eq_none_iff] at h
  have hchecks := h p hp
  simp only [List.find?_nil, hguard, if_true, Option.map_eq_none_iff] at hchecks
  exact vTrk_of_tracker_scale hchecks (fun k hk => List.mem_cons_of_mem _ (List.mem_append_left _ hk)) hts

/-- The members of a chain latch one after the other, and change nothing. -/
theorem State.foldl_veMem (s : State) (st : Sid) (ms : List (Slot × Nat)) (at' : Nat → Nat)
    (htrk : ∀ p ∈ ms, vTrk p.1 = 0x7F) (hscale : ∀ p ∈ ms, vTs p.1 = 1 → vTrk p.1 ≠ 0x7F) (l : List VeMem) :
    ms.foldl (fun (a : State × List VeMem) p => ((a.1.veMem st p.1 (at' p.2)).1, a.2 ++ [(a.1.veMem st p.1 (at' p.2)).2])) (s, l) =
      (s, l ++ ms.map fun p => ⟨p.1, (s.str st).a, (s.str st).n, s.vScale (s.str st).regs p.1, none, at' p.2, p.1.kind, VeAcc.zero⟩) := by
  induction ms generalizing l with
  | nil => simp
  | cons p ms ih =>
    have hp := htrk p (by simp)
    have hm := s.veMem_latches st p.1 (at' p.2) (hscale p (by simp)) (by simp [hp])
    rw [List.foldl_cons, hm, ih (fun q hq => htrk q (by simp [hq])) (fun q hq => hscale q (by simp [hq]))]
    simp [hp]

/-- A chain whose members all act, with room for it. -/
theorem runVchain_room {s : State} {st : Sid} {c : Slot} {ms : List (Slot × Nat)} (hroom : (s.vec.ve.filter fun w => w.beat = 0).length < 8)
    (hlen : ms.length = c.f 47 44) (hne : ms ≠ []) (hguard : ∀ p ∈ ms, guardTrue (s.str st) p.1 = true)
    (htrk : ∀ p ∈ ms, vTrk p.1 = 0x7F) (hscale : ∀ p ∈ ms, vTs p.1 = 1 → vTrk p.1 ≠ 0x7F) :
    runVchain s st c ms = .ok ((s.pushWork st (ms.map fun p =>
      ⟨p.1, (s.str st).a, (s.str st).n, s.vScale (s.str st).regs p.1, none, p.2 % 2 ^ 17 + s.bankOf st * 2 ^ 17, p.1.kind, VeAcc.zero⟩)).modStr st
        fun t => { t with chain := c.f 47 44 }) [] := by
  have htake : ms.take (c.f 47 44) = ms := List.take_of_length_le hlen.le
  have hlive : (ms.filter fun p => guardTrue (s.str st) p.1) = ms := List.filter_eq_self.mpr hguard
  have hne' : ms.isEmpty = false := by simpa using hne
  have hfull : s.veFull = false := by simpa [State.veFull] using hroom
  have hfold := s.foldl_veMem st ms (fun a => a % 2 ^ 17 + s.bankOf st * 2 ^ 17) htrk hscale []
  simp only [runVchain, htake, hlive, hne', hfull, Bool.false_and, Bool.false_eq_true, if_false]
  rw [hfold]
  rfl

/-- A chain that may issue has 2 to 8 members, none of which fails. -/
theorem chain_of_clear {s : State} {st : Sid} {c : Slot} {ms : List (Slot × Nat)} (h : Clear (vchainSem ms []) s st c) (hlen : ms.length = c.f 47 44) :
    2 ≤ c.f 47 44 ∧ memberFail (s.began st) st ms [] = none := by
  have hchecks : firstFail ((encChks c 0 [(43, 0)] ++ (chainChk (s.began st) st c (ms.take (c.f 47 44)) []).toList) ++ headChks (s.began st) c) = none :=
    h.sound.checks
  rw [List.take_of_length_le hlen.le] at hchecks
  obtain ⟨k, hk, hbad, hcls⟩ | hpasses := chainChk_cases (s.began st) st c ms
  · have hsound := firstFail_none hchecks (k := k) (by simp [hk]) hcls
    simp [hbad] at hsound
  · exact hpasses

/-- A word is the same whatever commands the breaks look at, where they are off (07 R444). -/
theorem State.issueWord_tagged (s : State) (st : Sid) (lw : LwInfo) (pre : Option (Chk × Option Slot)) (slots : List (Slot × CmdSem))
    (tagged tagged' : List (Slot × Nat)) (h0 : s.rb (dbgBase st) 0 = false) (h1 : s.rb (dbgBase st) 1 = false) :
    s.issueWord st lw pre slots tagged = s.issueWord st lw pre slots tagged' := by
  have hoff : ∀ l, s.breakChk st l = none := fun l => by simp [State.breakChk, h0, h1]
  simp only [State.issueWord, hoff]

/-- VCHAIN issues as a word of its own where no break is on. -/
theorem exec_vchain {c0 : Slot} {members : List Slot} {s : State} (hxw : (asOpc 0x5F c0).xw = 0) (h0 : s.rb 0x8040 0 = false) (h1 : s.rb 0x8040 1 = false) :
    exec (.vchain .x c0 members) s = issueRow (vchainSem (memberAddrs (s.sX.pc.toNat + 16) members) []) .x (asOpc 0x5F c0) s := by
  have hrow : exec (.vchain .x c0 members) s = execVchain .x c0 members s := rfl
  have haddr : (loneWord s .x (asOpc 0x5F c0)).addr + (loneWord s .x (asOpc 0x5F c0)).len = s.sX.pc.toNat + 16 := by
    simp only [loneWord, hxw]
    rfl
  rw [hrow, execVchain, issueRow, haddr, s.issueWord_tagged .x _ _ _ _ [(asOpc 0x5F c0, 0)] h0 h1]

/-- Settles O35: what a command latches at issue is the work that it queues; a chain latches its members one after the other. -/
theorem vectorCommandsQueueWork : Obligations.VectorCommandsQueueWork := by
  unfold Obligations.VectorCommandsQueueWork
  refine ⟨fun r hr s c0 => ?_, fun s c0 members => ⟨fun hclear => ?_, fun hclear hxw hlen hmem hroom h0 h1 => ?_⟩⟩
  · intro c hclear
    refine ⟨fun hfull => ?_, fun hroom hslot => ?_⟩
    · rw [exec_vecRow hr, issueRow_stall hclear (by decide) (runVec_full (s.loneLw .x c) (by simpa using hfull))]
    · have hscale := vTrk_of_tracker_scale hclear.sound.checks fun k hk => List.mem_append_left _ hk
      have hlatch := (s.began .x).veMem_latches .x c ((s.began .x).here .x) hscale (by simpa using hslot)
      rw [exec_vecRow hr, issueRow_ok hclear (runVec_room (s.loneLw .x c) (by simpa using hroom) hlatch), CmdSem.left_notW rfl]
      simp only [State.pushWork, List.flatMap_cons, List.flatMap_nil, List.append_nil]
      rfl
  · rw [exec_vsetl, issueRow_ok hclear rfl, CmdSem.left_notW rfl]
    rfl
  · obtain ⟨htwo, hsound⟩ := chain_of_clear hclear (by rw [memberAddrs_length, hlen])
    have hguard : ∀ p ∈ memberAddrs (s.sX.pc.toNat + 16) members, guardTrue ((s.began .x).str .x) p.1 = true := fun p hp =>
      (hmem _ (mem_of_mem_memberAddrs hp)).1
    have hlen' : (memberAddrs (s.sX.pc.toNat + 16) members).length = (asOpc 0x5F c0).f 47 44 := by rw [memberAddrs_length, hlen]
    have hrun := runVchain_room (s := s.began .x) (by simpa using hroom) hlen' (List.ne_nil_of_length_pos (by omega)) hguard
      (fun p hp => (hmem _ (mem_of_mem_memberAddrs hp)).2) fun p hp => memberFail_none hsound hp (hguard p hp)
    rw [exec_vchain hxw h0 h1, issueRow_ok hclear hrun, CmdSem.left_notW rfl]
    rfl

end Sys2Proof.Machine
end

section
/-!
PROOFS. Lanes of integers (05 R111): a code below 2^w is the two's-complement number that it holds, modulo 2^w, so that each operation is one of
codes.
-/

namespace Sys2Proof.Machine

/-! ### Two's complement -/

theorem sgn_modEq (w v : Nat) : sgn w v ≡ v [ZMOD 2 ^ w] := by
  unfold sgn
  split
  · rfl
  · exact (Int.modEq_iff_dvd.mpr ⟨1, by ring⟩)

/-- The low bits of an integer are those of any code that it is congruent to. -/
theorem toNat_emod_of_modEq {w n : Nat} {v : Int} (h : v ≡ n [ZMOD 2 ^ w]) : (v % 2 ^ w).toNat = n % 2 ^ w := by
  rw [h]
  exact_mod_cast Int.toNat_natCast (n % 2 ^ w)

theorem toNat_sgn_emod {w v : Nat} (h : v < 2 ^ w) : (sgn w v % 2 ^ w).toNat = v := by
  rw [toNat_emod_of_modEq (sgn_modEq w v), Nat.mod_eq_of_lt h]

theorem sgn_inj {w a b : Nat} (ha : a < 2 ^ w) (hb : b < 2 ^ w) : sgn w a = sgn w b ↔ a = b :=
  ⟨fun h => by rw [← toNat_sgn_emod ha, h, toNat_sgn_emod hb], fun h => h ▸ rfl⟩

theorem two_pow_pred_double {w : Nat} (hw : 0 < w) : 2 ^ w = 2 ^ (w - 1) + 2 ^ (w - 1) := by
  conv_lhs => rw [← Nat.sub_add_cancel hw]
  rw [pow_succ, Nat.mul_two]

theorem sgn_bounds {w v : Nat} (hw : 0 < w) (h : v < 2 ^ w) : -(2 ^ (w - 1)) ≤ sgn w v ∧ sgn w v < 2 ^ (w - 1) := by
  have hdouble := two_pow_pred_double hw
  unfold sgn
  zify at h hdouble
  split
  · next hlow => zify at hlow; constructor <;> linarith
  · next hlow => zify at hlow; constructor <;> linarith

theorem sgn_eq_lowest_iff {w : Nat} (hw : 0 < w) (v : Nat) : sgn w v = -(2 ^ (w - 1)) ↔ v = 2 ^ (w - 1) := by
  have hdouble := two_pow_pred_double hw
  unfold sgn
  zify at hdouble ⊢
  split
  · constructor <;> intro <;> linarith
  · constructor <;> intro <;> linarith

theorem natAbs_sgn {w v : Nat} (h : v < 2 ^ w) : (sgn w v).natAbs = if v < 2 ^ (w - 1) then v else 2 ^ w - v := by
  unfold sgn
  split
  · rfl
  · zify [h.le]
    rw [abs_of_nonpos (by zify at h; linarith)]
    ring

/-- A shift that leaves the word leaves its sign alone. -/
theorem ediv_two_pow_min {w k : Nat} {x : Int} (hlo : -(2 ^ (w - 1)) ≤ x) (hhi : x < 2 ^ (w - 1)) : x / 2 ^ min k (w - 1) = x / 2 ^ k := by
  obtain hk | hk := le_total k (w - 1)
  · rw [min_eq_left hk]
  · have hle : (2 : Int) ^ (w - 1) ≤ 2 ^ k := pow_le_pow_right₀ (by norm_num) hk
    have hpos : (0 : Int) < 2 ^ (w - 1) := by positivity
    rw [min_eq_right hk]
    obtain hx | hx := lt_or_ge x 0
    · have hneg : ∀ d : Int, 0 < d → -d ≤ x → x / d = -1 := fun d hd hdx => by
        rw [Int.ediv_eq_iff_of_pos hd]
        constructor <;> linarith
      rw [hneg _ hpos hlo, hneg _ (hpos.trans_le hle) (by linarith)]
    · rw [Int.ediv_eq_zero_of_lt hx hhi, Int.ediv_eq_zero_of_lt hx (by linarith)]

/-! ### Lanes -/

theorem isIntLane_bits {t : Nat} (h : isIntLane t = true) : 0 < fmtBits t := by
  simp only [isIntLane, Bool.or_eq_true, decide_eq_true_eq] at h
  obtain (rfl | rfl) | rfl := h <;> decide

section
variable {t a b : Nat} (ht : isIntLane t = true) (ha : a < 2 ^ fmtBits t) (hb : b < 2 ^ fmtBits t)

include ha in
theorem laneInt_eq : laneInt t a = sgn (fmtBits t) a := by rw [laneInt, Nat.mod_eq_of_lt ha]

include ha in
theorem intWrap_laneInt : intWrap t (laneInt t a) = a := by rw [laneInt_eq ha, intWrap, toNat_sgn_emod ha]

include ht ha hb in
theorem vAdd_int (sat : Bool) : vAdd sat t a b =
    if sat then intSat t (sgn (fmtBits t) a + sgn (fmtBits t) b) else (a + b) % 2 ^ fmtBits t := by
  rw [vAdd, if_pos ht, intArith, laneInt_eq ha, laneInt_eq hb]
  refine if_congr Iff.rfl rfl ?_
  exact toNat_emod_of_modEq (by push_cast; exact (sgn_modEq _ a).add (sgn_modEq _ b))

include ht ha hb in
theorem vSub_int (sat : Bool) : vSub sat t a b =
    if sat then intSat t (sgn (fmtBits t) a - sgn (fmtBits t) b) else (a + 2 ^ fmtBits t - b) % 2 ^ fmtBits t := by
  have hturn : (a : Int) + 2 ^ fmtBits t - b ≡ a - b [ZMOD 2 ^ fmtBits t] := Int.modEq_iff_dvd.mpr ⟨-1, by ring⟩
  rw [vSub, if_pos ht, intArith, laneInt_eq ha, laneInt_eq hb]
  refine if_congr Iff.rfl rfl ?_
  refine toNat_emod_of_modEq (((sgn_modEq _ a).sub (sgn_modEq _ b)).trans ?_)
  rw [Nat.cast_sub (by omega)]
  push_cast
  exact hturn.symm

include ht ha hb in
theorem vMul_int (sat : Bool) : vMul sat t a b =
    if sat then intSat t (sgn (fmtBits t) a * sgn (fmtBits t) b) else a * b % 2 ^ fmtBits t := by
  rw [vMul, if_pos ht, intArith, laneInt_eq ha, laneInt_eq hb]
  refine if_congr Iff.rfl rfl ?_
  exact toNat_emod_of_modEq (by push_cast; exact (sgn_modEq _ a).mul (sgn_modEq _ b))

include ht ha hb in
theorem vMin_int : vMin t a b = if sgn (fmtBits t) a ≤ sgn (fmtBits t) b then a else b := by
  rw [vMin, if_pos ht, min_def, ← laneInt_eq ha, ← laneInt_eq hb, apply_ite (intWrap t), intWrap_laneInt ha, intWrap_laneInt hb]

include ht ha hb in
theorem vMax_int : vMax t a b = if sgn (fmtBits t) a ≤ sgn (fmtBits t) b then b else a := by
  rw [vMax, if_pos ht, max_def, ← laneInt_eq ha, ← laneInt_eq hb, apply_ite (intWrap t), intWrap_laneInt ha, intWrap_laneInt hb]

include ht ha in
theorem vAbs_int : vAbs t a = if a = 2 ^ (fmtBits t - 1) then none else some (if a < 2 ^ (fmtBits t - 1) then a else 2 ^ fmtBits t - a) := by
  have hlowest : laneInt t a = intLow t ↔ a = 2 ^ (fmtBits t - 1) := by
    rw [laneInt_eq ha]
    exact sgn_eq_lowest_iff (isIntLane_bits ht) a
  rw [vAbs, if_pos ht]
  refine if_congr hlowest rfl (congrArg some ?_)
  rw [laneInt_eq ha, natAbs_sgn ha, intWrap, toNat_emod_of_modEq (Int.ModEq.refl _), Nat.mod_eq_of_lt]
  have := Nat.two_pow_pos (fmtBits t - 1)
  split <;> omega

include ht ha in
theorem vNeg_int : vNeg t a = if a = 2 ^ (fmtBits t - 1) then none else some ((2 ^ fmtBits t - a) % 2 ^ fmtBits t) := by
  have hlowest : laneInt t a = intLow t ↔ a = 2 ^ (fmtBits t - 1) := by
    rw [laneInt_eq ha]
    exact sgn_eq_lowest_iff (isIntLane_bits ht) a
  have hturn : (2 : Int) ^ fmtBits t - a ≡ -a [ZMOD 2 ^ fmtBits t] := Int.modEq_iff_dvd.mpr ⟨-1, by ring⟩
  rw [vNeg, if_pos ht]
  refine if_congr hlowest rfl (congrArg some ?_)
  rw [laneInt_eq ha]
  refine toNat_emod_of_modEq ((sgn_modEq _ a).neg.trans ?_)
  rw [Nat.cast_sub ha.le]
  push_cast
  exact hturn.symm

include ha in
theorem vNot_code : vNot t a = 2 ^ fmtBits t - 1 - a := by rw [vNot, Nat.mod_eq_of_lt ha]

theorem vShl_code (t a b : Nat) : vShl t a b = a * 2 ^ (b % 256) % 2 ^ fmtBits t := by
  rw [vShl, Nat.shiftLeft_eq]
  split
  · next h => exact (Nat.mod_eq_zero_of_dvd (Dvd.dvd.mul_left (pow_dvd_pow 2 h) a)).symm
  · rfl

include ha in
theorem vShr_code : vShr t a b = a / 2 ^ (b % 256) := by
  rw [vShr, Nat.mod_eq_of_lt ha, Nat.shiftRight_eq_div_pow]
  split
  · next h => exact (Nat.div_eq_of_lt (ha.trans_le (Nat.pow_le_pow_right (by decide) h))).symm
  · rfl

include ht ha in
theorem vShra_int : vShra t a b = (sgn (fmtBits t) a / 2 ^ (b % 256) % 2 ^ fmtBits t).toNat := by
  obtain ⟨hlo, hhi⟩ := sgn_bounds (isIntLane_bits ht) ha
  rw [vShra, laneInt_eq ha, ediv_two_pow_min hlo hhi, intWrap]

include ht ha hb in
theorem vCmp_int (fn : Nat) : vCmp t fn a b = match fn with
    | 0 => decide (a = b) | 1 => decide (a ≠ b)
    | 2 => decide (sgn (fmtBits t) a < sgn (fmtBits t) b) | 3 => decide (sgn (fmtBits t) a ≤ sgn (fmtBits t) b)
    | 4 => decide (sgn (fmtBits t) b < sgn (fmtBits t) a) | 5 => decide (sgn (fmtBits t) b ≤ sgn (fmtBits t) a)
    | 6 => false | _ => true := by
  simp only [vCmp, if_pos ht, laneInt_eq ha, laneInt_eq hb, sgn_inj ha hb, ne_eq, decide_not] <;> rfl

end

end Sys2Proof.Machine
end

section
/-!
PROOFS. Lanes of numbers (05 R112, R114): a number that a floating-point format holds is rounded to itself, so that the magnitude and the negation
are exact, and a sum, a product or both is the exact result rounded once.
-/

namespace Sys2Proof.Machine

/-! ### Binades -/

theorem pow2_floorLog2_le {q : Rat} (hq : 0 < q) : pow2 (floorLog2 q) ≤ q := by
  simp only [floorLog2]
  split
  · assumption
  · have hn : (2 : Rat) ^ q.num.toNat.log2 ≤ q.num := by
      have hpos := Rat.num_pos.mpr hq
      have := Nat.log2_self_le (n := q.num.toNat) (by omega)
      zify at this
      rw [Int.toNat_of_nonneg hpos.le] at this
      exact_mod_cast this
    have hd : (q.den : Rat) ≤ 2 ^ (q.den.log2 + 1) := by exact_mod_cast (Nat.lt_log2_self (n := q.den)).le
    rw [pow2_eq_zpow]
    calc (2 : Rat) ^ ((q.num.toNat.log2 : Int) - q.den.log2 - 1) = 2 ^ q.num.toNat.log2 / 2 ^ (q.den.log2 + 1) := by
          rw [show (q.num.toNat.log2 : Int) - q.den.log2 - 1 = (q.num.toNat.log2 : Nat) - ((q.den.log2 + 1 : Nat) : Int) by push_cast; ring,
            zpow_sub₀ two_ne_zero, zpow_natCast, zpow_natCast]
      _ ≤ q.num / q.den := div_le_div₀ (le_trans (by positivity) hn) hn (by exact_mod_cast q.den_pos) hd
      _ = q := Rat.num_div_den q

theorem pow2_add (a b : Int) : pow2 (a + b) = pow2 a * pow2 b := by
  simp only [pow2_eq_zpow]
  exact zpow_add₀ two_ne_zero a b

theorem pow2_natCast (n : Nat) : pow2 n = ((2 ^ n : Nat) : Rat) := rfl

theorem pow2_lt_pow2_iff {a b : Int} : pow2 a < pow2 b ↔ a < b := by
  rw [pow2_eq_zpow, pow2_eq_zpow]
  exact zpow_lt_zpow_iff_right₀ (by norm_num)

/-- The binade of a number that stands between two powers of two. -/
theorem floorLog2_eq {q : Rat} {e : Int} (hlo : pow2 e ≤ q) (hhi : q < pow2 (e + 1)) : floorLog2 q = e := by
  have hq := (pow2_pos e).trans_le hlo
  have h1 := pow2_lt_pow2_iff.mp (hlo.trans_lt (lt_pow2_floorLog2 hq))
  have h2 := pow2_lt_pow2_iff.mp ((pow2_floorLog2_le hq).trans_lt hhi)
  omega

theorem floorLog2_lt {q : Rat} {e : Int} (hq : 0 < q) (hhi : q < pow2 e) : floorLog2 q < e :=
  pow2_lt_pow2_iff.mp ((pow2_floorLog2_le hq).trans_lt hhi)

/-! ### A number on the grid of a format -/

/-- A format with infinities and NaNs in its top exponent: exponent bits, mantissa bits and bias. -/
structure IeeeLayout (t eb mb : Nat) (bias : Int) : Prop where
  layout : fpLayout t = some (eb, mb, bias)
  top : ieeeTop t = true
  notE4M3 : t ≠ 6
  notE5M2 : t ≠ 7
  bits : 2 ≤ eb

theorem isFloatLane_layout {t : Nat} (h : isFloatLane t = true) : ∃ eb mb bias, IeeeLayout t eb mb bias := by
  simp only [isFloatLane, Bool.or_eq_true, decide_eq_true_eq] at h
  obtain (rfl | rfl) | rfl := h
  · exact ⟨8, 23, 127, rfl, rfl, by decide, by decide, by decide⟩
  · exact ⟨8, 7, 127, rfl, rfl, by decide, by decide, by decide⟩
  · exact ⟨5, 10, 15, rfl, rfl, by decide, by decide, by decide⟩

/-- `m` is `k` units of the binade with exponent code `e`: a normal number, or one of the lowest binade. -/
structure OnFormat (eb mb : Nat) (bias : Int) (m : Rat) (e k : Nat) : Prop where
  value : m = k * pow2 ((e : Int) - bias - mb)
  low : 1 ≤ e
  high : e ≤ 2 ^ eb - 2
  units : k < 2 ^ (mb + 1)
  normal : e = 1 ∨ 2 ^ mb ≤ k

theorem OnFormat.nonneg {eb mb : Nat} {bias : Int} {m : Rat} {e k : Nat} (h : OnFormat eb mb bias m e k) : 0 ≤ m := by
  rw [h.value]
  exact mul_nonneg (by positivity) (pow2_pos _).le

theorem OnFormat.units_div {eb mb : Nat} {bias : Int} {m : Rat} {e k : Nat} (h : OnFormat eb mb bias m e k) : m / pow2 (e - bias - mb) = k := by
  rw [h.value, mul_div_assoc, div_self (pow2_pos _).ne', mul_one]

/-- The binade that the format's grid takes for such a number is its own. -/
theorem OnFormat.binade {eb mb : Nat} {bias : Int} {m : Rat} {e k : Nat} (h : OnFormat eb mb bias m e k) (hm : m ≠ 0) :
    max (floorLog2 m) (1 - bias) = e - bias := by
  have hpos : 0 < m := lt_of_le_of_ne (h.nonneg) hm.symm
  have hunit : ∀ n : Nat, pow2 (n + (e - bias - mb)) = ((2 ^ n : Nat) : Rat) * pow2 (e - bias - mb) := fun n => by rw [pow2_add, pow2_natCast]
  have hupper : m < pow2 ((mb + 1 : Nat) + (e - bias - mb)) := by
    rw [hunit, h.value]
    exact mul_lt_mul_of_pos_right (by exact_mod_cast h.units) (pow2_pos _)
  have hlow := h.low
  by_cases hk : 2 ^ mb ≤ k
  · have hlower : pow2 (mb + (e - bias - mb)) ≤ m := by
      rw [hunit, h.value]
      exact mul_le_mul_of_nonneg_right (by exact_mod_cast hk) (pow2_pos _).le
    rw [floorLog2_eq hlower (by convert hupper using 2; push_cast; ring)]
    omega
  · obtain rfl : e = 1 := h.normal.resolve_right hk
    have hbelow : floorLog2 m < mb + ((1 : Nat) - bias - mb) := floorLog2_lt hpos (by
      rw [hunit, h.value]
      exact mul_lt_mul_of_pos_right (by exact_mod_cast not_le.mp hk) (pow2_pos _))
    push_cast at hbelow ⊢
    omega

theorem toNat_floor_natCast (k : Nat) : (k : Rat).floor.toNat = k := by
  rw [show (k : Rat) = ((k : Int) : Rat) by push_cast; rfl, Rat.floor_intCast, Int.toNat_natCast]

theorem rndUnits_natCast (k : Nat) : rndUnits .rne (k : Rat) = k := by
  simp [rndUnits, toNat_floor_natCast]

section
variable {t eb mb : Nat} {bias : Int} (hl : IeeeLayout t eb mb bias)
include hl

/-- The code of sign, exponent and mantissa. -/
theorem decodeElem_parts (z : Bool) {x y : Nat} (hx : x < 2 ^ eb - 1) (hy : y < 2 ^ mb) :
    decodeElem t (b2n z <<< (mb + eb) + (x * 2 ^ mb + y)) =
      .fin z (if x = 0 then (y : Rat) * pow2 (1 - bias - mb) else ((2 ^ mb + y : Nat) : Rat) * pow2 ((x : Int) - bias - mb)) := by
  have hxy : x * 2 ^ mb + y < 2 ^ (mb + eb) := by
    rw [pow_add, mul_comm (2 ^ mb)]
    calc x * 2 ^ mb + y < x * 2 ^ mb + 2 ^ mb := by omega
      _ = (x + 1) * 2 ^ mb := by ring
      _ ≤ 2 ^ eb * 2 ^ mb := Nat.mul_le_mul_right _ (by omega)
  have hcode : b2n z <<< (mb + eb) + (x * 2 ^ mb + y) = (b2n z * 2 ^ eb + x) * 2 ^ mb + y := by
    rw [Nat.shiftLeft_eq, pow_add]
    ring
  have hxlt : x < 2 ^ eb := by omega
  have hmant : (b2n z <<< (mb + eb) + (x * 2 ^ mb + y)) % 2 ^ mb = y := by
    rw [hcode, Nat.mul_add_mod_of_lt hy]
  have hrest : (b2n z <<< (mb + eb) + (x * 2 ^ mb + y)) >>> mb = b2n z * 2 ^ eb + x := by
    rw [hcode, Nat.shiftRight_eq_div_pow, Nat.add_div_of_dvd_right (Nat.dvd_mul_left _ _), Nat.mul_div_cancel _ (Nat.two_pow_pos mb),
      Nat.div_eq_of_lt hy, add_zero]
  have hexp : ((b2n z <<< (mb + eb) + (x * 2 ^ mb + y)) >>> mb) % 2 ^ eb = x := by
    rw [hrest, Nat.mul_add_mod_of_lt hxlt]
  have hsign : ((b2n z <<< (mb + eb) + (x * 2 ^ mb + y)) >>> (mb + eb)) % 2 = b2n z := by
    rw [Nat.shiftRight_add, hrest, Nat.shiftRight_eq_div_pow, Nat.add_div_of_dvd_right (Nat.dvd_mul_left _ _), Nat.mul_div_cancel _ (Nat.two_pow_pos eb),
      Nat.div_eq_of_lt hxlt, add_zero]
    cases z <;> rfl
  have hz : decide (b2n z = 1) = z := by cases z <;> rfl
  have htop : ¬ x = 2 ^ eb - 1 := by omega
  simp only [decodeElem, hl.layout, hmant, hexp, hsign, hz, hl.top, hl.notE4M3, htop, decide_false, Bool.and_false, Bool.false_and, Bool.false_eq_true,
    if_false, apply_ite (Num.fin z)]

/-- A finite number that a code holds lies on the format's grid. -/
theorem onFormat_of_decode {code : Nat} {z : Bool} {m : Rat} (h : decodeElem t code = .fin z m) : ∃ e k, OnFormat eb mb bias m e k := by
  have hy : code % 2 ^ mb < 2 ^ mb := Nat.mod_lt _ (Nat.two_pow_pos mb)
  have hx : (code >>> mb) % 2 ^ eb < 2 ^ eb := Nat.mod_lt _ (Nat.two_pow_pos eb)
  have hfour : 4 ≤ 2 ^ eb := (Nat.pow_le_pow_right (by decide) hl.bits : 2 ^ 2 ≤ 2 ^ eb)
  have hdouble : 2 ^ (mb + 1) = 2 * 2 ^ mb := by ring
  simp only [decodeElem, hl.layout, hl.top, hl.notE4M3, Bool.true_and, decide_eq_true_eq, decide_false, Bool.false_and, Bool.false_eq_true, if_false] at h
  split at h
  · split at h <;> cases h
  next htop =>
  split at h
  · cases h
    exact ⟨1, code % 2 ^ mb, by push_cast; rfl, le_rfl, by omega, by omega, .inl rfl⟩
  · cases h
    exact ⟨(code >>> mb) % 2 ^ eb, 2 ^ mb + code % 2 ^ mb, rfl, by omega, by omega, by omega, .inr (by omega)⟩

/-- Rounding leaves it as it is. -/
theorem OnFormat.quantMag_eq {m : Rat} {e k : Nat} (h : OnFormat eb mb bias m e k) : quantMag t .rne m = m := by
  simp only [quantMag, hl.layout]
  split
  · next hm => exact hm.symm
  · next hm =>
    rw [h.binade hm, h.units_div, rndUnits_natCast]
    exact h.value.symm

theorem OnFormat.le_maxFin {m : Rat} {e k : Nat} (h : OnFormat eb mb bias m e k) : m ≤ maxFin t := by
  have hmax : maxFin t = ((2 ^ (mb + 1) - 1 : Nat) : Rat) * pow2 ((2 ^ eb - 2 : Int) - bias - mb) := by
    unfold maxFin
    split
    · exact absurd rfl hl.notE4M3
    · exact absurd rfl hl.notE5M2
    · simp [hl.layout, hl.top]
  have hunits := h.units
  have hhigh : (e : Int) ≤ 2 ^ eb - 2 := by
    have hle := h.high
    have : 2 ≤ 2 ^ eb := le_trans (by decide) (Nat.pow_le_pow_right (by decide) hl.bits : 2 ^ 2 ≤ 2 ^ eb)
    zify [this] at hle
    exact hle
  rw [hmax, h.value]
  exact mul_le_mul (by exact_mod_cast (by omega : k ≤ 2 ^ (mb + 1) - 1)) (pow2_le_pow2 (by omega)) (pow2_pos _).le (by positivity)

/-- Its code holds it. -/
theorem OnFormat.decode_encode {m : Rat} {e k : Nat} (h : OnFormat eb mb bias m e k) (z : Bool) : decodeElem t (encodeFin t z m) = .fin z m := by
  have hlow := h.low
  have hhigh := h.high
  have hunits := h.units
  have hdouble : 2 ^ (mb + 1) = 2 * 2 ^ mb := by ring
  have hfour : 4 ≤ 2 ^ eb := (Nat.pow_le_pow_right (by decide) hl.bits : 2 ^ 2 ≤ 2 ^ eb)
  by_cases hm : m = 0
  · have hcode : encodeFin t z m = b2n z <<< (mb + eb) + (0 * 2 ^ mb + 0) := by simp [encodeFin, hl.layout, hm]
    rw [hcode, decodeElem_parts hl z (by omega) (Nat.two_pow_pos mb)]
    simp [hm]
  · have hk : (m / pow2 (max (floorLog2 m) (1 - bias) - mb)).floor.toNat = k := by
      rw [h.binade hm, h.units_div, toNat_floor_natCast]
    by_cases hnormal : k < 2 ^ mb
    · have hcode : encodeFin t z m = b2n z <<< (mb + eb) + (0 * 2 ^ mb + k) := by
        simp only [encodeFin, hl.layout, hm, hk, hnormal, if_true, if_false, Nat.zero_mul, Nat.zero_add]
      obtain rfl : e = 1 := h.normal.resolve_right (by omega)
      rw [hcode, decodeElem_parts hl z (by omega) hnormal, if_pos rfl, h.value]
      simp
    · have hcode : encodeFin t z m = b2n z <<< (mb + eb) + (e * 2 ^ mb + (k - 2 ^ mb)) := by
        simp only [encodeFin, hl.layout, hm, hk, hnormal, if_false]
        rw [h.binade hm, show ((e : Int) - bias + bias).toNat = e by omega, Nat.shiftLeft_eq e, Nat.add_assoc]
      rw [hcode, decodeElem_parts hl z (by omega) (by omega), if_neg (by omega), h.value, Nat.add_sub_cancel' (by omega)]

theorem roundTo_decoded {code : Nat} {z : Bool} {m : Rat} (h : decodeElem t code = .fin z m) (y : Bool) :
    decodeElem t (roundTo t (.fin y m)) = .fin y m := by
  obtain ⟨e, k, hon⟩ := onFormat_of_decode hl h
  have hround : roundTo t (.fin y m) = encodeFin t y m := by
    simp only [roundTo, drainTo, hon.quantMag_eq hl, gt_iff_lt, not_lt.mpr (hon.le_maxFin hl), if_false]
  rw [hround, hon.decode_encode hl]

end

/-! ### Lanes -/

theorem isFloatLane_not_int {t : Nat} (h : isFloatLane t = true) : isIntLane t = false := by
  simp only [isFloatLane, Bool.or_eq_true, decide_eq_true_eq] at h
  obtain (rfl | rfl) | rfl := h <;> decide

theorem decodeElem_nonneg {t code : Nat} (ht : isFloatLane t = true) {z : Bool} {m : Rat} (h : decodeElem t code = .fin z m) : 0 ≤ m := by
  obtain ⟨eb, mb, bias, hl⟩ := isFloatLane_layout ht
  obtain ⟨e, k, hon⟩ := onFormat_of_decode hl h
  exact hon.nonneg

theorem Num.isFin_iff {v : Num} : v.isFin = true ↔ ∃ z m, v = .fin z m := by
  cases v <;> simp [Num.isFin]

/-- The sign given to an exact zero does not matter to any other result. -/
theorem Num.ofRat_sign {q : Rat} (h : q ≠ 0) (z : Bool) : Num.ofRat q z = Num.ofRat q := by simp [Num.ofRat, h]

theorem Num.add_fin {x y : Num} (hx : x.isFin = true) (hy : y.isFin = true) (h : x.val + y.val ≠ 0) : x.add y = Num.ofRat (x.val + y.val) := by
  obtain ⟨s, m, rfl⟩ := Num.isFin_iff.mp hx
  obtain ⟨t, n, rfl⟩ := Num.isFin_iff.mp hy
  exact Num.ofRat_sign h _

theorem Num.eq_fin {x y : Num} (hx : x.isFin = true) (hy : y.isFin = true) : x.eq y = decide (x.val = y.val) := by
  obtain ⟨s, m, rfl⟩ := Num.isFin_iff.mp hx
  obtain ⟨t, n, rfl⟩ := Num.isFin_iff.mp hy
  rfl

theorem Num.lt_fin {x y : Num} (hx : x.isFin = true) (hy : y.isFin = true) : x.lt false y = decide (x.val < y.val) := by
  obtain ⟨s, m, rfl⟩ := Num.isFin_iff.mp hx
  obtain ⟨t, n, rfl⟩ := Num.isFin_iff.mp hy
  exact Bool.or_false _

theorem Num.val_neg {x : Num} : x.neg.val = -x.val := by
  obtain s | s | ⟨_ | _, m⟩ := x <;> simp [Num.neg, Num.val]

theorem Num.isFin_neg {x : Num} : x.neg.isFin = x.isFin := by cases x <;> rfl

theorem Num.add_neg_fin {x y : Num} (hx : x.isFin = true) (hy : y.isFin = true) (h : x.val - y.val ≠ 0) :
    x.add y.neg = Num.ofRat (x.val - y.val) := by
  rw [sub_eq_add_neg, ← Num.val_neg] at h ⊢
  exact Num.add_fin hx (Num.isFin_neg.trans hy) h

theorem Num.mul_fin {x y : Num} (hx : x.isFin = true) (hy : y.isFin = true) : (x.mul y).isFin = true ∧ (x.mul y).val = x.val * y.val := by
  obtain ⟨s, m, rfl⟩ := Num.isFin_iff.mp hx
  obtain ⟨t, n, rfl⟩ := Num.isFin_iff.mp hy
  refine ⟨rfl, ?_⟩
  cases s <;> cases t <;> simp [Num.mul, Num.val]

/-- The product of numbers with magnitudes, not zero, is that of their values. -/
theorem Num.fin_mul {s t : Bool} {m n : Rat} (hm : 0 ≤ m) (hn : 0 ≤ n) (h : (Num.fin s m).val * (Num.fin t n).val ≠ 0) :
    (Num.fin s m).mul (.fin t n) = Num.ofRat ((Num.fin s m).val * (Num.fin t n).val) := by
  have hmn : 0 ≤ m * n := mul_nonneg hm hn
  have hne : m * n ≠ 0 := by
    intro h0
    apply h
    cases s <;> cases t <;> simp [Num.val, h0]
  have hpos : 0 < m * n := lt_of_le_of_ne hmn hne.symm
  cases s <;> cases t <;> simp [Num.mul, Num.ofRat, Num.val, hne, hpos, not_lt.mpr hmn]

section
variable {t a b : Nat} (ht : isFloatLane t = true) (ha : (decodeElem t a).isFin = true) (hb : (decodeElem t b).isFin = true)
include ht ha

theorem vAbs_fin : ∃ k, vAbs t a = some k ∧ (decodeElem t k).isFin = true ∧ (decodeElem t k).val = |(decodeElem t a).val| := by
  obtain ⟨eb, mb, bias, hl⟩ := isFloatLane_layout ht
  obtain ⟨z, m, hfin⟩ := Num.isFin_iff.mp ha
  have hm := decodeElem_nonneg ht hfin
  refine ⟨roundTo t (.fin false m), by simp [vAbs, isFloatLane_not_int ht, laneNum, hfin, Num.abs], ?_⟩
  rw [roundTo_decoded hl hfin, hfin]
  refine ⟨rfl, ?_⟩
  cases z <;> simp [Num.val, abs_of_nonneg hm]

theorem vNeg_fin : ∃ k, vNeg t a = some k ∧ (decodeElem t k).isFin = true ∧ (decodeElem t k).val = -(decodeElem t a).val := by
  obtain ⟨eb, mb, bias, hl⟩ := isFloatLane_layout ht
  obtain ⟨z, m, hfin⟩ := Num.isFin_iff.mp ha
  refine ⟨roundTo t (.fin (!z) m), by simp [vNeg, isFloatLane_not_int ht, laneNum, hfin, Num.neg], ?_⟩
  rw [roundTo_decoded hl hfin, hfin]
  refine ⟨rfl, ?_⟩
  cases z <;> simp [Num.val]

include hb

theorem laneNum_mul_fin (h : (decodeElem t a).val * (decodeElem t b).val ≠ 0) :
    (laneNum t a).mul (laneNum t b) = Num.ofRat ((decodeElem t a).val * (decodeElem t b).val) := by
  obtain ⟨s, m, hm⟩ := Num.isFin_iff.mp ha
  obtain ⟨z, n, hn⟩ := Num.isFin_iff.mp hb
  rw [hm, hn] at h
  rw [laneNum, laneNum, hm, hn]
  exact Num.fin_mul (decodeElem_nonneg ht hm) (decodeElem_nonneg ht hn) h

theorem vAdd_fin (sat : Bool) (h : (decodeElem t a).val + (decodeElem t b).val ≠ 0) :
    vAdd sat t a b = roundTo t (Num.ofRat ((decodeElem t a).val + (decodeElem t b).val)) := by
  rw [vAdd, isFloatLane_not_int ht, if_neg Bool.false_ne_true, laneNum, laneNum, Num.add_fin ha hb h]

theorem vSub_fin (sat : Bool) (h : (decodeElem t a).val - (decodeElem t b).val ≠ 0) :
    vSub sat t a b = roundTo t (Num.ofRat ((decodeElem t a).val - (decodeElem t b).val)) := by
  rw [vSub, isFloatLane_not_int ht, if_neg Bool.false_ne_true, laneNum, laneNum, Num.add_neg_fin ha hb h]

theorem vMul_fin (sat : Bool) (h : (decodeElem t a).val * (decodeElem t b).val ≠ 0) :
    vMul sat t a b = roundTo t (Num.ofRat ((decodeElem t a).val * (decodeElem t b).val)) := by
  rw [vMul, isFloatLane_not_int ht, if_neg Bool.false_ne_true, laneNum_mul_fin ht ha hb h]

omit ht in
theorem vFma_fin {d : Nat} (hd : (decodeElem t d).isFin = true) (h : (decodeElem t a).val * (decodeElem t b).val + (decodeElem t d).val ≠ 0) :
    vFma t a b d = roundTo t (Num.ofRat ((decodeElem t a).val * (decodeElem t b).val + (decodeElem t d).val)) := by
  obtain ⟨hfin, hval⟩ := Num.mul_fin ha hb
  rw [← hval] at h ⊢
  rw [vFma, laneNum, laneNum, laneNum, Num.add_fin hfin hd h]

theorem vCmp_fin (fn : Nat) : fn < 6 → vCmp t fn a b = match fn with
    | 0 => decide ((decodeElem t a).val = (decodeElem t b).val) | 1 => decide ((decodeElem t a).val ≠ (decodeElem t b).val)
    | 2 => decide ((decodeElem t a).val < (decodeElem t b).val) | 3 => decide ((decodeElem t a).val ≤ (decodeElem t b).val)
    | 4 => decide ((decodeElem t b).val < (decodeElem t a).val) | _ => decide ((decodeElem t b).val ≤ (decodeElem t a).val) := by
  intro hfn
  have heq := Num.eq_fin ha hb
  have hlt := Num.lt_fin ha hb
  have hgt := Num.lt_fin hb ha
  rw [vCmp, isFloatLane_not_int ht, if_neg Bool.false_ne_true]
  simp only [laneNum, heq, hlt, hgt, ← Bool.decide_or, ← decide_not, ne_eq, le_iff_lt_or_eq, eq_comm (a := (decodeElem t b).val)]
  interval_cases fn <;> rfl

end

theorem vCmp_order {t : Nat} (ht : isFloatLane t = true) (a b : Nat) :
    vCmp t 6 a b = ((decodeElem t a).isNan || (decodeElem t b).isNan) ∧ vCmp t 7 a b = !((decodeElem t a).isNan || (decodeElem t b).isNan) := by
  simp only [vCmp, isFloatLane_not_int ht, laneNum, Bool.false_eq_true, if_false, and_self]

end Sys2Proof.Machine
end

section
/-!
PROOFS. A reduction over its elements (05 R130), and what a vector command computes in a lane: the extremes go by the order of numbers, in which
-0 lies below +0; the count and the ledger gather element by element.
-/

namespace Sys2Proof.Machine

/-! ### The order of numbers -/

/-- Where a number other than a NaN stands: below, among or above the finite ones, then its value, then -0 before +0. -/
def Num.rank : Num → Int ×ₗ Rat ×ₗ Bool
  | .inf true => toLex (-1, toLex (0, false))
  | .fin s m => toLex (0, toLex ((Num.fin s m).val, decide (m = 0) && !s))
  | _ => toLex (1, toLex (0, false))

theorem Num.val_fin_eq_zero {s : Bool} {m : Rat} : (Num.fin s m).val = 0 ↔ m = 0 := by cases s <;> simp [Num.val]

theorem Num.lt_iff_rank {a b : Num} (ha : a.isNan = false) (hb : b.isNan = false) : a.lt true b = true ↔ a.rank < b.rank := by
  match a, b, ha, hb with
  | .inf s, .inf t, _, _ => cases s <;> cases t <;> simp [Num.lt, Num.rank, Prod.Lex.lt_iff]
  | .inf s, .fin t n, _, _ => cases s <;> simp [Num.lt, Num.rank, Prod.Lex.lt_iff]
  | .fin s m, .inf t, _, _ => cases t <;> simp [Num.lt, Num.rank, Prod.Lex.lt_iff]
  | .fin s m, .fin t n, _, _ =>
    have hm := Num.val_fin_eq_zero (s := s) (m := m)
    have hn := Num.val_fin_eq_zero (s := t) (m := n)
    simp only [Num.lt, Num.rank, Prod.Lex.lt_iff, ofLex_toLex, lt_self_iff_false, false_or, true_and, Bool.or_eq_true, decide_eq_true_eq]
    refine or_congr Iff.rfl ?_
    by_cases h : (Num.fin s m).val = (Num.fin t n).val
    · by_cases hzero : m = 0
      · obtain rfl : n = 0 := by rw [← hn, ← h, hm, hzero]
        subst hzero
        cases s <;> cases t <;> simp [h]
      · have : n ≠ 0 := by rwa [ne_eq, ← hn, ← h, hm]
        simp [hzero, this]
    · have : m = 0 → n ≠ 0 := fun h0 h1 => h (by rw [hm.mpr h0, hn.mpr h1])
      simp +contextual [h, this]

/-- The first number goes beyond the second: below it for REDMIN, above it for the other extremes. -/
def goesBeyond (o : Nat) (v b : Num) : Bool := if o = 0x62 then v.lt true b else b.lt true v

section
variable {o : Nat} {u v b : Num} (hu : u.isNan = false) (hv : v.isNan = false) (hb : b.isNan = false)

include hv in
theorem goesBeyond_self : goesBeyond o v v = false := by
  rw [Bool.eq_false_iff]
  unfold goesBeyond
  split <;> simp [Num.lt_iff_rank hv hv]

include hu hv hb

theorem goesBeyond_trans (h : goesBeyond o u v = true) (h' : goesBeyond o v b = true) : goesBeyond o u b = true := by
  unfold goesBeyond at *
  split at h <;> simp_all only [if_true, if_false, Num.lt_iff_rank]
  · exact h.trans h'
  · exact h'.trans h

theorem goesBeyond_of_not (h : goesBeyond o u b = true) (h' : goesBeyond o v b = false) : goesBeyond o u v = true := by
  rw [Bool.eq_false_iff] at h'
  unfold goesBeyond at *
  split at h <;> simp_all only [if_true, if_false, ne_eq, Num.lt_iff_rank, not_lt]
  · exact h.trans_le h'
  · exact h'.trans_lt h

end

/-! ### Folding the elements -/

/-- What a reduction has gathered from a list of elements. -/
def redFold (c : Slot) (l : List Nat) : RedAcc := l.zipIdx.foldl (fun g p => redElem c g p.2 p.1) RedAcc.zero

theorem redFold_snoc (c : Slot) (l : List Nat) (k : Nat) : redFold c (l ++ [k]) = redElem c (redFold c l) l.length k := by
  simp [redFold, List.zipIdx_append]

section
variable {c : Slot} (hopc : c.opc = 0x61 ∨ c.opc = 0x62 ∨ c.opc = 0x63)
include hopc

/-- One element of an extreme: it takes the place of the best one where it goes beyond it. -/
theorem redElem_extreme (g : RedAcc) (i k : Nat) (hk : (laneNum (vOt c) k).isNan = false) : redElem c g i k =
    match g.best with
    | none => { g with count := g.count + 1, best := some (laneNum (vOt c) k), bestI := i }
    | some b => if goesBeyond c.opc (laneNum (vOt c) k) b then { g with count := g.count + 1, best := some (laneNum (vOt c) k), bestI := i }
      else { g with count := g.count + 1 } := by
  rcases hopc with h | h | h <;> simp only [redElem, h, hk, goesBeyond] <;> cases g.best <;> rfl

/-- The extreme found is that of an element which none goes beyond, the first such one. -/
theorem redFold_extreme {l : List Nat} (hne : l ≠ []) (hnan : ∀ k ∈ l, (laneNum (vOt c) k).isNan = false) :
    ∃ i k, l[i]? = some k ∧ (redFold c l).best = some (laneNum (vOt c) k) ∧ (redFold c l).bestI = i ∧
      (∀ j ∈ l, goesBeyond c.opc (laneNum (vOt c) j) (laneNum (vOt c) k) = false) ∧
      ∀ j q, j < i → l[j]? = some q → goesBeyond c.opc (laneNum (vOt c) k) (laneNum (vOt c) q) = true := by
  induction l using List.reverseRecOn with
  | nil => exact absurd rfl hne
  | append_singleton l x ih =>
    have hx := hnan x (by simp)
    rw [redFold_snoc, redElem_extreme hopc _ _ _ hx]
    by_cases hl : l = []
    · subst hl
      exact ⟨0, x, rfl, rfl, rfl, by simpa using goesBeyond_self hx, fun j q hj => absurd hj (by omega)⟩
    obtain ⟨i, k, hik, hbest, hi, hmax, hfirst⟩ := ih hl fun k hk => hnan k (by simp [hk])
    have hlt : i < l.length := (List.getElem?_eq_some_iff.mp hik).1
    have hknan := hnan k (by simp [List.mem_of_getElem? hik])
    simp only [hbest]
    split
    · next hbeyond =>
      have hpast : ∀ j ∈ l, goesBeyond c.opc (laneNum (vOt c) x) (laneNum (vOt c) j) = true := fun j hj =>
        goesBeyond_of_not hx (hnan j (by simp [hj])) hknan hbeyond (hmax j hj)
      refine ⟨l.length, x, by simp, rfl, rfl, fun j hj => ?_, fun j q hj hq => hpast q ?_⟩
      · obtain hj | rfl := List.mem_append.mp hj |>.imp id List.mem_singleton.mp
        · rw [Bool.eq_false_iff]
          intro hback
          have := goesBeyond_trans hx (hnan j (by simp [hj])) hx (hpast j hj) hback
          simp [goesBeyond_self hx] at this
        · exact goesBeyond_self hx
      · rw [List.getElem?_append_left hj] at hq
        exact List.mem_of_getElem? hq
    · next hwithin =>
      refine ⟨i, k, by rwa [List.getElem?_append_left hlt], rfl, hi, fun j hj => ?_, fun j q hj hq => hfirst j q hj ?_⟩
      · obtain hj | rfl := List.mem_append.mp hj |>.imp id List.mem_singleton.mp
        · exact hmax j hj
        · simpa using hwithin
      · rwa [List.getElem?_append_left (by omega)] at hq

end

/-- REDCNT: the number of elements not zero. -/
theorem redFold_count {c : Slot} (h : c.opc = 0x64) (l : List Nat) : (redFold c l).bestI = (l.filter fun k => redNonzero c k).length := by
  induction l using List.reverseRecOn with
  | nil => rfl
  | append_singleton l x ih =>
    rw [redFold_snoc, List.filter_append, List.length_append, ← ih]
    simp only [redElem, h]
    cases hx : redNonzero c x <;> simp [hx]

/-- REDSUM: the ledger of its elements, and at least one count for each that is not finite. -/
theorem redFold_sum {c : Slot} (h : c.opc = 0x60) (ht : vOt c ≠ 8) (hfn : vFn c < 2) (l : List Nat) :
    (redFold c l).led = ledgerOf (l.map fun k => (decodeElem (vOt c) k, sigWidth (vOt c))) ∧
      (l.filter fun k => !(decodeElem (vOt c) k).isFin).length ≤ (redFold c l).nf := by
  induction l using List.reverseRecOn with
  | nil => exact ⟨rfl, le_rfl⟩
  | append_singleton l x ih =>
    have hstep : ∀ g : RedAcc, redElem c g l.length x = { g with
        count := g.count + 1
        led := (g.led.addNum (decodeElem (vOt c) x) (sigWidth (vOt c))).1
        nf := g.nf + (g.led.addNum (decodeElem (vOt c) x) (sigWidth (vOt c))).2 } := fun g => by
      simp only [redElem, h, laneNum, if_neg ht, if_neg (show vFn c ≠ 2 by omega)]
    obtain ⟨hled, hnf⟩ := ih
    rw [redFold_snoc, hstep, List.map_append, List.map_singleton, ledgerOf_append_singleton, ← hled, List.filter_append, List.length_append]
    refine ⟨rfl, Nat.add_le_add hnf ?_⟩
    cases hx : decodeElem (vOt c) x <;> simp [Num.isFin, hx, Ledger.addNum]

/-- A lane of integers. -/
theorem laneOp_int (c : Slot) (scale tA tB : W32) (sel : Bool) (r : Rnd) {a b : Nat} (d : Nat) (ht : isIntLane (vOt c) = true)
    (ha : a < 2 ^ fmtBits (vOt c)) (hb : b < 2 ^ fmtBits (vOt c)) :
    let w := fmtBits (vOt c)
    let out := (laneOp c scale tA tB sel r a b d).code
    (c.opc = 0x40 → out = if vSat c then some (intSat (vOt c) (sgn w a + sgn w b)) else some ((a + b) % 2 ^ w)) ∧
    (c.opc = 0x41 → out = if vSat c then some (intSat (vOt c) (sgn w a - sgn w b)) else some ((a + 2 ^ w - b) % 2 ^ w)) ∧
    (c.opc = 0x42 → out = if vSat c then some (intSat (vOt c) (sgn w a * sgn w b)) else some (a * b % 2 ^ w)) ∧
    (c.opc = 0x43 → out = some (if sgn w a ≤ sgn w b then a else b)) ∧ (c.opc = 0x44 → out = some (if sgn w a ≤ sgn w b then b else a)) ∧
    (c.opc = 0x45 → out = if a = 2 ^ (w - 1) then none else some (if a < 2 ^ (w - 1) then a else 2 ^ w - a)) ∧
    (c.opc = 0x46 → out = if a = 2 ^ (w - 1) then none else some ((2 ^ w - a) % 2 ^ w)) ∧
    (c.opc = 0x47 → out = some (a &&& b)) ∧ (c.opc = 0x48 → out = some (a ||| b)) ∧ (c.opc = 0x49 → out = some (a ^^^ b)) ∧
    (c.opc = 0x4A → out = some (2 ^ w - 1 - a)) ∧
    (c.opc = 0x4B → out = some (a * 2 ^ (b % 256) % 2 ^ w)) ∧ (c.opc = 0x4C → out = some (a / 2 ^ (b % 256))) ∧
    (c.opc = 0x4D → out = some (sgn w a / 2 ^ (b % 256) % 2 ^ w).toNat) := by
  refine ⟨?_, ?_, ?_, ?_, ?_, ?_, ?_, ?_, ?_, ?_, ?_, ?_, ?_, ?_⟩ <;> intro h <;> simp only [laneOp, h]
  · rw [vAdd_int ht ha hb, apply_ite some]
  · rw [vSub_int ht ha hb, apply_ite some]
  · rw [vMul_int ht ha hb, apply_ite some]
  · rw [vMin_int ht ha hb]
  · rw [vMax_int ht ha hb]
  · exact vAbs_int ht ha
  · exact vNeg_int ht ha
  · rw [vNot_code ha]
  · rw [vShl_code]
  · rw [vShr_code ha]
  · rw [vShra_int ht ha]

/-- A lane of finite numbers. -/
theorem laneOp_fin (c : Slot) (scale tA tB : W32) (sel : Bool) (r : Rnd) {a b : Nat} (d : Nat) (ht : isFloatLane (vOt c) = true)
    (ha : (decodeElem (vOt c) a).isFin = true) (hb : (decodeElem (vOt c) b).isFin = true) :
    let t := vOt c
    let out := (laneOp c scale tA tB sel r a b d).code
    let u := decodeElem t a
    let v := decodeElem t b
    (c.opc = 0x40 → u.val + v.val ≠ 0 → out = some (roundTo t (Num.ofRat (u.val + v.val)))) ∧
    (c.opc = 0x45 → ∃ k, out = some k ∧ (decodeElem t k).isFin = true ∧ (decodeElem t k).val = |u.val|) ∧
    (c.opc = 0x46 → ∃ k, out = some k ∧ (decodeElem t k).isFin = true ∧ (decodeElem t k).val = -u.val) ∧
    (c.opc = 0x41 → u.val - v.val ≠ 0 → out = some (roundTo t (Num.ofRat (u.val - v.val)))) ∧
    (c.opc = 0x42 → u.val * v.val ≠ 0 → out = some (roundTo t (Num.ofRat (u.val * v.val)))) ∧
    (c.opc = 0x52 → (decodeElem t d).isFin = true → u.val * v.val + (decodeElem t d).val ≠ 0 →
      out = some (roundTo t (Num.ofRat (u.val * v.val + (decodeElem t d).val)))) := by
  refine ⟨?_, ?_, ?_, ?_, ?_, ?_⟩ <;> intro h <;> simp only [laneOp, h]
  · exact fun hne => congrArg some (vAdd_fin ht ha hb _ hne)
  · exact vAbs_fin ht ha
  · exact vNeg_fin ht ha
  · exact fun hne => congrArg some (vSub_fin ht ha hb _ hne)
  · exact fun hne => congrArg some (vMul_fin ht ha hb _ hne)
  · exact fun hd hne => congrArg some (vFma_fin ha hb hd hne)

theorem vLxF_eq (a : Nat) : vLxF a = (ledgerOf [(decodeElem 0 a, 24)]).word.toNat := rfl

/-- Settles O58: integers by two's complement, numbers by the exact result rounded once, reductions element by element. -/
theorem vectorLaneResults : Obligations.VectorLaneResults := by
  unfold Obligations.VectorLaneResults
  refine ⟨fun c scale tA tB sel r a b d => ?_, fun c l => ?_⟩
  · refine ⟨fun ht ha hb => ?_, fun ht ha hb => ?_, fun ht => vCmp_order ht a b, fun h => by simp only [laneOp, h],
      fun h hf => by simp only [laneOp, h, vCvt, hf, if_true]; rfl, fun h => by simp only [laneOp, h, vLxAdd],
      fun h => by simp only [laneOp, h, vLxCvt], fun h => by simp only [laneOp, h, vLxF_eq]⟩
    · obtain ⟨hadd, hsub, hmul, hmin, hmax, habs, hneg, hand, hor, hxor, hnot, hshl, hshr, hshra⟩ := laneOp_int c scale tA tB sel r d ht ha hb
      exact ⟨hadd, hsub, hmul, hmin, hmax, habs, hneg, hand, hor, hxor, hnot, hshl, hshr, hshra, vCmp_int ht ha hb⟩
    · obtain ⟨hadd, habs, hneg, hsub, hmul, hfma⟩ := laneOp_fin c scale tA tB sel r d ht ha hb
      exact ⟨hadd, fun _ => habs, fun _ => hneg, hsub, hmul, hfma, vCmp_fin ht ha hb⟩
  · refine ⟨fun hne hnan => ⟨fun h => ?_, fun h => ?_, fun h => ?_⟩, fun h => ?_, fun h ht hfn => ?_, fun h ht hfn => (redFold_sum h ht hfn l).2⟩
    · obtain ⟨i, k, hik, hbest, -, hmax, -⟩ := redFold_extreme (.inl h) hne hnan
      exact ⟨k, List.mem_of_getElem? hik, hbest, fun j hj => by simpa [goesBeyond, laneNum, h] using hmax j hj⟩
    · obtain ⟨i, k, hik, hbest, -, hmin, -⟩ := redFold_extreme (.inr (.inl h)) hne hnan
      exact ⟨k, List.mem_of_getElem? hik, hbest, fun j hj => by simpa [goesBeyond, laneNum, h] using hmin j hj⟩
    · obtain ⟨i, k, hik, hbest, hi, hmax, hfirst⟩ := redFold_extreme (.inr (.inr h)) hne hnan
      have hindex : redResult c (redFold c l) = i := by simp only [redResult, h, hbest, hi]
      exact ⟨i, k, hik, hindex, fun j hj => by simpa [goesBeyond, laneNum, h] using hmax j hj,
        fun j q hj hq => by simpa [goesBeyond, laneNum, h] using hfirst j q hj hq⟩
    · rw [← redFold_count h]
      simp only [redResult, h]
      rfl
    · rw [← (redFold_sum h ht hfn l).1]
      simp only [redResult, h]
      obtain hfn | hfn : vFn c = 0 ∨ vFn c = 1 := by omega
      · simp only [hfn, if_true]
        rfl
      · simp only [hfn, one_ne_zero, if_false, if_true]
        rfl

end Sys2Proof.Machine
end

section
/-!
PROOFS. What a beat of the VE leaves alone (05 R107): the counts and records that it makes touch the window, the trackers, the repair unit's
wear and the packets to come only, and the end of a beat without a trip leaves the two consist units as they were.
-/

namespace Sys2Proof.Machine

/-! ### Counts and records -/

/-- Everything but the window, the packets to come, the wear counts, the trackers and the use of free values is as before. -/
def onlyRecords (s t : State) : Prop :=
  t = { s with csr := t.csr, ring := t.ring, rep := t.rep, trk := t.trk, freeCount := t.freeCount }

namespace onlyRecords

theorem refl (s : State) : onlyRecords s s := rfl

theorem trans {s t u : State} (h : onlyRecords s t) (h' : onlyRecords t u) : onlyRecords s u := by
  rw [onlyRecords] at *
  rw [h', h]

theorem ite {s t u : State} {p : Prop} [Decidable p] (ht : onlyRecords s t) (hu : onlyRecords s u) : onlyRecords s (if p then t else u) := by
  split
  · exact ht
  · exact hu

theorem foldl {α : Type} {f : State → α → State} {l : List α} (hf : ∀ a ∈ l, ∀ s, onlyRecords s (f s a)) (s : State) :
    onlyRecords s (l.foldl f s) := by
  induction l generalizing s with
  | nil => exact refl s
  | cons a l ih => exact (hf a (by simp) s).trans (ih (fun a ha => hf a (by simp [ha])) _)

theorem setVec {s t : State} (h : onlyRecords s t) (v : Vec) : onlyRecords { s with vec := v } { t with vec := v } := by
  rw [onlyRecords] at *
  rw [h]

section
variable {s t : State} (h : onlyRecords s t)
include h

theorem eq : t = { s with csr := t.csr, ring := t.ring, rep := t.rep, trk := t.trk, freeCount := t.freeCount } := h

theorem spm : t.spm = s.spm := by rw [h.eq]
theorem vec : t.vec = s.vec := by rw [h.eq]
theorem sA : t.sA = s.sA := by rw [h.eq]
theorem sX : t.sX = s.sX := by rw [h.eq]
theorem cA : t.cA = s.cA := by rw [h.eq]
theorem cX : t.cX = s.cX := by rw [h.eq]
theorem cke : t.cke = s.cke := by rw [h.eq]

end

end onlyRecords

theorem onlyTrackers.records {s t : State} (h : onlyTrackers s t) : onlyRecords s t := by
  rw [onlyTrackers] at h
  rw [onlyRecords, h]

namespace State

theorem onlyRecords_wr (s : State) (off : Nat) (v : W64) : onlyRecords s (s.wr off v) := rfl
theorem onlyRecords_setRf (s : State) (off hi lo v : Nat) : onlyRecords s (s.setRf off hi lo v) := rfl
theorem onlyRecords_raise (s : State) (src : Nat) : onlyRecords s (s.raise src) := (s.onlyTrackers_raise src).records
theorem onlyRecords_numcAdd (s : State) (i k : Nat) : onlyRecords s (s.numcAdd i k) := (s.onlyTrackers_numcAdd i k).records

theorem onlyRecords_raiseCause (s : State) (src cause : Nat) : onlyRecords s (s.raiseCause src cause) :=
  (s.onlyRecords_raise src).trans (onlyRecords_setRf ..)

theorem onlyRecords_perf (s : State) (n k : Nat) : onlyRecords s (s.perf n k) :=
  .ite (.refl s) (.ite ((s.onlyRecords_setRf ..).trans ((onlyRecords_setRf ..).trans ((onlyRecords_setRf ..).trans (onlyRecords_raise ..))))
    (s.onlyRecords_setRf ..))

theorem onlyRecords_noteAddr (s : State) (a : Nat) : onlyRecords s (s.noteAddr a) := .ite (.refl s) (s.onlyRecords_wr ..)

theorem onlyRecords_bankCount (s : State) (w : Nat) : onlyRecords s (s.bankCount w) := by
  refine .ite ?_ (s.onlyRecords_setRf ..)
  have hevent := (s.onlyRecords_setRf (0x180 + 8 * (w / 16 % 32 / 2)) (32 * (w / 16 % 32 % 2) + 15) (32 * (w / 16 % 32 % 2))
    (satInc 16 (s.rf (0x180 + 8 * (w / 16 % 32 / 2)) (32 * (w / 16 % 32 % 2) + 15) (32 * (w / 16 % 32 % 2))))).trans (onlyRecords_raise _ evEccThreshold)
  split
  · exact hevent.trans (.ite (.refl _) ((onlyRecords_setRf ..).trans (onlyRecords_raiseCause ..)))
  · exact hevent

theorem onlyRecords_countIdle (s : State) (l : List Nat) : onlyRecords s (s.countIdle l) :=
  onlyRecords.foldl (fun _ _ s => (s.onlyRecords_bankCount _).trans (onlyRecords_noteAddr ..)) s

theorem onlyRecords_faultPut (s : State) (i : Nat) (w loc : W64) : onlyRecords s (s.faultPut i w loc) :=
  (((s.onlyRecords_wr ..).trans (onlyRecords_wr ..)).trans (onlyRecords_wr ..)).trans (onlyRecords_wr ..)

theorem onlyRecords_fault (s : State) (unit kind : Nat) (who : Option (Sid × W16)) (loc : Nat) : onlyRecords s (s.fault unit kind who loc) := by
  unfold State.fault State.faultLog
  dsimp only
  split
  · exact s.onlyRecords_setRf ..
  · exact (s.onlyRecords_faultPut ..).trans ((onlyRecords_setRf ..).trans (onlyRecords_raise ..))

theorem onlyRecords_setMark (s : State) (cls u : Nat) : onlyRecords s (s.setMark cls u) := by
  refine .ite (.refl s) (.ite ((s.onlyRecords_setRf ..).trans (onlyRecords_raiseCause ..)) ?_)
  split
  · exact (s.onlyRecords_setRf ..).trans ((onlyRecords_setRf ..).trans (onlyRecords_raiseCause ..))
  · exact s.onlyRecords_setRf ..

theorem onlyRecords_wearParity (s : State) (cls u : Nat) : onlyRecords s (s.wearParity cls u) :=
  .ite (onlyRecords.trans (t := s.modWear cls u _) rfl (.ite (.refl _) (onlyRecords_setMark ..))) rfl

theorem onlyRecords_trip_none (s : State) (n : Nat) : onlyRecords s (s.trip n none) := (s.onlyTrackers_trip_none n).records

theorem onlyRecords_trkParity_none (s : State) (n : Nat) : onlyRecords s (s.trkParity n none) := by
  refine .ite (.refl s) ?_
  have hfault : onlyRecords s (((s.modTrk n fun t => { t with bad := false, perr := true }).fault 0x08 3 none n).raiseCause evStateParity 2) :=
    onlyRecords.trans (t := s.modTrk n _) rfl ((onlyRecords_fault ..).trans (onlyRecords_raiseCause ..))
  dsimp only
  split
  · exact hfault.trans ((onlyRecords_wearParity ..).trans (onlyRecords_trip_none ..))
  · exact hfault.trans (onlyRecords_trip_none ..)

/-- Observations merged outside a consist: a trip stays with the slot. -/
theorem onlyRecords_merge_free (s : State) (slot : Option Nat) (amax : W32) (c : Cnts) (elems : Nat) : onlyRecords s (s.merge slot none amax c elems) := by
  cases slot with
  | none => exact onlyRecords.foldl (fun _ _ s => s.onlyRecords_numcAdd ..) s
  | some n =>
    have hcount : ∀ {t : State} (f : Trk → Trk) (p : Prop) [Decidable p], onlyRecords t (if p then (t.modTrk n f).raise evTrkSat else t.modTrk n f) :=
      fun f p _ => .ite (onlyRecords.trans (t := State.modTrk _ n f) rfl (onlyRecords_raise ..)) rfl
    exact (s.onlyRecords_trkParity_none n).trans ((hcount _ _).trans (.ite (onlyRecords_trip_none ..) (.refl _)))

/-- Observations of a command without a slot. -/
theorem onlyRecords_merge_slotless (s : State) (cs : Option Nat) (amax : W32) (c : Cnts) (elems : Nat) : onlyRecords s (s.merge none cs amax c elems) :=
  onlyRecords.foldl (fun _ _ s => s.onlyRecords_numcAdd ..) s

theorem onlyRecords_rduError_free (s : State) (tag : W16) : onlyRecords s (s.rduError none tag) :=
  onlyRecords.trans (t := s.freeWord.1) rfl ((onlyRecords_setRf ..).trans ((onlyRecords_fault ..).trans (onlyRecords_raise ..)))

end State

/-! ### The end of a beat -/

/-- A beat of writes is under way. -/
def State.inBeat (s : State) : State := { s with cA := { s.cA with beat := true }, cX := { s.cX with beat := true } }

/-- Everything but the mark of a beat under way, and of the abort that it met, is as before. -/
def beatEnded (s t : State) : Prop :=
  t = { s with cA := { s.cA with beat := false, met := none }, cX := { s.cX with beat := false, met := none } }

theorem State.endBeat_untripped {s : State} {st : Sid} (h : (s.csu st).met = none) :
    s.endBeat st = s.modCsu st fun c => { c with beat := false, met := none } := by simp only [State.endBeat, h]

/-- A beat that meets no abort ends with what its writes made. -/
theorem State.asBeat_untripped {s : State} {f : State → State} (hA : (f s.inBeat).cA.met = none) (hX : (f s.inBeat).cX.met = none) :
    beatEnded (f s.inBeat) (s.asBeat f) := by
  have hopen : s.asBeat f = ((f s.inBeat).endBeat .a).endBeat .x := rfl
  rw [beatEnded, hopen, State.endBeat_untripped (st := .a) hA, State.endBeat_untripped (s := (f s.inBeat).modCsu .a _) (st := .x) hX]
  rfl

theorem State.retryStores_idle {s : State} {st : Sid} (h : (s.str st).wait = none) : s.retryStores st = s := by simp [State.retryStores, h]

/-- The work at the VE's front may go on with its next beat, which meets no trip and wakes no store. -/
structure BeatGoes (s : State) (w : VeWork) (rest : List VeWork) : Prop where
  front : s.vec.ve = w :: rest
  goes : s.veHeld w = false
  noBlock : s.cke.blocks = []
  noWait : s.sX.wait = none
  noTrip : s.cA.met = none ∧ s.cX.met = none

theorem State.blockIn_nil {s : State} (h : s.cke.blocks = []) (w : VeWork) : s.blockIn w = none := by
  rw [State.blockIn, List.findSome?_eq_none_iff]
  intro p _
  split
  · rfl
  · exact s.writeBlock_nil _ _ _ _ h

/-- The beat of a work that nothing holds. -/
theorem execVeBeat_goes {s : State} {w : VeWork} {rest : List VeWork} (h : BeatGoes s w rest) (hupd : ∀ m ∈ w.mems, m.c.opc ≠ 0x68)
    (hX : (s.inBeat.veBeat w []).sX.wait = none) (htrip : (s.inBeat.veBeat w []).cA.met = none ∧ (s.inBeat.veBeat w []).cX.met = none) :
    ∃ t, exec (.veBeat []) s = .next t ∧ beatEnded (s.inBeat.veBeat w []) t := by
  have hended := State.asBeat_untripped (s := s) (f := fun s => s.veBeat w []) htrip.1 htrip.2
  have hany : (w.mems.any fun m => decide (m.c.opc = 0x68)) = false := by simpa using hupd
  have hexec : exec (.veBeat []) s = .next ((s.asBeat fun s => s.veBeat w []).retryStores .x) := by
    change execVeBeat [] s = _
    simp only [execVeBeat, h.front, h.goes, hany, State.blockIn_nil h.noBlock, Bool.or_self, Bool.false_eq_true, if_false, List.map_nil]
  refine ⟨_, hexec.trans ?_, hended⟩
  rw [State.retryStores_idle]
  rw [State.str, show (s.asBeat _).sX = _ from congrArg State.sX hended]
  exact hX

/-- The block of an update that nothing holds. -/
theorem execUpdfBlockDone_goes {s : State} {w : VeWork} {rest : List VeWork} {m : VeMem} (h : BeatGoes s w rest) (hm : w.mems = [m]) (hupd : m.c.opc = 0x68)
    (hX : (s.inBeat.updStep w m).sX.wait = none) (htrip : (s.inBeat.updStep w m).cA.met = none ∧ (s.inBeat.updStep w m).cX.met = none) :
    ∃ t, exec .updfBlockDone s = .next t ∧ beatEnded (s.inBeat.updStep w m) t := by
  have hended := State.asBeat_untripped (s := s) (f := fun s => s.updStep w m) htrip.1 htrip.2
  have hexec : exec .updfBlockDone s = .next ((s.asBeat fun s => s.updStep w m).retryStores .x) := by
    change execUpdfBlockDone s = _
    simp only [execUpdfBlockDone, h.front, hm, hupd, h.goes, State.blockIn_nil h.noBlock, ne_eq, not_true, decide_false, Bool.or_self, Bool.false_eq_true,
      if_false]
  refine ⟨_, hexec.trans ?_, hended⟩
  rw [State.retryStores_idle]
  rw [State.str, show (s.asBeat _).sX = _ from congrArg State.sX hended]
  exact hX

end Sys2Proof.Machine
end

section
/-!
PROOFS. Writes outside a consist (05 R107, 06 R136): where no log diverts an access and no bank is gone, a write of any length changes exactly
the bytes it names, and a read of good words reads them as they are.
-/

namespace Sys2Proof.Machine

/-! ### Bytes as addressed -/

/-- The bytes of a memory after (address, byte) pairs are written in order. -/
def putBytes (f : Nat → Byte) (l : List (Nat × Byte)) : Nat → Byte := l.foldl (fun f p => Function.update f p.1 p.2) f

/-- The pairs of consecutive bytes. -/
def pairsAt (a : Nat) (bs : List Byte) : List (Nat × Byte) := bs.zipIdx.map fun p => (a + p.2, p.1)

@[simp] theorem putBytes_nil (f : Nat → Byte) : putBytes f [] = f := rfl
theorem putBytes_cons (f : Nat → Byte) (p : Nat × Byte) (l : List (Nat × Byte)) : putBytes f (p :: l) = putBytes (Function.update f p.1 p.2) l := rfl
theorem putBytes_append (f : Nat → Byte) (l l' : List (Nat × Byte)) : putBytes f (l ++ l') = putBytes (putBytes f l) l' := List.foldl_append ..

/-- A byte that no pair names is as before. -/
theorem putBytes_of_notMem {f : Nat → Byte} {l : List (Nat × Byte)} {x : Nat} (h : x ∉ l.map (·.1)) : putBytes f l x = f x := by
  induction l generalizing f with
  | nil => rfl
  | cons p l ih =>
    simp only [List.map_cons, List.mem_cons, not_or] at h
    rw [putBytes_cons, ih h.2, Function.update_of_ne h.1]

/-- A byte holds what every pair that names it says. -/
theorem putBytes_of_mem {f : Nat → Byte} {l : List (Nat × Byte)} {x : Nat} {b : Byte} (h : (x, b) ∈ l) (hone : ∀ y, (x, y) ∈ l → y = b) :
    putBytes f l x = b := by
  induction l generalizing f with
  | nil => exact absurd h List.not_mem_nil
  | cons p l ih =>
    rw [putBytes_cons]
    by_cases hl : (x, b) ∈ l
    · exact ih hl fun y hy => hone y (by simp [hy])
    · have hp : p = (x, b) := ((List.mem_cons.mp h).resolve_right hl).symm
      have hlast : x ∉ l.map (·.1) := fun hx => by
        obtain ⟨q, hq, rfl⟩ := List.mem_map.mp hx
        exact hl (hone q.2 (by simp [hq]) ▸ hq)
      rw [putBytes_of_notMem hlast, hp, Function.update_self]

theorem pairsAt_cons (a : Nat) (b : Byte) (bs : List Byte) : pairsAt a (b :: bs) = (a, b) :: pairsAt (a + 1) bs := by
  simp [pairsAt, List.zipIdx_cons, List.zipIdx_succ, Nat.add_assoc, Nat.add_comm 1]

theorem pairsAt_append (a : Nat) (bs cs : List Byte) : pairsAt a (bs ++ cs) = pairsAt a bs ++ pairsAt (a + bs.length) cs := by
  induction bs generalizing a with
  | nil => rfl
  | cons b bs ih => rw [List.cons_append, pairsAt_cons, pairsAt_cons, ih, List.cons_append, List.length_cons, Nat.add_right_comm, Nat.add_assoc]

theorem putBytes_pairsAt (f : Nat → Byte) (a : Nat) (bs : List Byte) (x : Nat) :
    putBytes f (pairsAt a bs) x = if a ≤ x ∧ x < a + bs.length then bs.getD (x - a) 0 else f x := by
  induction bs generalizing a f with
  | nil => simp [pairsAt]
  | cons b bs ih =>
    rw [pairsAt_cons, putBytes_cons, ih, List.length_cons]
    obtain hx | rfl | hx := Nat.lt_trichotomy x a
    · rw [if_neg (by omega), if_neg (by omega), Function.update_of_ne (by simpa using hx.ne)]
    · rw [if_neg (by omega), if_pos (by omega), Nat.sub_self, Function.update_self]
      rfl
    · rw [Function.update_of_ne (by simpa using hx.ne'), show x - a = (x - (a + 1)) + 1 by omega]
      exact if_congr (by omega) rfl rfl

theorem chunk128_pairs {fuel a : Nat} {bs : List Byte} (h : bs.length + a % 128 ≤ 128 * fuel) :
    (chunk128 fuel a bs).flatMap (fun p => pairsAt p.1 p.2) = pairsAt a bs := by
  induction fuel generalizing a bs with
  | zero =>
    obtain rfl : bs = [] := List.length_eq_zero_iff.mp (by omega)
    rfl
  | succ fuel ih =>
    cases bs with
    | nil => rfl
    | cons b bs =>
      have hk := Nat.mod_lt a (by decide : 0 < 128)
      have hrest : ((b :: bs).drop (128 - a % 128)).length + (a + (128 - a % 128)) % 128 ≤ 128 * fuel := by
        rw [List.length_drop, show (a + (128 - a % 128)) % 128 = 0 by omega]
        omega
      rw [chunk128, List.flatMap_cons, ih hrest]
      · by_cases hlen : (b :: bs).length ≤ 128 - a % 128
        · rw [List.take_of_length_le hlen, List.drop_of_length_le hlen]
          exact List.append_nil _
        · conv_rhs => rw [← List.take_append_drop (128 - a % 128) (b :: bs), pairsAt_append, List.length_take_of_le (by omega)]
      · exact List.cons_ne_nil b bs

theorem runsOf_pairs (l : List (Nat × Byte)) : (runsOf l).flatMap (fun p => pairsAt p.1 p.2) = l := by
  induction l with
  | nil => rfl
  | cons p l ih =>
    obtain ⟨a, b⟩ := p
    rw [runsOf]
    split
    · next a' bs q hrun =>
      rw [hrun, List.flatMap_cons] at ih
      split
      · next hnext =>
        subst hnext
        rw [List.flatMap_cons, pairsAt_cons, List.cons_append, ih]
      · rw [List.flatMap_cons, List.flatMap_cons, ih]
        rfl
    · next hrun =>
      rw [hrun] at ih
      rw [← ih]
      rfl

/-! ### Writes in place -/

/-- Accesses reach the scratchpad itself: no consist has a log, the directory is sound, and every bank has a physical one. -/
structure InPlace (s : State) : Prop where
  logA : s.cA.log = []
  logX : s.cX.log = []
  dirA : s.cA.dirBad = false
  dirX : s.cX.dirBad = false
  gone : s.spm.gone = []

theorem InPlace.inBeat {s : State} (h : InPlace s) : InPlace s.inBeat := ⟨h.logA, h.logX, h.dirA, h.dirX, h.gone⟩

/-- From `s` to `t` these bytes are written; nothing else changes but the counts of changed bytes. -/
structure Stores (s t : State) (l : List (Nat × Byte)) : Prop where
  only : t = { s with spm := t.spm, cke := { s.cke with dirty := t.cke.dirty } }
  gone : t.spm.gone = s.spm.gone
  bytes : t.spm.byte = putBytes s.spm.byte l

namespace Stores

theorem refl (s : State) : Stores s s [] := ⟨rfl, rfl, rfl⟩

theorem trans {s t u : State} {l l' : List (Nat × Byte)} (h : Stores s t l) (h' : Stores t u l') : Stores s u (l ++ l') := by
  refine ⟨?_, h'.gone.trans h.gone, ?_⟩
  · rw [h'.only, h.only]
  · rw [h'.bytes, h.bytes, putBytes_append]

theorem inPlace {s t : State} {l : List (Nat × Byte)} (h : Stores s t l) (hs : InPlace s) : InPlace t := by
  obtain ⟨hlogA, hlogX, hdirA, hdirX, hgone⟩ := hs
  refine ⟨?_, ?_, ?_, ?_, h.gone.trans hgone⟩ <;> rw [h.only] <;> assumption

theorem foldl {α : Type} {f : State → α → State} {g : α → List (Nat × Byte)} (hf : ∀ s a, InPlace s → Stores s (f s a) (g a)) (l : List α) {s : State}
    (hs : InPlace s) : Stores s (l.foldl f s) (l.flatMap g) := by
  induction l generalizing s with
  | nil => exact refl s
  | cons a l ih =>
    have ha := hf s a hs
    exact ha.trans (ih (ha.inPlace hs))

end Stores

theorem Spm.byte_poke_all {m : Spm} (h : m.gone = []) (a : Nat) (bs : List Byte) (p : Bool) : (m.poke a bs p).byte = putBytes m.byte (pairsAt a bs) := by
  funext x
  rw [Spm.byte_poke, putBytes_pairsAt, h]
  simp

theorem Spm.gone_poke (m : Spm) (a : Nat) (bs : List Byte) (p : Bool) : (m.poke a bs p).gone = m.gone := by
  unfold Spm.poke
  dsimp only
  split <;> rfl

theorem State.dirty_only (s : State) (f : Bool) (a n : Nat) : s.dirty f a n = { s with cke := { s.cke with dirty := (s.dirty f a n).cke.dirty } } := by
  unfold State.dirty
  dsimp only
  split <;> rfl

theorem State.stores_poke {s : State} (h : s.spm.gone = []) (a : Nat) (bs : List Byte) (p : Bool) : Stores s (s.poke a bs p) (pairsAt a bs) := by
  refine ⟨?_, by rw [State.poke_spm, Spm.gone_poke], by rw [State.poke_spm, Spm.byte_poke_all h]⟩
  conv_lhs => rw [State.poke, State.dirty_only]
  rw [State.poke_spm]
  rfl

section
variable {s : State} (h : InPlace s) (st : Sid)
include h

theorem InPlace.owns (w : Nat) : Machine.owns s.cA w = false ∧ Machine.owns s.cX w = false := by simp [Machine.owns, h.logA, h.logX]

theorem State.untagged_inPlace (a : Nat) (bs : List Byte) (p : Bool) : s.untagged (some st) a bs p = s.poke a bs p := by
  obtain ⟨hA, hX⟩ := h.owns (a / 128)
  cases st <;> simp [State.untagged, hA, hX, State.csu]

theorem State.dirCheck_inPlace : (s.dirCheck .a).dirCheck .x = s := by simp [State.dirCheck, State.csu, h.dirA, h.dirX]

/-- A write that is part of no consist. -/
theorem State.stores_write (a : Nat) (bs : List Byte) (p : Bool) : Stores s (s.write (some st) none a bs p) (pairsAt a bs) := by
  rw [State.write, State.dirCheck_inPlace h, ← chunk128_pairs (fuel := bs.length / 128 + 2) (a := a) (bs := bs) (by omega)]
  refine Stores.foldl (fun s q hs => ?_) _ h
  change Stores s (s.untagged (some st) q.1 q.2 p) _
  rw [State.untagged_inPlace hs]
  exact State.stores_poke hs.gone ..

theorem State.stores_writePairs (l : List (Nat × Byte)) (p : Bool) : Stores s (s.writePairs (some st) none l p) l := by
  conv => arg 3; rw [← runsOf_pairs l]
  exact Stores.foldl (f := fun s (q : Nat × List Byte) => s.write (some st) none q.1 q.2 p) (fun s q hs => State.stores_write hs ..) _ h

/-! ### Reads in place -/

theorem State.touchWords_good (l : List Nat) (hgood : ∀ w ∈ l, s.spm.eccW w = .good) : s.touchWords (some st) l = s := by
  induction l with
  | nil => rfl
  | cons w l ih =>
    have hword : s.touchView (some st) (8 * w) 8 = s := State.touchView_good h.logA h.logX _ fun i hi => by
      rw [Spm.eccAt, show (8 * w + i) / 8 = w by omega]
      exact hgood w (by simp)
    rw [State.touchWords, List.foldl_cons, hword]
    exact ih fun w hw => hgood w (by simp [hw])

theorem State.eccAt_view (w : Nat) (viewer : Option Sid) : s.spm.eccAt (s.viewAddr viewer (8 * w)) = s.spm.eccW w := by
  rw [State.viewAddr_inPlace h.logA h.logX, Spm.eccAt, Nat.mul_div_cancel_left _ (by decide)]

end

end Sys2Proof.Machine
end

section
/-!
PROOFS. A beat of the VE, part by part (05 R107, R118, R121, R123): what its reads, its writes of mask bits and its end do.
-/

namespace Sys2Proof.Machine

/-! ### Lists by lane -/

theorem zipIdx_map_range {α : Type} (f : Nat → α) (n : Nat) : ((List.range n).map f).zipIdx = (List.range n).map fun i => (f i, i) := by
  apply List.ext_getElem <;> simp

theorem zip_map_range {α β : Type} (f : Nat → α) (g : Nat → β) (n : Nat) :
    ((List.range n).map f).zip ((List.range n).map g) = (List.range n).map fun i => (f i, g i) := List.zip_map' ..

/-! ### Reads -/

/-- A beat at its start. -/
def Beat.start (s : State) : Beat := { s := s, k := [], rd := [], idle := [], bad := none, short := none, mems := [], outs := [] }

/-- Reads of good words only note them. -/
theorem Beat.read_good {b : Beat} {c : Slot} {act idle : List (Nat × Nat)} {vidle : List Nat} (htouch : b.s.touchWords (some .x) (wordsOf act) = b.s)
    (hgood : ∀ w ∈ wordsOf act, b.s.veBad w = false) (hbad : b.bad = none) :
    b.read c act idle [] vidle = { b with
      rd := b.rd ++ wordsOf act, idle := b.idle ++ ((wordsOf idle).filter fun w => !(wordsOf act).contains w && b.s.veBad w) ++ vidle } := by
  have hnone : (wordsOf act).filter b.s.veBad = [] := by simpa using hgood
  simp only [Beat.read, hbad, htouch, hnone, List.nil_append, List.min?_nil, Option.map_none]

theorem Beat.loadVecs_none {b : Beat} {x : BeatCtx} {m : VeMem} (h : ∀ i, i < laneSrcs m.c → isVecSel (vSrc m.c i) = false) : b.loadVecs x m = (b, m) := by
  have hnone : ((upto (laneSrcs m.c)).filter fun i => isVecSel (vSrc m.c i)) = [] := by simpa [upto] using h
  simp [Beat.loadVecs, hnone]

theorem laneActive_free {s : State} {x : BeatCtx} {m : VeMem} (hgen : m.c.opc ≠ 0x6A) (hmsk : vMsk m.c ≠ 8) (hftq : ftqsOf m.c = []) (lane : Nat) :
    laneActive s x m lane = s.maskBit (vMsk m.c) lane := by simp [laneActive, hgen, hmsk, hftq]

/-- What a command does in a beat after its reads. -/
def Beat.compute (b : Beat) (x : BeatCtx) (m : VeMem) (act : List Bool) (src : List (List Nat)) : Beat × VeMem :=
  if isRed m.c then b.reduce x m act (src.getD 0 [])
  else if m.c.opc = 0x6A then (b.gen x m act, m)
  else if m.c.opc = 0x4E || m.c.opc = 0x51 then (b.bits x m act src, m)
  else if m.c.opc = 0x5C then b.compress x m act (src.getD 0 [])
  else if m.c.opc = 0x57 then b.quant x m act (src.getD 0 [])
  else ((b.lanes x m act src).1, if m.c.opc = 0x5D then
      { (b.lanes x m act src).2 with acc := { (b.lanes x m act src).2.acc with
        count := (b.lanes x m act src).2.acc.count + (act.filter id).length } }
    else (b.lanes x m act src).2)

theorem elementwise_opc {c : Slot} (h : elementwise c = true) :
    isRed c = false ∧ c.opc ≠ 0x6A ∧ c.opc ≠ 0x4E ∧ c.opc ≠ 0x51 ∧ c.opc ≠ 0x5C ∧ c.opc ≠ 0x57 ∧ c.opc ≠ 0x5D ∧ c.opc ≠ 0x68 := by
  simp only [elementwise, Bool.or_eq_true, Bool.and_eq_true, decide_eq_true_eq] at h
  refine ⟨?_, by omega, by omega, by omega, by omega, by omega, by omega, by omega⟩
  simp only [isRed, Bool.and_eq_false_iff, decide_eq_false_iff_not]
  omega

theorem Beat.compute_elementwise {b : Beat} {x : BeatCtx} {m : VeMem} (h : elementwise m.c = true) (act : List Bool) (src : List (List Nat)) :
    b.compute x m act src = b.lanes x m act src := by
  obtain ⟨hred, hgen, hcmp, hmset, hcprs, hq, hexpd, -⟩ := elementwise_opc h
  simp [Beat.compute, hred, hgen, hcmp, hmset, hcprs, hq, hexpd]

/-- A command's part of a beat: its active lanes, its sources, then what it does. -/
theorem Beat.member_eq {x : BeatCtx} {b b' : Beat} {m : VeMem} {act : List Bool} {src : List (List Nat)} (hopen : b.bad = none ∧ b.short = none)
    (hact : (upto x.n).map (laneActive b.s x m) = act) (hlate : expShort m act (laneElems x m act) = false)
    (hvecs : b.loadVecs x m = (b, m)) (hsrc : b.sources x m act (laneElems x m act) = (b', src)) (hbad : b'.bad = none) :
    Beat.member x b m = { (b'.compute x m act src).1 with mems := (b'.compute x m act src).1.mems ++ [(b'.compute x m act src).2] } := by
  simp only [Beat.member, hopen, Option.isSome_none, Bool.or_self, Bool.false_eq_true, if_false, hact, hlate, hvecs, hsrc, hbad]
  rfl

/-! ### Mask bits -/

/-- A word of 1,024 bits with some of them set or cleared. -/
def setBits (y : BitVec 1024) (l : List (Nat × Bool)) : BitVec 1024 :=
  l.foldl (fun (y : BitVec 1024) p => if p.2 then y ||| (1#1024 <<< p.1) else y &&& ~~~(1#1024 <<< p.1)) y

theorem setBits_append (y : BitVec 1024) (l l' : List (Nat × Bool)) : setBits y (l ++ l') = setBits (setBits y l) l' := List.foldl_append ..

theorem getLsbD_setBits_single {lane : Nat} (h : lane < 1024) (y : BitVec 1024) (i : Nat) (v : Bool) :
    (setBits y [(i, v)]).getLsbD lane = if lane = i then v else y.getLsbD lane := by
  have hone : (1#1024 <<< i).getLsbD lane = decide (lane = i) := by
    rw [BitVec.getLsbD_shiftLeft, BitVec.getLsbD_one, Bool.eq_iff_iff]
    simp only [Bool.and_eq_true, Bool.not_eq_true', decide_eq_true_eq, decide_eq_false_iff_not]
    omega
  cases v <;> simp only [setBits, List.foldl_cons, List.foldl_nil, if_true, Bool.false_eq_true, if_false, BitVec.getLsbD_or, BitVec.getLsbD_and,
    BitVec.getLsbD_not, hone, h] <;> by_cases hi : lane = i <;> simp [hi]

theorem getLsbD_setBits {lane : Nat} (h : lane < 1024) (y : BitVec 1024) (n : Nat) (p g : Nat → Bool) :
    (setBits y (((List.range n).filter p).map fun i => (i, g i))).getLsbD lane = if lane < n ∧ p lane = true then g lane else y.getLsbD lane := by
  induction n with
  | zero => simp [setBits]
  | succ n ih =>
    rw [List.range_succ, List.filter_append, List.map_append, setBits_append]
    cases hp : p n with
    | false =>
      have hlt : lane < n + 1 ∧ p lane = true ↔ lane < n ∧ p lane = true := by
        constructor <;> rintro ⟨hlane, hon⟩ <;> refine ⟨?_, hon⟩
        · have : lane ≠ n := fun heq => by simp [heq, hp] at hon
          omega
        · omega
      rw [List.filter_singleton, hp, if_congr hlt rfl rfl]
      exact ih
    | true =>
      rw [List.filter_singleton, hp]
      refine (getLsbD_setBits_single h ..).trans ?_
      by_cases hlane : lane = n
      · simp [hlane, hp]
      · rw [if_neg hlane, ih]
        exact if_congr (by simp [Nat.le_iff_lt_or_eq, hlane]) rfl rfl

/-- Bits written by lane to a mask register. -/
theorem Beat.putBits_mask {b : Beat} {x : BeatCtx} {m : VeMem} {k : Nat} (hdst : vDst m.c = 0x20 + k) (n : Nat) (act bits : Nat → Bool) :
    b.putBits x m ((upto n).map act) ((upto n).map bits) = { b with s := { b.s with vec := { b.s.vec with
      m := tset 0 b.s.vec.m k (setBits (tget 0 b.s.vec.m k) (((List.range n).filter fun i => act i || vZero m.c).map fun i => (i, act i && bits i))) } } } := by
  have hnew : ((((upto n).map act).zip ((upto n).map bits)).zipIdx.filter fun p => p.1.1 || vZero m.c).map (fun ((on, v), i) => (i, on && v)) =
      ((List.range n).filter fun i => act i || vZero m.c).map fun i => (i, act i && bits i) := by
    rw [upto, zip_map_range, zipIdx_map_range, List.filter_map, List.map_map]
    rfl
  simp only [Beat.putBits, hnew, show vDst m.c ≠ 0x1A by omega, if_false, show vDst m.c - 0x20 = k by omega, setBits]

/-! ### The end of a beat -/

/-- The couplers as a beat leaves their latches. -/
def Beat.latches (b : Beat) (t : Tbl (BitVec 8192)) : Tbl (BitVec 8192) :=
  b.k.foldl (fun t p => tset (0 : BitVec 8192) t (p.1 - 1) (packLanes p.2.1 p.2.2)) t

/-- The state after the commands of a beat: its idle words counted, its couplers latched. -/
def Beat.closed (b : Beat) (x : BeatCtx) : State :=
  let s := b.s.countIdle b.idle
  let s := { s with vec := { s.vec with k := b.latches s.vec.k } }
  if x.n ≠ 0 && b.mems.any (beatWrites x) then s.perf 6 1 else s

theorem Beat.closed_records (b : Beat) (x : BeatCtx) : onlyRecords { b.s with vec := { b.s.vec with k := (b.closed x).vec.k } } (b.closed x) := by
  have hidle := b.s.onlyRecords_countIdle b.idle
  have hlatch : onlyRecords { b.s with vec := { b.s.vec with k := b.latches (b.s.countIdle b.idle).vec.k } } (b.closed x) := by
    refine onlyRecords.trans (t := { b.s.countIdle b.idle with vec := { (b.s.countIdle b.idle).vec with k := _ } }) ?_
      (.ite (State.onlyRecords_perf ..) (.refl _))
    rw [hidle.eq]
    rfl
  have hk := congrArg Vec.k hlatch.vec
  rw [hk]
  exact hlatch

/-- The count of destination beats leaves the core-wide counts alone (17 Table 17-8). -/
theorem State.rd_perf_numc (s : State) (n k : Nat) (h : n < 0x20) : (s.perf n k).rd 0x9820 = s.rd 0x9820 := by
  unfold State.perf
  dsimp only
  split
  · rfl
  · split
    · rw [State.rd_raise_other _ _ (by decide), State.rd_setRf_other _ (by decide), State.incRf, State.rd_setRf_other _ (by omega),
        State.rd_setRf_other _ (by omega)]
    · rw [State.rd_setRf_other _ (by omega)]

theorem Beat.closed_idle_nil {b : Beat} (h : b.idle = []) (x : BeatCtx) : (b.closed x).trk = b.s.trk ∧ (b.closed x).rd 0x9820 = b.s.rd 0x9820 := by
  simp only [Beat.closed, h, State.countIdle, List.foldl_nil]
  split
  · exact ⟨State.perf_trk .., State.rd_perf_numc _ _ _ (by decide)⟩
  · exact ⟨rfl, rfl⟩

theorem Beat.takeEntry_noFtq {b : Beat} {x : BeatCtx} (h : ∀ m ∈ b.mems, ftqsOf m.c = []) : b.takeEntry x = b := by
  have hall : ∀ (l : List VeMem) (b : Beat), (∀ m ∈ l, ftqsOf m.c = []) → l.foldl (fun (b : Beat) m =>
      let z := (upto (entriesRead x m - m.acc.hdrs)).foldl (fun (q : Beat × VeMem) _ => q.1.freeEntry x q.2) (b, m)
      { z.1 with mems := z.1.mems ++ [z.2] }) b = { b with mems := b.mems ++ l } := by
    intro l
    induction l with
    | nil => exact fun b _ => by rw [List.append_nil]; rfl
    | cons m l ih =>
      intro b hl
      have hnone : entriesRead x m = 0 := by simp [entriesRead, hl m (by simp)]
      rw [List.foldl_cons, ih _ fun m hm => hl m (by simp [hm])]
      simp [hnone, upto]
  exact hall b.mems { b with mems := [] } h

/-- A beat without a failure, of commands that read no FTQ entry. -/
theorem State.veBeat_done {s : State} {w : VeWork} {b : Beat} (hb : w.mems.foldl (Beat.member w.ctx) (Beat.start s) = b) (hbad : b.bad = none)
    (hshort : b.short = none) (hftq : ∀ m ∈ b.mems, ftqsOf m.c = []) : s.veBeat w [] =
      if w.ctx.last then (b.closed w.ctx).endWork { w with mems := b.mems, beat := w.beat + 1 } b.outs true
      else { b.closed w.ctx with vec := { (b.closed w.ctx).vec with ve := { w with mems := b.mems, beat := w.beat + 1 } :: (b.closed w.ctx).vec.ve.drop 1 } } := by
  have hstart : w.mems.foldl (Beat.member w.ctx) { s := s, k := [], rd := [], idle := [], bad := none, short := none, mems := [], outs := [] } = b := hb
  have htake : ∀ bad short, Beat.takeEntry { b with s := b.s.countIdle b.idle, bad := bad, short := short } w.ctx =
      { b with s := b.s.countIdle b.idle, bad := bad, short := short } := fun _ _ => Beat.takeEntry_noFtq hftq
  simp only [State.veBeat, hstart, hbad, hshort, htake, State.couplerParity, List.isEmpty_nil, Bool.true_or, if_true, Beat.closed, Beat.latches]

end Sys2Proof.Machine
end

section
/-!
PROOFS. The end of a work of the VE (05 R107, R109, R125): its merges and counts, the registers that its compressions count in, and what the event of
its last beat leaves.
-/

namespace Sys2Proof.Machine

/-! ### Register writes and records -/

theorem State.wrRegs_append (s : State) (st : Sid) (l l' : List RegWr) : s.wrRegs st (l ++ l') = (s.wrRegs st l).wrRegs st l' := by
  cases st <;> simp only [State.wrRegs, State.modStr, List.foldl_append]

theorem onlyRecords.wrRegs {s t : State} (h : onlyRecords s t) (st : Sid) (l : List RegWr) : onlyRecords (s.wrRegs st l) (t.wrRegs st l) := by
  rw [onlyRecords] at *
  rw [h]
  cases st <;> rfl

theorem Stream.wait_wrRegs (t : Stream) (l : List RegWr) : (l.foldl Stream.wrReg t).wait = t.wait := by
  induction l generalizing t with
  | nil => rfl
  | cons w l ih =>
    rw [List.foldl_cons, ih]
    unfold Stream.wrReg
    split
    · rfl
    · rfl
    · split <;> rfl

/-! ### The end of a work -/

/-- What one command of a work does at its end. -/
def State.endMember (w : VeWork) (outs : List RedOut) (whole : Bool) (s : State) (m : VeMem) : State :=
  let s := if !observes m.c then s.numcAdd 4 (m.acc.cnts.nonfin + m.acc.red.nf)
    else if w.vlen ≠ 0 then s.merge m.trk w.cs m.acc.amax m.acc.cnts m.acc.elems else s
  let s := if whole && w.vlen ≠ 0 && (m.c.opc = 0x5C || m.c.opc = 0x5D) && w.pend.contains (0, vFn m.c) then s.wrRegs .x [⟨0, vFn m.c, m.acc.count⟩] else s
  let later := whole && isRed m.c && w.mems.length = 1 && !outs.isEmpty
  if m.c.ct && !later then s.ctTicket (if isRed m.c then 12 else 11) else s

theorem State.endWork_eq (s : State) (w : VeWork) (outs : List RedOut) (whole : Bool) : s.endWork w outs whole =
    w.mems.foldl (State.endMember w outs whole) { s with vec := { s.vec with ve := s.vec.ve.drop 1, redq := s.vec.redq ++ outs } } := rfl

/-- The register that a compression or an expansion counts its elements in, when it ends (05 R125). -/
def VeWork.countRegs (w : VeWork) (whole : Bool) : List RegWr :=
  w.mems.flatMap fun m => if whole && w.vlen ≠ 0 && (m.c.opc = 0x5C || m.c.opc = 0x5D) && w.pend.contains (0, vFn m.c) then [⟨0, vFn m.c, m.acc.count⟩] else []

theorem VeWork.countRegs_nil {w : VeWork} (h : ∀ m ∈ w.mems, m.c.opc ≠ 0x5C ∧ m.c.opc ≠ 0x5D) (whole : Bool) : w.countRegs whole = [] := by
  rw [VeWork.countRegs, List.flatMap_eq_nil_iff]
  intro m hm
  obtain ⟨h1, h2⟩ := h m hm
  simp [h1, h2]

/-- Outside a consist a work's end makes records, and writes the registers that its compressions count in. -/
theorem State.endWork_records {s : State} {w : VeWork} {outs : List RedOut} {whole : Bool} (hct : ∀ m ∈ w.mems, m.c.ct = false)
    (hfree : w.cs = none ∨ w.vlen = 0 ∨ ∀ m ∈ w.mems, observes m.c = false) :
    onlyRecords (({ s with vec := { s.vec with ve := s.vec.ve.drop 1, redq := s.vec.redq ++ outs } } : State).wrRegs .x (w.countRegs whole))
      (s.endWork w outs whole) := by
  have hmember : ∀ m ∈ w.mems, ∀ s : State, onlyRecords (s.wrRegs .x
      (if whole && w.vlen ≠ 0 && (m.c.opc = 0x5C || m.c.opc = 0x5D) && w.pend.contains (0, vFn m.c) then [⟨0, vFn m.c, m.acc.count⟩] else []))
      (State.endMember w outs whole s m) := by
    intro m hm s
    have hobs : onlyRecords s (if !observes m.c then s.numcAdd 4 (m.acc.cnts.nonfin + m.acc.red.nf)
        else if w.vlen ≠ 0 then s.merge m.trk w.cs m.acc.amax m.acc.cnts m.acc.elems else s) := by
      split
      · exact s.onlyRecords_numcAdd ..
      · next hobs =>
        split
        · next hlen =>
          obtain h | h | h := hfree
          · rw [h]
            exact s.onlyRecords_merge_free ..
          · exact absurd h hlen
          · simp [h m hm] at hobs
        · exact .refl s
    simp only [State.endMember, hct m hm, Bool.false_and, Bool.false_eq_true, if_false]
    split
    · exact hobs.wrRegs ..
    · exact hobs
  rw [State.endWork_eq, VeWork.countRegs]
  generalize ({ s with vec := { s.vec with ve := s.vec.ve.drop 1, redq := s.vec.redq ++ outs } } : State) = s
  generalize w.mems = l at hmember
  induction l generalizing s with
  | nil => exact .refl _
  | cons m l ih =>
    rw [List.flatMap_cons, State.wrRegs_append, List.foldl_cons]
    exact ((hmember m (by simp) s).wrRegs ..).trans (ih _ fun m hm => hmember m (by simp [hm]))

/-! ### The event of a beat -/

/-- Everything but the scratchpad, the mask registers and the records is as before. -/
def onlyBeat (s t : State) : Prop :=
  onlyRecords { s with spm := t.spm, cke := { s.cke with dirty := t.cke.dirty }, vec := { s.vec with m := t.vec.m } } t

theorem onlyRecords.beat {s t : State} (h : onlyRecords s t) : onlyBeat s t := by
  rw [onlyBeat, h.spm, h.cke, h.vec]
  exact h

theorem Stores.beat {s t : State} {l : List (Nat × Byte)} (h : Stores s t l) : onlyBeat s t := by
  rw [onlyBeat, onlyRecords, h.only]

/-- What a state shows whose beat has ended: all but the marks of the consist units. -/
theorem beatEnded.shows {u t : State} (h : beatEnded u t) : t.vec = u.vec ∧ t.spm = u.spm ∧ t.trk = u.trk ∧ t.sA = u.sA ∧ t.sX = u.sX ∧ t.csr = u.csr := by
  rw [beatEnded] at h
  rw [h]
  exact ⟨rfl, rfl, rfl, rfl, rfl, rfl⟩

/-- The state of a beat's end: the work as its commands leave it has ended. -/
def Beat.ended (b : Beat) (w : VeWork) : State := (b.closed w.ctx).endWork { w with mems := b.mems, beat := w.beat + 1 } b.outs true

/-- The event of a work's last beat, from the state before it and what its commands did. -/
structure BeatEnds (s : State) (w : VeWork) (rest : List VeWork) (b : Beat) (t : State) : Prop where
  exec : exec (.veBeat []) s = .next t
  spm : t.spm = b.s.spm
  masks : t.vec.m = b.s.vec.m
  ve : t.vec.ve = rest
  redq : t.vec.redq = s.vec.redq ++ b.outs
  sA : t.sA = s.sA
  sX : t.sX = (VeWork.countRegs { w with mems := b.mems } true).foldl Stream.wrReg s.sX
  trk : t.trk = (b.ended w).trk
  csr : t.csr = (b.ended w).csr

theorem execVeBeat_ends {s : State} {w : VeWork} {rest : List VeWork} {b : Beat} (h : BeatGoes s w rest) (hupd : ∀ m ∈ w.mems, m.c.opc ≠ 0x68)
    (hb : w.mems.foldl (Beat.member w.ctx) (Beat.start s.inBeat) = b) (hopen : b.bad = none ∧ b.short = none) (hlast : w.ctx.last = true)
    (hmems : ∀ m ∈ b.mems, ftqsOf m.c = [] ∧ m.c.ct = false) (hfree : w.cs = none ∨ w.vlen = 0 ∨ ∀ m ∈ b.mems, observes m.c = false)
    (hframe : onlyBeat s.inBeat b.s) : ∃ t, BeatEnds s w rest b t := by
  have hdone : s.inBeat.veBeat w [] = b.ended w := by
    rw [State.veBeat_done hb hopen.1 hopen.2 fun m hm => (hmems m hm).1, hlast, if_pos rfl, Beat.ended]
  have hend := State.endWork_records (s := b.closed w.ctx) (w := { w with mems := b.mems, beat := w.beat + 1 }) (outs := b.outs) (whole := true)
    (fun m hm => (hmems m hm).2) hfree
  have hclosed := b.closed_records w.ctx
  rw [← Beat.ended] at hend
  have hsA : (b.ended w).sA = s.sA := hend.sA.trans (hclosed.sA.trans hframe.sA)
  have hsX : (b.ended w).sX = (VeWork.countRegs { w with mems := b.mems } true).foldl Stream.wrReg s.sX := by
    have hsame : (b.closed w.ctx).sX = s.sX := hclosed.sX.trans hframe.sX
    rw [← hsame]
    exact hend.sX
  have hcA : (b.ended w).cA = s.inBeat.cA := hend.cA.trans (hclosed.cA.trans hframe.cA)
  have hcX : (b.ended w).cX = s.inBeat.cX := hend.cX.trans (hclosed.cX.trans hframe.cX)
  have hspm : (b.ended w).spm = b.s.spm := hend.spm.trans hclosed.spm
  have hvec : (b.ended w).vec = { s.vec with m := b.s.vec.m, k := (b.closed w.ctx).vec.k, ve := rest, redq := s.vec.redq ++ b.outs } := by
    have hbs : b.s.vec = { s.vec with m := b.s.vec.m } := hframe.vec
    refine hend.vec.trans ?_
    change { (b.closed w.ctx).vec with ve := (b.closed w.ctx).vec.ve.drop 1, redq := (b.closed w.ctx).vec.redq ++ b.outs } = _
    rw [hclosed.vec, hbs]
    simp only [h.front, List.drop_one, List.tail_cons]
  obtain ⟨t, hexec, hended⟩ := execVeBeat_goes h hupd (by rw [hdone, hsX, Stream.wait_wrRegs, h.noWait])
    (by rw [hdone, hcA, hcX]; exact h.noTrip)
  obtain ⟨htvec, htspm, httrk, htA, htX, htcsr⟩ := hended.shows
  rw [hdone] at htvec htspm httrk htA htX htcsr
  exact ⟨t, hexec, htspm.trans hspm, by rw [htvec, hvec], by rw [htvec, hvec], by rw [htvec, hvec], htA.trans hsA, htX.trans hsX, httrk, htcsr⟩

/-- The event of a beat that is not a work's last. -/
theorem execVeBeat_continues {s : State} {w : VeWork} {rest : List VeWork} {b : Beat} (h : BeatGoes s w rest) (hupd : ∀ m ∈ w.mems, m.c.opc ≠ 0x68)
    (hb : w.mems.foldl (Beat.member w.ctx) (Beat.start s.inBeat) = b) (hopen : b.bad = none ∧ b.short = none) (hlast : w.ctx.last = false)
    (hmems : ∀ m ∈ b.mems, ftqsOf m.c = []) (hframe : onlyBeat s.inBeat b.s) :
    ∃ t, exec (.veBeat []) s = .next t ∧ t.spm = b.s.spm ∧ t.vec.m = b.s.vec.m ∧ t.vec.ve = { w with mems := b.mems, beat := w.beat + 1 } :: rest ∧
      t.sA = s.sA ∧ t.sX = s.sX ∧ t.trk = (b.closed w.ctx).trk := by
  have hdone := State.veBeat_done hb hopen.1 hopen.2 hmems
  rw [hlast, if_neg Bool.false_ne_true] at hdone
  have hclosed := b.closed_records w.ctx
  have hvec : (b.closed w.ctx).vec = { s.vec with m := b.s.vec.m, k := (b.closed w.ctx).vec.k } := by
    have hbs : b.s.vec = { s.vec with m := b.s.vec.m } := hframe.vec
    rw [hclosed.vec, hbs]
  have hsX : (b.closed w.ctx).sX = s.sX := hclosed.sX.trans hframe.sX
  have hcA : (b.closed w.ctx).cA = s.inBeat.cA := hclosed.cA.trans hframe.cA
  have hcX : (b.closed w.ctx).cX = s.inBeat.cX := hclosed.cX.trans hframe.cX
  obtain ⟨t, hexec, hended⟩ := execVeBeat_goes h hupd (by rw [hdone, hsX, h.noWait]) (by rw [hdone, hcA, hcX]; exact h.noTrip)
  obtain ⟨htvec, htspm, httrk, htA, htX, -⟩ := hended.shows
  rw [hdone] at htvec htspm httrk htA htX
  refine ⟨t, hexec, htspm.trans hclosed.spm, ?_, ?_, htA.trans (hclosed.sA.trans hframe.sA), htX.trans hsX, httrk⟩ <;> rw [htvec, hvec]
  simp only [h.front, List.drop_one, List.tail_cons]

/-- The end of a work that observes nothing leaves the trackers alone. -/
theorem State.trk_endWork_blind {s : State} {w : VeWork} {outs : List RedOut} {whole : Bool}
    (hmems : ∀ m ∈ w.mems, m.c.ct = false ∧ (w.vlen = 0 ∨ observes m.c = false)) : (s.endWork w outs whole).trk = s.trk := by
  have hmember : ∀ m ∈ w.mems, ∀ s : State, (State.endMember w outs whole s m).trk = s.trk := by
    intro m hm s
    obtain ⟨hct, hblind⟩ := hmems m hm
    have hobs : (if !observes m.c then s.numcAdd 4 (m.acc.cnts.nonfin + m.acc.red.nf)
        else if w.vlen ≠ 0 then s.merge m.trk w.cs m.acc.amax m.acc.cnts m.acc.elems else s).trk = s.trk := by
      obtain h | h := hblind
      · simp only [h, ne_eq, not_true, if_false]
        split
        · exact s.trk_numcAdd ..
        · rfl
      · simp only [h, Bool.not_false, if_true, State.trk_numcAdd]
    simp only [State.endMember, hct, Bool.false_and, Bool.false_eq_true, if_false]
    split
    · exact (State.wrRegs_trk ..).trans hobs
    · exact hobs
  rw [State.endWork_eq]
  change _ = ({ s with vec := { s.vec with ve := s.vec.ve.drop 1, redq := s.vec.redq ++ outs } } : State).trk
  generalize ({ s with vec := { s.vec with ve := s.vec.ve.drop 1, redq := s.vec.redq ++ outs } } : State) = s
  generalize w.mems = l at hmember
  induction l generalizing s with
  | nil => rfl
  | cons m l ih => rw [List.foldl_cons, ih _ fun m hm => hmember m (by simp [hm]), hmember m (by simp)]

theorem sameRegs_of_streams {s t : State} (hA : t.sA = s.sA) (hX : t.sX = s.sX) : sameRegs s t := by
  intro st
  cases st
  · simp only [State.str, hA, and_self]
  · simp only [State.str, hX, and_self]

end Sys2Proof.Machine
end

section
/-!
PROOFS. The events of the VE (05 R109, R121, R131, 08 R214, 12 R314): a held beat, a VMSET from a count, a beat without lanes, a block of a front
update, a reduction's result.
-/

namespace Sys2Proof.Machine

/-! ### VMSET from a count -/

/-- The beat of a VMSET from a count: its bits, and nothing else. -/
theorem Beat.member_vmset {s : State} {x : BeatCtx} {m : VeMem} {k : Nat} (hopc : m.c.opc = 0x51) (hfn : vFn m.c = 0) (hmsk : vMsk m.c = 0)
    (hdst : vDst m.c = 0x20 + k) (hftq : ftqsOf m.c = []) (hmap : vSrc m.c 0 ≠ 0x1A) :
    Beat.member x (Beat.start s) m = { Beat.start s with mems := [m], s := { s with vec := { s.vec with
      m := tset 0 s.vec.m k (setBits (tget 0 s.vec.m k) (((List.range x.n).filter fun _ => true).map fun i =>
        (i, decide (i < (scalBits m.regs m.c (vSrc m.c 0) (wSrc m.c 0)).toNat)))) } } } := by
  have hsrcs : laneSrcs m.c = 0 := by simp [laneSrcs, hopc]
  have hact : (upto x.n).map (laneActive (Beat.start s).s x m) = (upto x.n).map fun _ => true :=
    List.map_congr_left fun i _ => by rw [laneActive_free (by omega) (by omega) hftq, hmsk, State.maskBit, if_pos rfl]
  have hread : (Beat.start s).sources x m ((upto x.n).map fun _ => true) (laneElems x m ((upto x.n).map fun _ => true)) = (Beat.start s, []) := by
    simp [Beat.sources, hsrcs, hopc, hmsk, hmap, upto, Beat.read, Beat.start, wordsOf, State.touchWords]
  have hcompute : (Beat.start s).compute x m ((upto x.n).map fun _ => true) [] =
      ((Beat.start s).putBits x m ((upto x.n).map fun _ => true)
        ((upto x.n).map fun i => decide (i < (scalBits m.regs m.c (vSrc m.c 0) (wSrc m.c 0)).toNat)), m) := by
    simp [Beat.compute, isRed, hopc, Beat.bits, hfn]
  rw [Beat.member_eq ⟨rfl, rfl⟩ hact (by simp [expShort, hopc]) (Beat.loadVecs_none fun i hi => absurd hi (by omega)) hread rfl, hcompute, Beat.putBits_mask hdst]
  simp [Beat.start]

theorem vmset_beat {s : State} {w : VeWork} {rest : List VeWork} {m : VeMem} {k : Nat} (h : BeatGoes s w rest) (hm : w.mems = [m]) (hopc : m.c.opc = 0x51)
    (hfn : vFn m.c = 0) (hmsk : vMsk m.c = 0) (hdst : vDst m.c = 0x20 + k) (hftq : ftqsOf m.c = []) (hmap : vSrc m.c 0 ≠ 0x1A) (hct : m.c.ct = false) :
    ∃ t : State, exec (.veBeat []) s = .next t ∧ sameSpm s t ∧ sameRegs s t ∧ t.trk = s.trk ∧
      t.vec.ve = (if w.vlen ≤ w.ctx.e0 + w.ctx.b then rest else { w with beat := w.beat + 1 } :: rest) ∧
      t.vec.m = tset 0 s.vec.m k (setBits (tget 0 s.vec.m k) (((List.range w.ctx.n).filter fun _ => true).map fun i =>
        (i, decide (i < (scalBits m.regs m.c (vSrc m.c 0) (wSrc m.c 0)).toNat)))) := by
  have hmember := Beat.member_vmset (s := s.inBeat) (x := w.ctx) hopc hfn hmsk hdst hftq hmap
  have hb : w.mems.foldl (Beat.member w.ctx) (Beat.start s.inBeat) = Beat.member w.ctx (Beat.start s.inBeat) m := by rw [hm]; rfl
  rw [hmember] at hb
  have hupd : ∀ m ∈ w.mems, m.c.opc ≠ 0x68 := by simp [hm, hopc]
  have hobs : observes m.c = false := by simp [observes, hopc]
  have hlastOf : w.ctx.last = decide (w.vlen ≤ w.ctx.e0 + w.ctx.b) := rfl
  by_cases hlast : w.vlen ≤ w.ctx.e0 + w.ctx.b
  · obtain ⟨t, ht⟩ := execVeBeat_ends h hupd hb ⟨rfl, rfl⟩ (by simpa [hlastOf] using hlast) (by simp [hftq, hct]) (.inr (.inr (by simp [hobs])))
      (onlyRecords.refl _)
    have htrk : t.trk = s.trk := by
      rw [ht.trk, Beat.ended, State.trk_endWork_blind (by simp [hct, hobs]), (Beat.closed_idle_nil rfl _).1]
      rfl
    have hregs := ht.sX
    rw [VeWork.countRegs_nil (by simp [hopc])] at hregs
    exact ⟨t, ht.exec, ht.spm, sameRegs_of_streams ht.sA hregs, htrk, by rw [if_pos hlast, ht.ve], ht.masks⟩
  · obtain ⟨t, hexec, hspm, hmasks, hve, hA, hX, htrk⟩ := execVeBeat_continues h hupd hb ⟨rfl, rfl⟩ (by simpa [hlastOf] using hlast) (by simp [hftq])
      (onlyRecords.refl _)
    rw [(Beat.closed_idle_nil rfl _).1] at htrk
    exact ⟨t, hexec, hspm, sameRegs_of_streams hA hX, htrk, by rw [if_neg hlast, hve, ← hm], hmasks⟩

/-! ### A beat without lanes -/

theorem Beat.put_nothing (b : Beat) (x : BeatCtx) (m : VeMem) (t : Nat) : ∃ k, b.put x m t [] [] = { b with k := k } := by
  simp only [Beat.put, List.zip_nil_left, List.zipIdx_nil, List.filter_nil, List.flatMap_nil, List.map_nil]
  by_cases h : isK (if m.c.opc = 0x6A then m.c.f 43 38 else vDst m.c) = true
  · exact ⟨_, if_pos h⟩
  · exact ⟨b.k, if_neg h⟩

theorem Beat.sources_nothing {s : State} {x : BeatCtx} {m : VeMem} (hn : x.n = 0) (hopc : m.c.opc ≠ 0x51) (es : List Nat) :
    ∃ idle src, (Beat.start s).sources x m [] es = ({ Beat.start s with idle := idle }, src) := by
  have hnoWords : ∀ a, wordsOf [(a, (x.n + 7) / 8)] = [] := fun a => by simp [wordsOf, hn]
  have hread : ∀ act idle vidle, wordsOf act = [] → ∃ l, (Beat.start s).read m.c act idle [] vidle = { Beat.start s with idle := l } :=
    fun act idle vidle hact => ⟨_, by
      rw [Beat.read_good (by rw [hact]; rfl) (by simp [hact]) rfl, hact]
      rfl⟩
  have hspans : ∀ l : List Nat, l.flatMap (fun _ => ([] : List (Nat × Nat))) = [] := fun l => by simp
  have hvbad : ∀ l : List Nat, l.flatMap (fun _ => ([] : List Nat)) = [] := fun l => by simp
  have hbitmap : ∀ a, wordsOf (if (decide (m.c.opc ≠ 0x6A) && decide (vMsk m.c = 8)) = true then [(a, (x.n + 7) / 8)] else []) = [] := fun a => by
    split
    · exact hnoWords a
    · rfl
  simp only [Beat.sources, List.zip_nil_left, List.filter_nil, List.flatMap_nil, hspans, hvbad, hopc, decide_false, Bool.false_and, Bool.false_eq_true,
    if_false, List.nil_append, List.append_nil]
  obtain ⟨l, hl⟩ := hread _ _ _ (hbitmap _)
  exact ⟨l, _, Prod.ext hl rfl⟩

theorem Beat.member_nothing {s : State} {x : BeatCtx} {m : VeMem} (hew : elementwise m.c = true) (hn : x.n = 0) :
    ∃ k idle, Beat.member x (Beat.start s) m = { Beat.start s with k := k, idle := idle, mems := [m] } := by
  obtain ⟨hred, hgen, hcmp, hmset, hcprs, hq, hexpd, hupd⟩ := elementwise_opc hew
  obtain ⟨idle, src, hsrc⟩ := Beat.sources_nothing (s := s) hn hmset (laneElems x m [])
  obtain ⟨k, hput⟩ := Beat.put_nothing { Beat.start s with idle := idle } x m (dstTy m.c)
  refine ⟨k, idle, ?_⟩
  rw [Beat.member_eq (act := []) ⟨rfl, rfl⟩ (by simp [hn, upto]) (by simp [expShort, hexpd]) (by simp [Beat.loadVecs, hn]) hsrc rfl,
    Beat.compute_elementwise hew]
  have hlanes : ({ Beat.start s with idle := idle } : Beat).lanes x m [] src = (({ Beat.start s with idle := idle } : Beat).put x m (dstTy m.c) [] [], m) := rfl
  rw [hlanes, hput]
  rfl

theorem empty_beat {s : State} {w : VeWork} {rest : List VeWork} {m : VeMem} (h : BeatGoes s w rest) (hm : w.mems = [m]) (hew : elementwise m.c = true)
    (hlen : w.vlen = 0) (hftq : ftqsOf m.c = []) (hct : m.c.ct = false) :
    ∃ t : State, exec (.veBeat []) s = .next t ∧ t.vec.ve = rest ∧ sameSpm s t ∧ sameRegs s t ∧ t.vec.m = s.vec.m ∧ t.vec.redq = s.vec.redq := by
  obtain ⟨-, -, -, -, hcprs, -, hexpd, hupd⟩ := elementwise_opc hew
  obtain ⟨k, idle, hmember⟩ := Beat.member_nothing (s := s.inBeat) (x := w.ctx) hew (by simp [VeWork.ctx, hlen])
  have hb : w.mems.foldl (Beat.member w.ctx) (Beat.start s.inBeat) = { Beat.start s.inBeat with k := k, idle := idle, mems := [m] } := by
    rw [hm]
    exact hmember
  obtain ⟨t, ht⟩ := execVeBeat_ends h (by simpa [hm] using hupd) hb ⟨rfl, rfl⟩ (by simp [VeWork.ctx, hlen]) (by simp [hftq, hct]) (.inr (.inl hlen))
    (onlyRecords.refl _)
  have hregs := ht.sX
  rw [VeWork.countRegs_nil (by simp [hcprs, hexpd])] at hregs
  exact ⟨t, ht.exec, ht.ve, ht.spm, sameRegs_of_streams ht.sA hregs, ht.masks, ht.redq.trans (List.append_nil _)⟩

/-! ### A block of an update -/

theorem Spm.byte_pokes {q : Spm} (hq : q.gone = []) (puts : List (Nat × List Byte)) :
    (puts.foldl (fun (q : Spm) p => q.poke p.1 p.2) q).byte = putBytes q.byte (puts.flatMap fun p => pairsAt p.1 p.2) := by
  induction puts generalizing q with
  | nil => rfl
  | cons p puts ih => rw [List.foldl_cons, ih ((q.gone_poke ..).trans hq), Spm.byte_poke_all hq, List.flatMap_cons, putBytes_append]

theorem mem_pairsAt {a x : Nat} {bs : List Byte} (h : x ∈ (pairsAt a bs).map (·.1)) : a ≤ x ∧ x < a + bs.length := by
  simp only [pairsAt, List.map_map, List.mem_map, Prod.exists, List.mem_zipIdx_iff_getElem?] at h
  obtain ⟨b, i, hi, rfl⟩ := h
  have := (List.getElem?_eq_some_iff.mp hi).1
  simp only [Function.comp_apply]
  omega

/-- The writes of a block of an update. -/
def updPuts (s : State) (w : VeWork) (m : VeMem) : List (Nat × List Byte) :=
  ((updOf m).writes w.key (bit m.c.base 10) (w.beat / (updOf m).nbc) (w.beat % (updOf m).nbc) (updBlock (updOf m) (updCoef m 0) (updCoef m 1) (updCoef m 2)
    (s.updIn (updOf m) (w.beat / (updOf m).nbc) (w.beat % (updOf m).nbc)))).1

/-- The command after a block: what it has observed. -/
def updNext (s : State) (w : VeWork) (m : VeMem) : VeMem :=
  { m with acc := { m.acc with
    cnts := m.acc.cnts.add ((updOf m).writes w.key (bit m.c.base 10) (w.beat / (updOf m).nbc) (w.beat % (updOf m).nbc)
      (updBlock (updOf m) (updCoef m 0) (updCoef m 1) (updCoef m 2) (s.updIn (updOf m) (w.beat / (updOf m).nbc) (w.beat % (updOf m).nbc)))).2
    elems := m.acc.elems + (if (updOf m).mom then 2048 else 1024) } }

/-- A block of good words outside a consist: its writes and its count, then its place in the work. -/
theorem State.updStep_good {s : State} {w : VeWork} {m : VeMem} (hplace : InPlace s) (hct : m.c.ct = false) (htrk : m.trk = none) (hcs : w.cs = none)
    (hgood : ∀ k ∈ wordsOf ((updOf m).reads (w.beat / (updOf m).nbc) (w.beat % (updOf m).nbc)), s.spm.eccW k = .good) :
    ∃ v, Stores s v ((updPuts s w m).flatMap fun p => pairsAt p.1 p.2) ∧ (s.updStep w m).trk = s.trk ∧
      if w.beat + 1 < (updOf m).nBlocks then ∃ m', m'.c = m.c ∧
        onlyRecords { v with vec := { v.vec with ve := { w with mems := [m'], beat := w.beat + 1 } :: v.vec.ve.drop 1 } } (s.updStep w m)
      else onlyRecords { v with vec := { v.vec with ve := v.vec.ve.drop 1 } } (s.updStep w m) := by
  have hfind : (wordsOf ((updOf m).reads (w.beat / (updOf m).nbc) (w.beat % (updOf m).nbc))).find?
      (fun k => decide (s.spm.eccAt (s.viewAddr (some .x) (8 * k)) = .bad)) = none := by
    rw [List.find?_eq_none]
    intro k hk
    rw [State.eccAt_view hplace, hgood k hk]
    decide
  have hstores : Stores s ((updPuts s w m).foldl (fun (s : State) p => s.write (some .x) w.cs p.1 p.2) s)
      ((updPuts s w m).flatMap fun p => pairsAt p.1 p.2) := by
    rw [hcs]
    exact Stores.foldl (fun s p hs => State.stores_write hs .x p.1 p.2 false) (updPuts s w m) hplace
  refine ⟨_, hstores, ?_⟩
  have hv : ((updPuts s w m).foldl (fun (s : State) p => s.write (some .x) w.cs p.1 p.2) s).trk = s.trk := by rw [hstores.only]
  generalize hV : (updPuts s w m).foldl (fun (s : State) p => s.write (some .x) w.cs p.1 p.2) s = v at hv
  have hperf := v.onlyRecords_perf 6 4
  have hstep : s.updStep w m = if w.beat + 1 < (updOf m).nBlocks then
      { v.perf 6 4 with vec := { (v.perf 6 4).vec with ve := { w with mems := [updNext s w m], beat := w.beat + 1 } :: (v.perf 6 4).vec.ve.drop 1 } }
      else ({ v.perf 6 4 with vec := { (v.perf 6 4).vec with ve := (v.perf 6 4).vec.ve.drop 1 } } : State).merge m.trk w.cs 0
        (updNext s w m).acc.cnts (updNext s w m).acc.elems := by
    simp only [State.updStep, State.touchWords_good hplace .x _ hgood, hfind, hct, Bool.false_eq_true, if_false, ← hV]
    rfl
  rw [hstep, hperf.vec, htrk]
  split
  · exact ⟨(State.perf_trk ..).trans hv, updNext s w m, rfl, hperf.setVec _⟩
  · exact ⟨(State.trk_merge_none ..).trans ((State.perf_trk ..).trans hv), (hperf.setVec _).trans (State.onlyRecords_merge_slotless ..)⟩

theorem updf_block {s : State} {w : VeWork} {rest : List VeWork} {m : VeMem} (h : BeatGoes s w rest) (hplace : InPlace s) (hm : w.mems = [m])
    (hopc : m.c.opc = 0x68) (hct : m.c.ct = false) (htrk : m.trk = none) (hcs : w.cs = none)
    (hgood : ∀ k ∈ wordsOf ((updOf m).reads (w.beat / (updOf m).nbc) (w.beat % (updOf m).nbc)), s.spm.eccW k = .good) :
    ∃ t : State, exec .updfBlockDone s = .next t ∧ sameRegs s t ∧ t.trk = s.trk ∧ t.vec.m = s.vec.m ∧
      (if w.beat + 1 < (updOf m).nBlocks then ∃ m', t.vec.ve = { w with mems := [m'], beat := w.beat + 1 } :: rest ∧ m'.c = m.c else t.vec.ve = rest) ∧
      t.spm.byte = putBytes s.spm.byte ((updPuts s w m).flatMap fun p => pairsAt p.1 p.2) := by
  obtain ⟨v, hstores, hsteptrk, hstep⟩ := State.updStep_good (s := s.inBeat) hplace.inBeat hct htrk hcs hgood
  have hframe : ∃ ve, onlyRecords { v with vec := { v.vec with ve := ve } } (s.inBeat.updStep w m) ∧
      if w.beat + 1 < (updOf m).nBlocks then ∃ m', ve = { w with mems := [m'], beat := w.beat + 1 } :: rest ∧ m'.c = m.c else ve = rest := by
    have hve : v.vec.ve.drop 1 = rest := by
      rw [hstores.only]
      simp only [State.inBeat, h.front, List.drop_one, List.tail_cons]
    rw [hve] at hstep
    split at hstep
    · next hlast =>
      obtain ⟨m', hc, honly⟩ := hstep
      exact ⟨_, honly, by rw [if_pos hlast]; exact ⟨m', rfl, hc⟩⟩
    · next hlast => exact ⟨_, hstep, if_neg hlast ▸ rfl⟩
  obtain ⟨ve, honly, hve⟩ := hframe
  have hsX : (s.inBeat.updStep w m).sX = s.sX := honly.sX.trans (by rw [hstores.only]; rfl)
  have hsA : (s.inBeat.updStep w m).sA = s.sA := honly.sA.trans (by rw [hstores.only]; rfl)
  have hcA : (s.inBeat.updStep w m).cA = s.inBeat.cA := honly.cA.trans (by rw [hstores.only])
  have hcX : (s.inBeat.updStep w m).cX = s.inBeat.cX := honly.cX.trans (by rw [hstores.only])
  have hvec : (s.inBeat.updStep w m).vec = { s.vec with ve := ve } := honly.vec.trans (by rw [hstores.only]; rfl)
  obtain ⟨t, hexec, hended⟩ := execUpdfBlockDone_goes h hm hopc (by rw [hsX, h.noWait]) (by rw [hcA, hcX]; exact h.noTrip)
  obtain ⟨htvec, htspm, httrk, htA, htX, -⟩ := hended.shows
  refine ⟨t, hexec, sameRegs_of_streams (htA.trans hsA) (htX.trans hsX), httrk.trans hsteptrk, by rw [htvec, hvec], by rw [htvec, hvec]; exact hve, ?_⟩
  rw [htspm, honly.spm]
  exact hstores.bytes

/-- Settles O39: the parts of the VE's events, each from what its beat, its block or its result does. -/
theorem vectorEngineEvents : Obligations.VectorEngineEvents := by
  unfold Obligations.VectorEngineEvents
  refine ⟨fun s w rest hfront hwait => ⟨fun hheld => ?_, ?_, ?_, ?_⟩, fun s r rest hq hwait hct => ?_⟩
  · change execVeBeat [] s = _ ∧ execUpdfBlockDone s = _
    simp only [execVeBeat, execUpdfBlockDone, hfront, hheld, Bool.true_or, Bool.or_true, if_true, true_and]
    cases w.mems with
    | nil => rfl
    | cons m l => cases l <;> rfl
  · intro m k hm hopc hfn hmsk hdst hftq hblocks hmap hct hgoes hA hX
    obtain ⟨t, hexec, hspm, hregs, htrk, hve, hmasks⟩ := vmset_beat ⟨hfront, hgoes, hblocks, hwait, hA, hX⟩ hm hopc hfn hmsk hdst hftq hmap hct
    refine ⟨t, hexec, hspm, hregs, htrk, hve, fun j hj => ?_, fun lane hlane => ?_⟩
    · rw [hmasks, tget_tset_other _ _ _ hj.symm]
    · rw [hmasks, tget_tset_same, getLsbD_setBits hlane]
      exact if_congr (and_iff_left rfl) rfl rfl
  · intro m hm hew hlen hbeat hftq hct htrk hgoes hblocks hA hX
    exact empty_beat ⟨hfront, hgoes, hblocks, hwait, hA, hX⟩ hm hew hlen hftq hct
  · intro m hm hopc hct htrk hcs hgoes hblocks hlogA hlogX hdirA hdirX hgone hA hX u bi bj puts hgood
    obtain ⟨t, hexec, hregs, httrk, hmasks, hve, hbytes⟩ := updf_block ⟨hfront, hgoes, hblocks, hwait, hA, hX⟩ ⟨hlogA, hlogX, hdirA, hdirX, hgone⟩ hm hopc hct
      htrk hcs hgood
    refine ⟨t, hexec, hregs, httrk, hmasks, hve, fun a => ?_, fun a ha => ?_⟩
    · rw [hbytes, Spm.byte_pokes hgone]
      rfl
    · rw [hbytes, putBytes_of_notMem]
      rw [List.map_flatMap, List.mem_flatMap]
      rintro ⟨p, hp, hmem⟩
      exact ha p hp (mem_pairsAt hmem)
  · change execRedResultWrite false s = _
    simp only [execRedResultWrite, hq, hct, Bool.false_eq_true, if_false]

end Sys2Proof.Machine
end

section
/-!
PROOFS. A beat over good words, lane by lane (05 R107, R120 to R122): the sources of a command, the fold over its active lanes, and the elements that
it writes one after the other.
-/

namespace Sys2Proof.Machine

/-! ### Sources -/

/-- A beat that has not failed, over a memory of good words that no log diverts. -/
structure Beat.Ready (b : Beat) : Prop where
  place : InPlace b.s
  good : ∀ k, b.s.spm.eccW k = .good
  bad : b.bad = none
  short : b.short = none

/-- The codes of the lanes of each source; `es` names the element that each lane takes. -/
def Beat.codes (b : Beat) (x : BeatCtx) (m : VeMem) (act : Nat → Bool) (es : Nat → Nat) : List (List Nat) :=
  (upto (laneSrcs m.c)).map fun i => (upto x.n).map fun e => if act e then srcCode b.s b.k x m i (es e) else 0

theorem Beat.codes_getD {b : Beat} {x : BeatCtx} {m : VeMem} {act : Nat → Bool} {es : Nat → Nat} (i : Nat) {e : Nat} (he : e < x.n) (hon : act e = true) :
    ((b.codes x m act es).getD i []).getD e 0 = if i < laneSrcs m.c then srcCode b.s b.k x m i (es e) else 0 := by
  unfold Beat.codes upto
  split
  · next hi => simp [List.getD, hi, he, hon]
  · next hi => simp [List.getD, hi]

theorem State.veBad_good {s : State} (hplace : InPlace s) (hgood : ∀ k, s.spm.eccW k = .good) (w : Nat) : s.veBad w = false := by
  rw [State.veBad, State.eccAt_view hplace, hgood]
  rfl

/-- Sources over good words: the beat only notes its reads. -/
theorem Beat.sources_good {b : Beat} {x : BeatCtx} {m : VeMem} (h : b.Ready) (hvecs : ∀ i, i < laneSrcs m.c → isVecSel (vSrc m.c i) = false)
    (act : Nat → Bool) (es : Nat → Nat) :
    ∃ r, b.sources x m ((upto x.n).map act) ((upto x.n).map es) = ({ b with rd := r }, b.codes x m act es) := by
  have hnoVec : ((upto (laneSrcs m.c)).filter fun i => isVecSel (vSrc m.c i)) = [] := by simpa [upto] using hvecs
  have hread : ∀ act idle, b.read m.c act idle [] [] = { b with rd := b.rd ++ wordsOf act } := fun act idle => by
    rw [Beat.read_good (State.touchWords_good h.place .x _ fun w _ => h.good w) (fun w _ => State.veBad_good h.place h.good w) h.bad]
    simp [State.veBad_good h.place h.good]
  have hlanes : ((upto x.n).map act).zip ((upto x.n).map es) = (upto x.n).map fun e => (act e, es e) := zip_map_range ..
  have hindex : ∀ i, i < laneSrcs m.c → ∀ e, srcIndex x m i e = e := fun i hi e => by
    have := hvecs i hi
    simp only [isVecSel, Bool.or_eq_false_iff, decide_eq_false_iff_not] at this
    simp [srcIndex, this]
  simp only [Beat.sources, hnoVec, List.flatMap_nil, List.eraseDups_nil, ite_self, hread, hlanes, List.map_map]
  refine ⟨_, Prod.ext rfl (List.map_congr_left fun i hi => List.map_congr_left fun e _ => ?_)⟩
  simp only [Function.comp_apply, hindex i (by simpa [upto] using hi)]

/-- The code that an addressing form gives a lane. -/
theorem srcCode_form {s : State} {k : List (Nat × Nat × List Nat)} {x : BeatCtx} {m : VeMem} {i : Nat} (hplace : InPlace s)
    (hform : isForm (vSrc m.c i) = true) (e : Nat) : srcCode s k x m i e = formCode s m i e := by
  have hsel : vSrc m.c i = 0x11 ∨ vSrc m.c i = 0x12 := by simpa [isForm] using hform
  have hnot : isK (vSrc m.c i) = false ∧ scalSel (vSrc m.c i) = false ∧ isVecSel (vSrc m.c i) = false := by
    obtain h | h := hsel <;> simp [isK, scalSel, isN, isVecSel, h]
  obtain ⟨hk, hscal, hvec⟩ := hnot
  simp only [srcCode, hk, hscal, hvec, hform, Bool.false_eq_true, if_false, if_true, State.peekLe_inPlace hplace.logA hplace.logX, formCode]

theorem isForm_not_vec {sel : Nat} (h : isForm sel = true) : isVecSel sel = false := by
  simp only [isForm, Bool.or_eq_true, decide_eq_true_eq] at h
  obtain rfl | rfl := h <;> rfl

theorem isForm_not_coupler {sel : Nat} (h : isForm sel = true) : isK sel = false := by
  simp only [isForm, Bool.or_eq_true, decide_eq_true_eq] at h
  obtain rfl | rfl := h <;> rfl

/-- A command's part of a beat over good words: the lanes of its mask take the elements of their own numbers. -/
theorem Beat.member_good {x : BeatCtx} {b : Beat} {m : VeMem} (h : b.Ready) (he0 : x.e0 = 0) (hgen : m.c.opc ≠ 0x6A) (hexpd : m.c.opc ≠ 0x5D)
    (hmsk : vMsk m.c ≠ 8) (hftq : ftqsOf m.c = []) (hvecs : ∀ i, i < laneSrcs m.c → isVecSel (vSrc m.c i) = false) :
    ∃ r, let b' := { b with rd := r }
      let q := b'.compute x m ((upto x.n).map (b.s.maskBit (vMsk m.c))) (b.codes x m (b.s.maskBit (vMsk m.c)) id)
      Beat.member x b m = { q.1 with mems := q.1.mems ++ [q.2] } := by
  have helems : laneElems x m ((upto x.n).map (b.s.maskBit (vMsk m.c))) = (upto x.n).map id := by
    simp only [laneElems, hexpd, if_false, he0, Nat.zero_add]
    rfl
  obtain ⟨r, hsrc⟩ := b.sources_good (x := x) h hvecs (b.s.maskBit (vMsk m.c)) id
  refine ⟨r, Beat.member_eq ⟨h.bad, h.short⟩ (List.map_congr_left fun i _ => laneActive_free hgen hmsk hftq i) ?_ (Beat.loadVecs_none hvecs) ?_ h.bad⟩
  · simp [expShort, hexpd]
  · rw [helems]
    exact hsrc

/-! ### The fold over lanes -/

/-- The results of the active lanes, in their places, and what is gathered over them. -/
theorem foldl_lanes {α : Type} (on : Nat → Bool) (v : Nat → Nat) (g : α → Nat → α) (n : Nat) (acc : α) :
    (((upto n).map on).zipIdx.foldl (fun (q : List Nat × α) p => if p.1 then (q.1 ++ [v p.2], g q.2 p.2) else (q.1 ++ [0], q.2)) ([], acc)) =
      ((upto n).map (fun e => if on e then v e else 0), ((upto n).filter on).foldl g acc) := by
  induction n with
  | zero => rfl
  | succ n ih =>
    simp only [upto, zipIdx_map_range] at ih ⊢
    rw [List.range_succ, List.map_append, List.foldl_append, ih, List.filter_append, List.foldl_append, List.map_append]
    cases hon : on n <;> simp [hon]

/-! ### Elements one after the other -/

/-- The bytes of elements of `z` bytes from `base`, of those that have a code. -/
def densePairs (base z n : Nat) (code : Nat → Option Nat) : List (Nat × Byte) :=
  (List.range n).flatMap fun e => (code e).elim [] fun v => pairsAt (base + z * e) (leBytes z v)

theorem leBytes_length (z v : Nat) : (leBytes z v).length = z := by simp [leBytes, upto]

theorem leBytes_getD {z j : Nat} (v : Nat) (h : j < z) : (leBytes z v).getD j 0 = BitVec.ofNat 8 (v / 2 ^ (8 * j)) := by
  simp [leBytes, upto, List.getD, h, Nat.shiftRight_eq_div_pow]

theorem stored_of_bytes {s t : State} {base z n : Nat} {code : Nat → Option Nat} (h : t.spm.byte = putBytes s.spm.byte (densePairs base z n code)) :
    stored s t base z n code := by
  rw [stored, h]
  clear h
  induction n with
  | zero => exact ⟨fun e j he => absurd he (Nat.not_lt_zero e), fun x _ => rfl⟩
  | succ n ih =>
    obtain ⟨hin, hout⟩ := ih
    have hlast : ∀ x, putBytes s.spm.byte (densePairs base z (n + 1) code) x = match code n with
        | some v => if base + z * n ≤ x ∧ x < base + z * n + z then (leBytes z v).getD (x - (base + z * n)) 0
          else putBytes s.spm.byte (densePairs base z n code) x
        | none => putBytes s.spm.byte (densePairs base z n code) x := fun x => by
      rw [densePairs, List.range_succ, List.flatMap_append, putBytes_append, ← densePairs, List.flatMap_singleton]
      cases code n with
      | none => rfl
      | some v => simp only [Option.elim_some, putBytes_pairsAt, leBytes_length]
    have hsucc : z * (n + 1) = z * n + z := Nat.mul_succ z n
    constructor
    · intro e j he hj
      rw [hlast]
      obtain he | rfl := Nat.lt_succ_iff_lt_or_eq.mp he
      · have hbelow : z * e + z ≤ z * n := by
          rw [← Nat.mul_succ]
          exact Nat.mul_le_mul_left z he
        rw [← hin e j he hj]
        cases code n with
        | none => rfl
        | some v => exact if_neg (by omega)
      · cases hcode : code e with
        | none => exact hout _ (by omega)
        | some v =>
          simp only
          rw [if_pos (by omega), Nat.add_sub_cancel_left, leBytes_getD v hj]
    · intro x hx
      rw [hlast, ← hout x (by omega)]
      cases code n with
      | none => rfl
      | some v => exact if_neg (by omega)

/-- What a command leaves in its destination (05 R122): an active lane's result; 0 in the others with MZ, else nothing. -/
def laneOut (act : Nat → Bool) (zero : Bool) (v : Nat → Nat) (e : Nat) : Option Nat := if act e then some (v e) else if zero then some 0 else none

/-- Codes by lane written to a form whose elements stand one after the other. -/
theorem Beat.put_dense {b : Beat} {x : BeatCtx} {m : VeMem} {n base t : Nat} (hplace : InPlace b.s) (hcs : x.w.cs = none) (he0 : x.e0 = 0) (hn : x.n = n)
    (hgen : m.c.opc ≠ 0x6A) (hcprs : m.c.opc ≠ 0x5C) (hform : isForm (vDst m.c) = true)
    (haddr : ∀ e, e < n → (vDstForm m.regs m.c).addrN e = base + fmtBytes t * e) (act : Nat → Bool) (v : Nat → Nat) :
    ∃ u, Stores b.s u (densePairs base (fmtBytes t) n (laneOut act (vZero m.c) v)) ∧
      b.put x m t ((upto x.n).map act) ((upto x.n).map fun e => if act e then v e else 0) = { b with s := u } := by
  have hpairs : ((((upto x.n).map act).zip ((upto x.n).map fun e => if act e then v e else 0)).zipIdx.filter fun p => p.1.1 || vZero m.c).flatMap
        (fun ((on, v), i) => (leBytes (fmtBytes t) (if on then v else 0)).zipIdx.map fun (y, j) => ((vDstForm m.regs m.c).addrN (x.e0 + i) + j, y)) =
      densePairs base (fmtBytes t) n (laneOut act (vZero m.c) v) := by
    rw [upto, zip_map_range, zipIdx_map_range, hn, he0, densePairs, List.filter_map, List.flatMap_map]
    have hfilter : ∀ (l : List Nat) (p : Nat → Bool) (g : Nat → List (Nat × Byte)), (l.filter p).flatMap g = l.flatMap fun e => if p e then g e else [] := by
      intro l p g
      induction l with
      | nil => rfl
      | cons a l ih => cases hp : p a <;> simp [hp, ih]
    rw [hfilter]
    refine List.flatMap_congr fun e he => ?_
    simp only [Function.comp_apply, Nat.zero_add, haddr e (List.mem_range.mp he), laneOut]
    cases act e <;> cases vZero m.c <;> rfl
  have hput : b.put x m t ((upto x.n).map act) ((upto x.n).map fun e => if act e then v e else 0) =
      { b with s := b.s.writePairs (some .x) none (densePairs base (fmtBytes t) n (laneOut act (vZero m.c) v)) } := by
    rw [← hpairs, ← hcs]
    simp only [Beat.put, hgen, hcprs, isForm_not_coupler hform, if_false, decide_true, Bool.true_and, Bool.false_eq_true, ne_eq, not_false_iff]
    rfl
  exact ⟨_, State.stores_writePairs hplace .x _ false, hput⟩

end Sys2Proof.Machine
end

section
/-!
PROOFS. The beat of a command that works lane by lane (05 R107, R120 to R122, 04 R85): its results in their places, and what it observes of them.
-/

namespace Sys2Proof.Machine

/-! ### One lane after the other -/

/-- What a lane adds to a command's observations; `elem` gives the element that a lane takes from each source. -/
def laneSee (s : State) (w : VeWork) (m : VeMem) (elem : Nat → Nat → Nat) (acc : VeAcc) (e : Nat) : VeAcc :=
  (acc.result m.c (elem 0 e) (laneCode s w m e (elem 0 e) (elem 1 e) (elem 2 e))
    (laneOp m.c m.scale (scalBits m.regs m.c (vSrc m.c 1) (wSrc m.c 1)) (scalBits m.regs m.c (vSrc m.c 2) (wSrc m.c 2)) (s.maskBit (vFn m.c) e)
      (srRnd (vSr m.c) w.key (e + srBase m.c)) (elem 0 e) (elem 1 e) (elem 2 e)).cnts).slotless m.c (lxNonfin m.c (elem 0 e) (elem 1 e))

theorem nxLane_plain {c : Slot} (h : vNx c = false) (prod inBad : Bool) (code : Nat) (k : Cnts) : nxLane c prod inBad code k = (code, k) := by
  simp [nxLane, h]

/-- The results of the active lanes go to the destination, and each is observed. -/
theorem Beat.lanes_eq {b : Beat} {x : BeatCtx} {m : VeMem} (he0 : x.e0 = 0) (hnx : vNx m.c = false) (act : Nat → Bool) (src : List (List Nat)) :
    let elem := fun i e => (src.getD i []).getD e 0
    b.lanes x m ((upto x.n).map act) src =
      (b.put x m (dstTy m.c) ((upto x.n).map act) ((upto x.n).map fun e => if act e then laneCode b.s x.w m e (elem 0 e) (elem 1 e) (elem 2 e) else 0),
        { m with acc := ((upto x.n).filter act).foldl (laneSee b.s x.w m elem) m.acc }) := by
  have hfold := foldl_lanes act (fun e => laneCode b.s x.w m e ((src.getD 0 []).getD e 0) ((src.getD 1 []).getD e 0) ((src.getD 2 []).getD e 0))
    (laneSee b.s x.w m fun i e => (src.getD i []).getD e 0) x.n m.acc
  simp only [Beat.lanes, nxLane_plain hnx, he0, Nat.zero_add]
  simp only [laneSee, laneCode] at hfold ⊢
  rw [hfold]

/-- Where the destination's elements stand one after the other. -/
theorem Beat.lanes_dense {b : Beat} {x : BeatCtx} {m : VeMem} {n base : Nat} (hplace : InPlace b.s) (hcs : x.w.cs = none) (he0 : x.e0 = 0) (hn : x.n = n)
    (hnx : vNx m.c = false) (hgen : m.c.opc ≠ 0x6A) (hcprs : m.c.opc ≠ 0x5C) (hdense : Dense m n base) {act : Nat → Bool} {src : List (List Nat)}
    {elem : Nat → Nat → Nat} (helem : ∀ i e, e < n → act e = true → (src.getD i []).getD e 0 = elem i e) :
    ∃ u, Stores b.s u (densePairs base (fmtBytes (dstTy m.c)) n
        (laneOut act (vZero m.c) fun e => laneCode b.s x.w m e (elem 0 e) (elem 1 e) (elem 2 e))) ∧
      b.lanes x m ((upto x.n).map act) src = ({ b with s := u }, { m with acc := ((upto n).filter act).foldl (laneSee b.s x.w m elem) m.acc }) := by
  obtain ⟨hform, haddr, -⟩ := hdense
  obtain ⟨u, hstores, hput⟩ := Beat.put_dense hplace hcs he0 hn hgen hcprs hform haddr act
    fun e => laneCode b.s x.w m e (elem 0 e) (elem 1 e) (elem 2 e)
  refine ⟨u, hstores, ?_⟩
  have hcodes : ((upto x.n).map fun e => if act e then laneCode b.s x.w m e ((src.getD 0 []).getD e 0) ((src.getD 1 []).getD e 0) ((src.getD 2 []).getD e 0)
      else 0) = (upto x.n).map fun e => if act e then laneCode b.s x.w m e (elem 0 e) (elem 1 e) (elem 2 e) else 0 := by
    refine List.map_congr_left fun e he => ?_
    have hlt : e < n := hn ▸ List.mem_range.mp he
    cases hon : act e
    · rfl
    · simp only [if_true, helem _ e hlt hon]
  have hacc : ((upto x.n).filter act).foldl (laneSee b.s x.w m fun i e => (src.getD i []).getD e 0) m.acc =
      ((upto n).filter act).foldl (laneSee b.s x.w m elem) m.acc := by
    rw [hn]
    refine List.foldl_ext _ _ _ fun acc e he => ?_
    obtain ⟨hlt, hon⟩ := List.mem_filter.mp he
    simp only [laneSee, helem _ e (List.mem_range.mp hlt) hon]
  rw [Beat.lanes_eq he0 hnx, hcodes, hacc, hput]

/-- The part of a command that works lane by lane, where each active lane takes the elements `elem`. -/
theorem Beat.member_dense {b : Beat} {x : BeatCtx} {m : VeMem} {n base : Nat} (h : b.Ready) (hcs : x.w.cs = none) (he0 : x.e0 = 0) (hn : x.n = n)
    (hlanes : elementwise m.c = true ∨ m.c.opc = 0x58) (hmsk : vMsk m.c ≠ 8) (hftq : ftqsOf m.c = []) (hnx : vNx m.c = false) (hdense : Dense m n base)
    (hvecs : ∀ i, i < laneSrcs m.c → isVecSel (vSrc m.c i) = false) {elem : Nat → Nat → Nat}
    (helem : ∀ i e, e < n → b.s.maskBit (vMsk m.c) e = true → (if i < laneSrcs m.c then srcCode b.s b.k x m i e else 0) = elem i e) :
    ∃ r u, Stores b.s u (densePairs base (fmtBytes (dstTy m.c)) n
        (laneOut (b.s.maskBit (vMsk m.c)) (vZero m.c) fun e => laneCode b.s x.w m e (elem 0 e) (elem 1 e) (elem 2 e))) ∧
      Beat.member x b m = { b with rd := r, s := u, mems := b.mems ++
        [{ m with acc := ((upto n).filter (b.s.maskBit (vMsk m.c))).foldl (laneSee b.s x.w m elem) m.acc }] } := by
  have hopc : m.c.opc ≠ 0x6A ∧ m.c.opc ≠ 0x5C ∧ m.c.opc ≠ 0x5D ∧ ∀ (b : Beat) act src, b.compute x m act src = b.lanes x m act src := by
    obtain hew | hdq := hlanes
    · obtain ⟨-, hgen, -, -, hcprs, -, hexpd, -⟩ := elementwise_opc hew
      exact ⟨hgen, hcprs, hexpd, fun b => b.compute_elementwise hew⟩
    · refine ⟨by omega, by omega, by omega, fun b act src => ?_⟩
      simp [Beat.compute, isRed, hdq]
  obtain ⟨hgen, hcprs, hexpd, hcompute⟩ := hopc
  obtain ⟨r, hmember⟩ := Beat.member_good h he0 hgen hexpd hmsk hftq hvecs
  obtain ⟨u, hstores, hlanes⟩ := Beat.lanes_dense (b := { b with rd := r }) (src := b.codes x m (b.s.maskBit (vMsk m.c)) id) h.place hcs he0 hn hnx hgen hcprs
    hdense (elem := elem) fun i e he hon => by rw [Beat.codes_getD i (hn ▸ he) hon]; exact helem i e he hon
  refine ⟨r, u, hstores, hmember.trans ?_⟩
  rw [hcompute, hlanes]

/-! ### What a command observes -/

theorem VeAcc.slotless_observed {c : Slot} (h : observes c = true) (a : VeAcc) (nf : Nat) : a.slotless c nf = a := by simp [VeAcc.slotless, h]

/-- A command that names a slot, is no production and leaves no words observes its results: the largest finite magnitude, the non-finite ones, their
number. -/
theorem foldl_laneSee {s : State} {w : VeWork} {m : VeMem} (elem : Nat → Nat → Nat) (hobs : observes m.c = true) (hprod : isProd m.c = false)
    (hword : dstTy m.c ≠ 8) (hcvt : m.c.opc ≠ 0x5A) (l : List Nat) :
    let got := fun e => laneNum (dstTy m.c) (laneCode s w m e (elem 0 e) (elem 1 e) (elem 2 e))
    l.foldl (laneSee s w m elem) VeAcc.zero = { VeAcc.zero with
      amax := l.foldl (fun a e => maxBits a (finBits (got e))) 0, cnts := { nonfin := (l.filter fun e => !(got e).isFin).length }, elems := l.length } := by
  intro got
  induction l using List.reverseRecOn with
  | nil => rfl
  | append_singleton l e ih =>
    rw [List.foldl_concat, ih, List.foldl_concat, List.filter_append, List.length_append, List.length_append]
    simp only [laneSee, VeAcc.slotless_observed hobs, VeAcc.result, hobs, hprod, hword, hcvt, Bool.not_true, Bool.false_eq_true, if_false, VeAcc.see]
    cases hfin : (got e).isFin <;> simp [VeAcc.zero, Cnts.add, b2n, got, hfin] at *

end Sys2Proof.Machine
end

section
/-!
PROOFS. A work in its one beat that nothing holds (05 R107, R109): what a command that works lane by lane leaves in the scratchpad and in its tracker
slot.
-/

namespace Sys2Proof.Machine

/-! ### A work in its one beat -/

section
variable {s : State} {w : VeWork} {rest : List VeWork} (h : OneBeat s w rest)
include h

theorem OneBeat.beatGoes : BeatGoes s w rest := ⟨h.front, h.goes, h.noBlock, h.noWait, h.noTrip⟩

theorem OneBeat.inPlace : InPlace s := ⟨h.noLog.1, h.noLog.2.1, h.noLog.2.2.1, h.noLog.2.2.2, h.noError.2⟩

theorem OneBeat.ready : (Beat.start s.inBeat).Ready := ⟨h.inPlace.inBeat, h.noError.1, rfl, rfl⟩

theorem OneBeat.ctx_eq : w.ctx.e0 = 0 ∧ w.ctx.n = w.vlen ∧ w.ctx.last = true ∧ w.ctx.w = w := by
  obtain ⟨-, hwidth⟩ := h.lanes
  simp [VeWork.ctx, h.first, hwidth]

end

theorem foldl_one {α β : Type} {l : List α} {a : α} (h : l = [a]) (f : β → α → β) (b : β) : l.foldl f b = f b a := by rw [h]; rfl

/-! ### Merges -/

theorem State.trk_trkParity_congr {s s' : State} (h : s'.trk = s.trk) (n : Nat) : (s'.trkParity n none).trk = (s.trkParity n none).trk := by
  have hmarked : ∀ s u : State, State.Keeps ((s.modTrk n fun t => { t with bad := false, perr := true }).fault 0x08 3 none n |>.raiseCause evStateParity 2) u →
      u.trk = tmod Trk.zero s.trk n fun t => { t with bad := false, perr := true } := fun s u hu => by
    rw [hu.trk]
    simp [State.modTrk]
  cases hbad : (s.trkAt n).bad with
  | false =>
    have hbad' : (s'.trkAt n).bad = false := by rw [State.trkAt, h]; exact hbad
    rw [State.trkParity_good hbad, State.trkParity_good hbad', h]
  | true =>
    have hbad' : (s'.trkAt n).bad = true := by rw [State.trkAt, h]; exact hbad
    obtain ⟨u, hu, heq⟩ := State.trkParity_bad hbad none
    obtain ⟨u', hu', heq'⟩ := State.trkParity_bad hbad' none
    rw [heq, heq', State.trk_trip, State.trk_trip, State.modTrk, State.modTrk, hmarked s u hu, hmarked s' u' hu', h]

/-- A slot after one unit of observations, before it may trip (04 R86, R92). -/
def Trk.took (z : List (Nat × Bool)) (amax : W32) (c : Cnts) (elems : Nat) (t : Trk) : Trk :=
  { t with
    amax := maxBits t.amax amax, has := true, cnt := z.map Prod.fst, sat := (t.sat.zip z).map fun p => p.1 || p.2.2
    ep := [satInc 24 (t.ep.getD 0 0) c.spread, satInc 24 (t.ep.getD 1 0) c.flush, satInc 24 (t.ep.getD 2 0) elems] }

/-- The trackers after a slot without a flipped bit takes one unit of observations outside a consist (04 R95). -/
def mergedTrk (t : Tbl Trk) (n : Nat) (amax : W32) (c : Cnts) (elems : Nat) : Tbl Trk :=
  let u := tmod Trk.zero t n (Trk.took ((tget Trk.zero t n).sums c) amax c elems)
  if (tget Trk.zero u n).tripsOn c then tmod Trk.zero u n fun t => { t with tripped := true } else u

theorem State.trk_merge_some (s : State) (n : Nat) (amax : W32) (c : Cnts) (elems : Nat) :
    (s.merge (some n) none amax c elems).trk = mergedTrk (s.trkParity n none).trk n amax c elems := by
  have hraise : ∀ (p : Bool) (u : State), (if p then u.raise evTrkSat else u).trk = u.trk := fun p u => by
    rw [apply_ite State.trk, State.raise_trk, ite_self]
  have hmerge : ∃ u : State, s.merge (some n) none amax c elems = (if (u.trkAt n).tripsOn c then u.trip n none else u) ∧
      u.trk = ((s.trkParity n none).modTrk n (Trk.took (((s.trkParity n none).trkAt n).sums c) amax c elems)).trk := ⟨_, rfl, hraise _ _⟩
  obtain ⟨u, hu, htrk⟩ := hmerge
  rw [hu, apply_ite State.trk, State.trk_trip, State.modTrk, State.trkAt, htrk]
  rfl

/-- What such a merge makes of the trackers depends on the trackers alone. -/
theorem State.trk_merge_congr {s s' : State} (h : s'.trk = s.trk) (slot : Option Nat) (amax : W32) (c : Cnts) (elems : Nat) :
    (s'.merge slot none amax c elems).trk = (s.merge slot none amax c elems).trk := by
  cases slot with
  | none => rw [State.trk_merge_none, State.trk_merge_none, h]
  | some n => rw [State.trk_merge_some, State.trk_merge_some, State.trk_trkParity_congr h]

theorem State.trk_endWork_one {s : State} {w : VeWork} {m : VeMem} {outs : List RedOut} {whole : Bool} (hm : w.mems = [m]) (hcs : w.cs = none)
    (hct : m.c.ct = false) (hobs : observes m.c = true) (hlen : w.vlen ≠ 0) :
    (s.endWork w outs whole).trk = (s.merge m.trk none m.acc.amax m.acc.cnts m.acc.elems).trk := by
  rw [State.endWork_eq, hm, List.foldl_cons, List.foldl_nil]
  simp only [State.endMember, hct, hobs, hcs, if_pos hlen, Bool.not_true, Bool.false_and, Bool.false_eq_true, if_false]
  refine Eq.trans ?_ (State.trk_merge_congr (s := s) (s' := { s with vec := { s.vec with ve := s.vec.ve.drop 1, redq := s.vec.redq ++ outs } }) rfl ..)
  split
  · exact State.wrRegs_trk ..
  · rfl

/-- The trackers after the beat of a work of one command. -/
theorem BeatEnds.trk_one {s t : State} {w : VeWork} {rest : List VeWork} {b : Beat} {m : VeMem} (ht : BeatEnds s w rest b t) (hidle : b.idle = [])
    (hm : b.mems = [m]) (hcs : w.cs = none) (hct : m.c.ct = false) (hlen : w.vlen ≠ 0) (hbs : b.s.trk = s.trk) :
    t.trk = if observes m.c then (s.merge m.trk none m.acc.amax m.acc.cnts m.acc.elems).trk else s.trk := by
  have hclosed : (b.closed w.ctx).trk = s.trk := (Beat.closed_idle_nil hidle _).1.trans hbs
  rw [ht.trk, Beat.ended]
  split
  · next hobs => exact (State.trk_endWork_one (w := { w with mems := b.mems, beat := w.beat + 1 }) hm hcs hct hobs hlen).trans (State.trk_merge_congr hclosed ..)
  · next hobs => exact (State.trk_endWork_blind (by simp [hm, hct, hobs])).trans hclosed

/-! ### Lane by lane -/

/-- The element that a lane takes from a source of an elementwise command: 0 where there is none. -/
def formElem (s : State) (m : VeMem) (i e : Nat) : Nat := if i < laneSrcs m.c then formCode s m i e else 0

section
variable {s : State} {w : VeWork} {rest : List VeWork} {m : VeMem} {base : Nat} (h : OneBeat s w rest) (hm : w.mems = [m])
include h hm

/-- The event of a work of one command that works lane by lane: its results stand in their places, and its observations are merged. -/
theorem laneBeat_ends (hlanes : elementwise m.c = true ∨ m.c.opc = 0x58) (hdense : Dense m w.vlen base)
    (hvecs : ∀ i, i < laneSrcs m.c → isVecSel (vSrc m.c i) = false) {elem : Nat → Nat → Nat}
    (helem : ∀ i e, e < w.vlen → (if i < laneSrcs m.c then srcCode s.inBeat [] w.ctx m i e else 0) = elem i e) :
    ∃ t, exec (.veBeat []) s = .next t ∧ t.vec.ve = rest ∧
      stored s t base (fmtBytes (dstTy m.c)) w.vlen
        (laneOut (s.maskBit (vMsk m.c)) (vZero m.c) fun e => laneCode s w m e (elem 0 e) (elem 1 e) (elem 2 e)) ∧
      let acc := ((List.range w.vlen).filter (s.maskBit (vMsk m.c))).foldl (laneSee s w m elem) VeAcc.zero
      t.trk = if observes m.c then (s.merge m.trk none acc.amax acc.cnts acc.elems).trk else s.trk := by
  obtain ⟨he0, hn, hlast, hself⟩ := h.ctx_eq
  obtain ⟨hftq, hmsk, hnx, hct, hacc⟩ := h.plain m (by simp [hm])
  obtain ⟨r, u, hstores, hmember⟩ := Beat.member_dense (x := w.ctx) h.ready (by rw [hself]; exact h.free) he0 hn hlanes (by omega) hftq hnx hdense hvecs
    (elem := elem) fun i e he _ => helem i e he
  have hb := (foldl_one hm (Beat.member w.ctx) (Beat.start s.inBeat)).trans hmember
  have hopc : m.c.opc ≠ 0x68 := by
    obtain hew | hdq := hlanes
    · obtain ⟨-, -, -, -, -, -, -, hupd⟩ := elementwise_opc hew
      exact hupd
    · omega
  obtain ⟨t, ht⟩ := execVeBeat_ends h.beatGoes (by simpa [hm] using hopc) hb ⟨rfl, rfl⟩ hlast (by simp [Beat.start, hftq, hct]) (.inl h.free) hstores.beat
  refine ⟨t, ht.exec, ht.ve, stored_of_bytes ?_, ?_⟩
  · rw [ht.spm, ← hself]
    exact hstores.bytes
  · have htrk := ht.trk_one rfl rfl h.free hct h.lanes.1.ne' (by rw [hstores.only]; rfl)
    rw [hacc, hself] at htrk
    exact htrk

/-- An elementwise command from addressing forms to one. -/
theorem formBeat_ends (hew : elementwise m.c = true) (hforms : ∀ i, i < laneSrcs m.c → isForm (vSrc m.c i) = true) (hdense : Dense m w.vlen base) :
    ∃ t, exec (.veBeat []) s = .next t ∧ t.vec.ve = rest ∧
      stored s t base (fmtBytes (dstTy m.c)) w.vlen
        (laneOut (s.maskBit (vMsk m.c)) (vZero m.c) fun e => laneCode s w m e (formElem s m 0 e) (formElem s m 1 e) (formElem s m 2 e)) ∧
      let acc := ((List.range w.vlen).filter (s.maskBit (vMsk m.c))).foldl (laneSee s w m (formElem s m)) VeAcc.zero
      t.trk = if observes m.c then (s.merge m.trk none acc.amax acc.cnts acc.elems).trk else s.trk := by
  refine laneBeat_ends h hm (.inl hew) hdense (fun i hi => isForm_not_vec (hforms i hi)) fun i e _ => ?_
  unfold formElem
  split
  · next hi => exact srcCode_form h.inPlace.inBeat (hforms i hi) e
  · rfl

/-- What it observes. -/
theorem formBeat_trk (hew : elementwise m.c = true) (hforms : ∀ i, i < laneSrcs m.c → isForm (vSrc m.c i) = true) (hdense : Dense m w.vlen base)
    (hprod : isProd m.c = false) (hword : dstTy m.c ≠ 8) (hcvt : m.c.opc ≠ 0x5A) :
    let on := (List.range w.vlen).filter (s.maskBit (vMsk m.c))
    let got := fun e => laneNum (dstTy m.c) (laneCode s w m e (formElem s m 0 e) (formElem s m 1 e) (formElem s m 2 e))
    ∃ t, exec (.veBeat []) s = .next t ∧ t.trk = if vTrk m.c = 0x7F then s.trk else
      (s.merge m.trk none (on.foldl (fun a e => maxBits a (finBits (got e))) 0) { nonfin := (on.filter fun e => !(got e).isFin).length } on.length).trk := by
  obtain ⟨hred, hgen, hcmp, hmset, -⟩ := elementwise_opc hew
  obtain ⟨t, hexec, -, -, htrk⟩ := formBeat_ends h hm hew hforms hdense
  have hobs : observes m.c = !decide (vTrk m.c = 0x7F) := by simp [observes, hred, hgen, hcmp, hmset, hprod]
  refine ⟨t, hexec, htrk.trans ?_⟩
  by_cases hslot : vTrk m.c = 0x7F
  · simp only [hobs, hslot, decide_true, Bool.not_true, Bool.false_eq_true, if_false, if_true]
  · rw [if_pos (by simp [hobs, hslot]), if_neg hslot, foldl_laneSee (formElem s m) (by simp [hobs, hslot]) hprod hword hcvt]

/-- VDQ: each element is the decoded one times the tensor scale, rounded once (05 R116). -/
theorem vdqBeat_ends (hopc : m.c.opc = 0x58) (hsrc : vSrc m.c 0 = 0x1C) (hdense : Dense m w.vlen base) :
    ∃ t, exec (.veBeat []) s = .next t ∧ t.vec.ve = rest ∧
      stored s t base (fmtBytes (dstTy m.c)) w.vlen (laneOut (s.maskBit (vMsk m.c)) (vZero m.c) fun e => s.vdqElem m e) := by
  have hsrcs : laneSrcs m.c = 1 := by simp [laneSrcs, nSrc, hopc]
  have hsel : ∀ i, i < laneSrcs m.c → vSrc m.c i = 0x1C := fun i hi => by rw [show i = 0 by omega, hsrc]
  obtain ⟨t, hexec, hve, hstored, -⟩ := laneBeat_ends h hm (.inr hopc) hdense (fun i hi => by rw [hsel i hi]; rfl)
    (elem := fun i e => if i < laneSrcs m.c then s.vdqElem m e else 0) fun i e _ => by
      split
      · next hi =>
        simp only [srcCode, hsel i hi]
        rfl
      · rfl
  refine ⟨t, hexec, hve, ?_⟩
  have hcode : ∀ e a b d, laneCode s w m e a b d = a := fun e a b d => by simp [laneCode, laneOp, hopc]
  simpa only [hcode, hsrcs, Nat.zero_lt_one, if_true] using hstored

end

/-- The element of a block-scaled tensor that VDQ takes inside its edge. -/
theorem State.vdqElem_inside {s : State} {m : VeMem} {e : Nat} {d : Bsd} (hd : bsdAt m.regs m.c (wSrc m.c 0) = d) (hsq : d.sq = false)
    (hfmt : isBlockFmt d.fmt = true) (he : e < d.rows * d.cols) :
    s.vdqElem m e = roundTo (vOt m.c) ((rowElem d.fmt (s.readBlk d (e / d.cols) (e % d.cols / 32)).1 (e % d.cols % 32)).v.mul (fp32 m.scale)) := by
  have hcols : 0 < d.cols := Nat.pos_of_ne_zero fun h0 => by
    rw [h0, Nat.mul_zero] at he
    exact absurd he (Nat.not_lt_zero e)
  have hrow : e / d.cols < d.rows := Nat.div_lt_of_lt_mul (by rw [Nat.mul_comm]; exact he)
  have hcol : e % d.cols < d.cols := Nat.mod_lt _ hcols
  have hpos : bsdPos d e = (e / d.cols, e % d.cols) := by simp only [bsdPos, hsq, Bool.false_eq_true, if_false]
  simp only [State.vdqElem, hd, hpos, hfmt, Bool.not_true, Bool.false_eq_true, if_false, not_le.mpr hrow, not_le.mpr hcol, decide_false, Bool.or_self]

end Sys2Proof.Machine
end

section
/-!
PROOFS. Comparisons to a mask register, expansions, and chains of two through a coupler (05 R114, R118, R120, R121, R125).
-/

namespace Sys2Proof.Machine

/-! ### A comparison to a mask register -/

theorem OneBeat.lanes_le {s : State} {w : VeWork} {rest : List VeWork} {m : VeMem} (h : OneBeat s w rest) (hm : w.mems = [m]) (hopc : m.c.opc ≠ 0x6A) :
    w.vlen ≤ 1024 := by
  obtain ⟨-, hwidth⟩ := h.lanes
  have hbeat : w.width = beatOf w.slots := by simp only [VeWork.width, hm, hopc, if_false]
  have hmax : ∀ l, beatOf l ≤ 1024 := fun l => by
    unfold beatOf
    dsimp only
    repeat' split
    all_goals decide
  exact hwidth.trans (hbeat ▸ hmax _)

/-- The beat of a VCMP to a mask register. -/
theorem Beat.member_vcmp {b : Beat} {x : BeatCtx} {m : VeMem} {k : Nat} (h : b.Ready) (he0 : x.e0 = 0) (hopc : m.c.opc = 0x4E) (hmsk : vMsk m.c ≠ 8)
    (hftq : ftqsOf m.c = []) (hdst : vDst m.c = 0x20 + k) (h0 : isForm (vSrc m.c 0) = true) (h1 : isForm (vSrc m.c 1) = true) :
    ∃ (r : List Nat) (bits : Nat → Bool), (∀ e, e < x.n → b.s.maskBit (vMsk m.c) e = true →
        bits e = vCmp (vOt m.c) (vFn m.c) (formCode b.s m 0 e) (formCode b.s m 1 e)) ∧
      Beat.member x b m = { b with rd := r, mems := b.mems ++ [m], s := { b.s with vec := { b.s.vec with m := tset 0 b.s.vec.m k (setBits (tget 0 b.s.vec.m k)
        (((List.range x.n).filter fun e => b.s.maskBit (vMsk m.c) e || vZero m.c).map fun e => (e, b.s.maskBit (vMsk m.c) e && bits e))) } } } := by
  have hsrcs : laneSrcs m.c = 2 := by simp [laneSrcs, nSrc, hopc]
  have hforms : ∀ i, i < laneSrcs m.c → isForm (vSrc m.c i) = true := fun i hi => by
    obtain rfl | rfl : i = 0 ∨ i = 1 := by omega
    · exact h0
    · exact h1
  obtain ⟨r, hmember⟩ := Beat.member_good h he0 (by omega) (by omega) hmsk hftq fun i hi => isForm_not_vec (hforms i hi)
  have helem : ∀ i e, i < 2 → e < x.n → b.s.maskBit (vMsk m.c) e = true →
      ((b.codes x m (b.s.maskBit (vMsk m.c)) id).getD i []).getD e 0 = formCode b.s m i e := fun i e hi he hon => by
    rw [Beat.codes_getD i he hon, if_pos (by omega)]
    exact srcCode_form h.place (hforms i (by omega)) e
  have hcompute : ∀ (b : Beat) act src, b.compute x m act src =
      (b.putBits x m act ((upto x.n).map fun e => vCmp (vOt m.c) (vFn m.c) ((src.getD 0 []).getD e 0) ((src.getD 1 []).getD e 0)), m) := fun b act src => by
    simp [Beat.compute, isRed, hopc, Beat.bits]
  refine ⟨r, fun e => vCmp (vOt m.c) (vFn m.c) (((b.codes x m (b.s.maskBit (vMsk m.c)) id).getD 0 []).getD e 0)
    (((b.codes x m (b.s.maskBit (vMsk m.c)) id).getD 1 []).getD e 0), fun e he hon => ?_, ?_⟩
  · exact congrArg₂ (vCmp (vOt m.c) (vFn m.c)) (helem 0 e (by decide) he hon) (helem 1 e (by decide) he hon)
  · rw [hmember, hcompute, Beat.putBits_mask hdst]

theorem vcmpBeat_ends {s : State} {w : VeWork} {rest : List VeWork} {m : VeMem} {k : Nat} (h : OneBeat s w rest) (hm : w.mems = [m]) (hopc : m.c.opc = 0x4E)
    (h0 : isForm (vSrc m.c 0) = true) (h1 : isForm (vSrc m.c 1) = true) (hk : 1 ≤ k) (hdst : vDst m.c = 0x20 + k) :
    ∃ t : State, exec (.veBeat []) s = .next t ∧ t.vec.ve = rest ∧ sameSpm s t ∧ sameRegs s t ∧
      (∀ e, e < w.vlen → t.maskBit k e = if s.maskBit (vMsk m.c) e then vCmp (vOt m.c) (vFn m.c) (formCode s m 0 e) (formCode s m 1 e)
        else !vZero m.c && s.maskBit k e) ∧
      ∀ e, w.vlen ≤ e → t.maskBit k e = s.maskBit k e := by
  obtain ⟨he0, hn, hlast, -⟩ := h.ctx_eq
  obtain ⟨hftq, hmsk, -, hct, -⟩ := h.plain m (by simp [hm])
  obtain ⟨r, bits, hbits, hmember⟩ := Beat.member_vcmp (x := w.ctx) h.ready he0 hopc (by omega) hftq hdst h0 h1
  have hb := (foldl_one hm (Beat.member w.ctx) (Beat.start s.inBeat)).trans hmember
  obtain ⟨t, ht⟩ := execVeBeat_ends h.beatGoes (by simp [hm, hopc]) hb ⟨rfl, rfl⟩ hlast (by simp [Beat.start, hftq, hct]) (.inl h.free) (onlyRecords.refl _)
  have hregs := ht.sX
  rw [VeWork.countRegs_nil (by simp [Beat.start, hopc])] at hregs
  have hk0 : k ≠ 0 := by omega
  have hmask : ∀ e, e < 1024 → t.maskBit k e =
      if e < w.vlen ∧ (s.maskBit (vMsk m.c) e || vZero m.c) = true then s.maskBit (vMsk m.c) e && bits e else s.maskBit k e := fun e he => by
    rw [State.maskBit, if_neg hk0, ht.masks, tget_tset_same, getLsbD_setBits he, hn]
    refine if_congr Iff.rfl rfl ?_
    rw [State.maskBit, if_neg hk0]
    rfl
  refine ⟨t, ht.exec, ht.ve, ht.spm, sameRegs_of_streams ht.sA hregs, fun e he => ?_, fun e he => ?_⟩
  · rw [hmask e (by have := h.lanes_le hm (by omega); omega)]
    cases hon : s.maskBit (vMsk m.c) e with
    | true =>
      have hbit : bits e = vCmp (vOt m.c) (vFn m.c) (formCode s m 0 e) (formCode s m 1 e) := hbits e (hn ▸ he) hon
      simp [he, hbit]
    | false => cases vZero m.c <;> simp [he]
  · by_cases hlt : e < 1024
    · rw [hmask e hlt, if_neg (by omega)]
    · rw [State.maskBit, State.maskBit, if_neg hk0, if_neg hk0, BitVec.getLsbD_of_ge _ _ (by omega), BitVec.getLsbD_of_ge _ _ (by omega)]

/-! ### An expansion -/

/-- How many active lanes lie before a lane. -/
def laneRank (act : Nat → Bool) (e : Nat) : Nat := ((List.range e).filter act).length

theorem laneRank_succ (act : Nat → Bool) (e : Nat) : laneRank act (e + 1) = laneRank act e + b2n (act e) := by
  rw [laneRank, List.range_succ, List.filter_append, List.length_append, List.filter_singleton, laneRank]
  cases act e <;> rfl

theorem laneRank_lt {act : Nat → Bool} {n e : Nat} (he : e < n) (hon : act e = true) : laneRank act e < laneRank act n := by
  have hsub : laneRank act (e + 1) ≤ laneRank act n := (List.Sublist.filter act (List.range_sublist.mpr he)).length_le
  rw [laneRank_succ, hon] at hsub
  exact hsub

theorem foldl_laneRank (act : Nat → Bool) (n : Nat) :
    ((upto n).map act).foldl (fun (a : Nat × List Nat) b => (a.1 + b2n b, a.2 ++ [a.1])) (0, []) = (laneRank act n, (upto n).map (laneRank act)) := by
  induction n with
  | zero => rfl
  | succ n ih =>
    simp only [upto] at ih ⊢
    rw [List.range_succ, List.map_append, List.foldl_append, ih, List.map_append, laneRank_succ]
    rfl

/-- The elements that VEXPD takes: the source's first ones, in order. -/
theorem laneElems_vexpd {x : BeatCtx} {m : VeMem} (hopc : m.c.opc = 0x5D) (hcount : m.acc.count = 0) (act : Nat → Bool) :
    laneElems x m ((upto x.n).map act) = (upto x.n).map (laneRank act) := by
  simp only [laneElems, hopc, if_true, hcount, foldl_laneRank]

theorem expShort_vexpd {m : VeMem} {n : Nat} {act : Nat → Bool} (hroom : laneRank act n ≤ (vForm m.regs m.c 0).count) :
    expShort m ((upto n).map act) ((upto n).map (laneRank act)) = false := by
  rw [expShort, upto, zip_map_range, Bool.and_eq_false_iff]
  refine .inr (List.any_eq_false.mpr fun p hp => ?_)
  obtain ⟨e, he, rfl⟩ := List.mem_map.mp hp
  simp only [Bool.and_eq_true, decide_eq_true_eq, not_and, not_le]
  exact fun hon => (laneRank_lt (List.mem_range.mp he) hon).trans_le hroom

/-- The beat of a VEXPD whose source holds enough elements. -/
theorem Beat.member_vexpd {b : Beat} {x : BeatCtx} {m : VeMem} {n base : Nat} (h : b.Ready) (hcs : x.w.cs = none) (he0 : x.e0 = 0) (hn : x.n = n)
    (hopc : m.c.opc = 0x5D) (hmsk : vMsk m.c ≠ 8) (hftq : ftqsOf m.c = []) (hnx : vNx m.c = false) (hcount : m.acc.count = 0)
    (hform : isForm (vSrc m.c 0) = true) (hroom : laneRank (b.s.maskBit (vMsk m.c)) n ≤ (vForm m.regs m.c 0).count) (hdense : Dense m n base) :
    ∃ r u acc, Stores b.s u (densePairs base (fmtBytes (dstTy m.c)) n
        (laneOut (b.s.maskBit (vMsk m.c)) (vZero m.c) fun e => formCode b.s m 0 (laneRank (b.s.maskBit (vMsk m.c)) e))) ∧
      Beat.member x b m = { b with rd := r, s := u, mems := b.mems ++ [{ m with acc := acc }] } := by
  have hsrcs : laneSrcs m.c = 1 := by simp [laneSrcs, nSrc, hopc]
  have hvecs : ∀ i, i < laneSrcs m.c → isVecSel (vSrc m.c i) = false := fun i hi => by
    rw [show i = 0 by omega]
    exact isForm_not_vec hform
  have hcode : ∀ e a b' d, laneCode b.s x.w m e a b' d = a := fun e a b' d => by simp [laneCode, laneOp, hopc]
  have helems := laneElems_vexpd (x := x) hopc hcount (b.s.maskBit (vMsk m.c))
  obtain ⟨r, hread⟩ := Beat.sources_good (x := x) h hvecs (b.s.maskBit (vMsk m.c)) (laneRank (b.s.maskBit (vMsk m.c)))
  rw [← helems] at hread
  obtain ⟨u, hstores, hlanes⟩ := Beat.lanes_dense (b := { b with rd := r }) h.place hcs he0 hn hnx (by omega) (by omega) hdense
    (act := b.s.maskBit (vMsk m.c)) (src := b.codes x m (b.s.maskBit (vMsk m.c)) (laneRank (b.s.maskBit (vMsk m.c))))
    (elem := fun i e => if i < 1 then formCode b.s m 0 (laneRank (b.s.maskBit (vMsk m.c)) e) else 0) fun i e he hon => by
      rw [Beat.codes_getD i (hn ▸ he) hon, hsrcs]
      split
      · next hi =>
        obtain rfl : i = 0 := by omega
        exact srcCode_form h.place hform _
      · rfl
  have hcompute : ∀ (b : Beat) act src, b.compute x m act src = ((b.lanes x m act src).1, { (b.lanes x m act src).2 with acc :=
      { (b.lanes x m act src).2.acc with count := (b.lanes x m act src).2.acc.count + (act.filter id).length } }) := fun b act src => by
    simp [Beat.compute, isRed, hopc]
  refine ⟨r, u, _, ?_, (Beat.member_eq ⟨h.bad, h.short⟩ (List.map_congr_left fun i _ => laneActive_free (by omega) hmsk hftq i)
    (by rw [helems, hn]; exact expShort_vexpd hroom) (Beat.loadVecs_none hvecs) hread h.bad).trans (by rw [hcompute, hlanes])⟩
  simpa only [hcode, Nat.zero_lt_one, if_true] using hstores

/-- VEXPD: the active lanes take the source's elements in order (05 R125). -/
theorem vexpdBeat_ends {s : State} {w : VeWork} {rest : List VeWork} {m : VeMem} {base : Nat} (h : OneBeat s w rest) (hm : w.mems = [m])
    (hopc : m.c.opc = 0x5D) (hform : isForm (vSrc m.c 0) = true) (hroom : laneRank (s.maskBit (vMsk m.c)) w.vlen ≤ (vForm m.regs m.c 0).count)
    (hdense : Dense m w.vlen base) :
    ∃ t : State, exec (.veBeat []) s = .next t ∧ t.vec.ve = rest ∧ stored s t base (fmtBytes (dstTy m.c)) w.vlen
      (laneOut (s.maskBit (vMsk m.c)) (vZero m.c) fun e => formCode s m 0 (laneRank (s.maskBit (vMsk m.c)) e)) := by
  obtain ⟨he0, hn, hlast, hself⟩ := h.ctx_eq
  obtain ⟨hftq, hmsk, hnx, hct, hacc⟩ := h.plain m (by simp [hm])
  obtain ⟨r, u, acc, hstores, hmember⟩ := Beat.member_vexpd (x := w.ctx) h.ready (by rw [hself]; exact h.free) he0 hn hopc (by omega) hftq hnx
    (by rw [hacc]; rfl) hform hroom hdense
  have hb := (foldl_one hm (Beat.member w.ctx) (Beat.start s.inBeat)).trans hmember
  obtain ⟨t, ht⟩ := execVeBeat_ends h.beatGoes (by simp [hm, hopc]) hb ⟨rfl, rfl⟩ hlast (by simp [Beat.start, hftq, hct]) (.inl h.free) hstores.beat
  refine ⟨t, ht.exec, ht.ve, stored_of_bytes ?_⟩
  rw [ht.spm]
  exact hstores.bytes

/-! ### A chain of two through a coupler -/

/-- Results of all lanes to a coupler. -/
theorem Beat.put_coupler {b : Beat} {x : BeatCtx} {m : VeMem} {t : Nat} (hgen : m.c.opc ≠ 0x6A) (hdst : isK (vDst m.c) = true) (v : Nat → Nat) :
    b.put x m t ((upto x.n).map fun _ => true) ((upto x.n).map v) =
      { b with k := (vDst m.c, t, (upto x.n).map v) :: b.k.filter fun p => p.1 ≠ vDst m.c } := by
  simp only [Beat.put, hgen, if_false, hdst, if_true]
  rw [upto, zip_map_range, zipIdx_map_range, List.map_map]
  rfl

/-- The first command of a chain, each lane active: its results wait in the coupler. -/
theorem Beat.member_coupler {b : Beat} {x : BeatCtx} {m : VeMem} (h : b.Ready) (he0 : x.e0 = 0) (hew : elementwise m.c = true) (hmsk : vMsk m.c = 0)
    (hftq : ftqsOf m.c = []) (hnx : vNx m.c = false) (hform : isForm (vSrc m.c 0) = true) (hsrcs : laneSrcs m.c = 1) (hdst : isK (vDst m.c) = true) :
    ∃ r acc, Beat.member x b m = { b with
      rd := r, mems := b.mems ++ [{ m with acc := acc }]
      k := (vDst m.c, dstTy m.c, (upto x.n).map fun e => laneCode b.s x.w m e (formCode b.s m 0 e) 0 0) :: b.k.filter fun p => p.1 ≠ vDst m.c } := by
  obtain ⟨-, hgen, -, -, -, -, hexpd, -⟩ := elementwise_opc hew
  have hvecs : ∀ i, i < laneSrcs m.c → isVecSel (vSrc m.c i) = false := fun i hi => by
    rw [show i = 0 by omega]
    exact isForm_not_vec hform
  obtain ⟨r, hmember⟩ := Beat.member_good h he0 hgen hexpd (by omega) hftq hvecs
  have hall : ∀ e, b.s.maskBit (vMsk m.c) e = true := fun e => by rw [hmsk, State.maskBit, if_pos rfl]
  have helem : ∀ i e, e < x.n → ((b.codes x m (fun _ => true) id).getD i []).getD e 0 = if i < 1 then formCode b.s m 0 e else 0 := fun i e he => by
    rw [Beat.codes_getD i he rfl, hsrcs]
    split
    · next hi =>
      obtain rfl : i = 0 := by omega
      exact srcCode_form h.place hform e
    · rfl
  have hcodes : ((upto x.n).map fun e => if (fun _ : Nat => true) e then laneCode b.s x.w m e (((b.codes x m (fun _ => true) id).getD 0 []).getD e 0)
      (((b.codes x m (fun _ => true) id).getD 1 []).getD e 0) (((b.codes x m (fun _ => true) id).getD 2 []).getD e 0) else 0) =
        (upto x.n).map fun e => laneCode b.s x.w m e (formCode b.s m 0 e) 0 0 :=
    List.map_congr_left fun e he => by
      simp only [if_true, helem _ e (List.mem_range.mp he)]
      rfl
  rw [show b.s.maskBit (vMsk m.c) = fun _ => true from funext hall] at hmember
  refine ⟨r, ((upto x.n).filter fun _ => true).foldl (laneSee b.s x.w m fun i e => ((b.codes x m (fun _ => true) id).getD i []).getD e 0) m.acc,
    hmember.trans ?_⟩
  rw [Beat.compute_elementwise hew, Beat.lanes_eq he0 hnx]
  dsimp only
  rw [hcodes, Beat.put_coupler hgen hdst]

theorem chainBeat_ends {s : State} {w : VeWork} {rest : List VeWork} {m1 m : VeMem} {base : Nat} (h : OneBeat s w rest) (hm : w.mems = [m1, m])
    (hew1 : elementwise m1.c = true) (hew : elementwise m.c = true) (hform : isForm (vSrc m1.c 0) = true) (hsrcs1 : laneSrcs m1.c = 1)
    (hsrcs : laneSrcs m.c = 1) (hdst : isK (vDst m1.c) = true) (hsrc : vSrc m.c 0 = vDst m1.c) (hbits : fmtBits (srcTy m.c 0) = fmtBits (dstTy m1.c))
    (hmsk1 : vMsk m1.c = 0) (hdense : Dense m w.vlen base) :
    ∃ t : State, exec (.veBeat []) s = .next t ∧ t.vec.ve = rest ∧ stored s t base (fmtBytes (dstTy m.c)) w.vlen
      (laneOut (s.maskBit (vMsk m.c)) (vZero m.c) fun e => laneCode s w m e (laneCode s w m1 e (formCode s m1 0 e) 0 0) 0 0) := by
  obtain ⟨he0, hn, hlast, hself⟩ := h.ctx_eq
  obtain ⟨hftq1, -, hnx1, hct1, -⟩ := h.plain m1 (by simp [hm])
  obtain ⟨hftq, hmsk, hnx, hct, -⟩ := h.plain m (by simp [hm])
  obtain ⟨-, -, -, -, -, -, -, hupd1⟩ := elementwise_opc hew1
  obtain ⟨-, -, -, -, -, -, -, hupd⟩ := elementwise_opc hew
  obtain ⟨r1, acc1, hmember1⟩ := Beat.member_coupler (x := w.ctx) h.ready he0 hew1 hmsk1 hftq1 hnx1 hform hsrcs1 hdst
  have hsel : isK (vSrc m.c 0) = true := hsrc ▸ hdst
  have hvec : isVecSel (vSrc m.c 0) = false := by
    simp only [isK, Bool.and_eq_true, decide_eq_true_eq] at hsel
    simp only [isVecSel, Bool.or_eq_false_iff, decide_eq_false_iff_not]
    omega
  have hready : (Beat.member w.ctx (Beat.start s.inBeat) m1).Ready := by
    rw [hmember1]
    exact ⟨h.ready.place, h.ready.good, rfl, rfl⟩
  obtain ⟨r, u, hstores, hmember⟩ := Beat.member_dense (x := w.ctx) hready (by rw [hself]; exact h.free) he0 hn (.inl hew) (by omega) hftq hnx hdense
    (fun i hi => by rw [show i = 0 by omega]; exact hvec)
    (elem := fun i e => if i < 1 then laneCode s w m1 e (formCode s m1 0 e) 0 0 else 0) fun i e he _ => by
      rw [hsrcs]
      refine if_ctx_congr Iff.rfl (fun hi => ?_) fun _ => rfl
      obtain rfl : i = 0 := by omega
      simp only [hmember1, srcCode, hdst, if_true, hsrc, List.find?_cons, decide_true, hbits, he0, Nat.zero_le, Bool.true_and, Nat.zero_add, hn, he]
      rw [Nat.sub_zero, hself, upto]
      simp only [List.getD, List.getElem?_map, List.getElem?_range he]
      rfl
  have hb : w.mems.foldl (Beat.member w.ctx) (Beat.start s.inBeat) = Beat.member w.ctx (Beat.member w.ctx (Beat.start s.inBeat) m1) m := by rw [hm]; rfl
  rw [hmember, hmember1] at hb
  rw [hmember1] at hstores
  obtain ⟨t, ht⟩ := execVeBeat_ends h.beatGoes (by simp [hm, hupd1, hupd]) hb ⟨rfl, rfl⟩ hlast (by simp [Beat.start, hftq, hct, hftq1, hct1]) (.inl h.free)
    hstores.beat
  refine ⟨t, ht.exec, ht.ve, stored_of_bytes ?_⟩
  rw [ht.spm, ← hself]
  exact hstores.bytes

end Sys2Proof.Machine
end

section
/-!
PROOFS. Compressions (05 R125): the active elements at the first places of the destination; and the deferred halt of one that does not fit (07 R196).
-/

namespace Sys2Proof.Machine

/-! ### The beat of a compression -/

theorem filterMap_on {α : Type} (on : Nat → Bool) (f : Nat → α) (l : List Nat) :
    (l.filterMap fun e => if on e then some (f e) else none) = (l.filter on).map f := by
  induction l with
  | nil => rfl
  | cons e l ih => cases hon : on e <;> simp [hon, ih]

/-- A list's elements with their places. -/
theorem flatMap_zipIdx {α β : Type} (g : α → Nat → List β) (l : List α) :
    l.zipIdx.flatMap (fun p => g p.1 p.2) = (List.range l.length).flatMap fun i => (l[i]?).elim [] fun a => g a i := by
  induction l using List.reverseRecOn with
  | nil => rfl
  | append_singleton l a ih =>
    rw [List.zipIdx_append, List.flatMap_append, ih, List.length_append, List.length_singleton, List.range_succ, List.flatMap_append]
    congr 1
    · refine List.flatMap_congr fun i hi => ?_
      rw [List.getElem?_append_left (List.mem_range.mp hi)]
    · simp

theorem VeAcc.count_result (a : VeAcc) (c : Slot) (input code : Nat) (k : Cnts) : (a.result c input code k).count = a.count := by
  unfold VeAcc.result
  split
  · rfl
  · split
    · rfl
    · split <;> rfl

theorem VeAcc.count_foldl_result (a : VeAcc) (c : Slot) (l : List Nat) : (l.foldl (fun (a : VeAcc) v => a.result c v v {}) a).count = a.count := by
  induction l generalizing a with
  | nil => rfl
  | cons v l ih => rw [List.foldl_cons, ih, VeAcc.count_result]

theorem compress_vals {m : VeMem} (hnx : vNx m.c = false) (act : Nat → Bool) (v : Nat → Nat) (n : Nat) :
    ((((upto n).map act).zip ((upto n).map fun e => if act e then v e else 0)).filterMap fun p => if p.1 then some (nxLane m.c false false p.2 {}).1 else none) =
      ((List.range n).filter act).map v := by
  rw [upto, zip_map_range, List.filterMap_map]
  refine Eq.trans (List.filterMap_congr fun e _ => ?_) (filterMap_on act v _)
  simp only [Function.comp_apply, nxLane_plain hnx]
  cases act e <;> rfl

section
variable {b : Beat} {x : BeatCtx} {m : VeMem} (hnx : vNx m.c = false) (hdst : isForm (vDst m.c) = true) (hcount : m.acc.count = 0)
  (act : Nat → Bool) (v : Nat → Nat)
include hnx hdst hcount

/-- A compression that does not fit. -/
theorem Beat.compress_short (hshort : (vDstForm m.regs m.c).count < ((List.range x.n).filter act).length) :
    b.compress x m ((upto x.n).map act) ((upto x.n).map fun e => if act e then v e else 0) = ({ b with short := some m.c }, m) := by
  simp only [Beat.compress, compress_vals hnx, isForm_not_coupler hdst, Bool.false_eq_true, if_false, hcount, Nat.zero_add, List.length_map, hshort,
    if_true]

/-- One that fits: its elements stand at the first places, and it has counted them. -/
theorem Beat.compress_dense {n base : Nat} (hplace : InPlace b.s) (hcs : x.w.cs = none) (hn : n = ((List.range x.n).filter act).length)
    (hfits : n ≤ (vDstForm m.regs m.c).count) (haddr : ∀ e, e < n → (vDstForm m.regs m.c).addrN e = base + fmtBytes (vOt m.c) * e) :
    ∃ u acc, Stores b.s u (densePairs base (fmtBytes (vOt m.c)) n fun k => (((List.range x.n).filter act)[k]?).map v) ∧ acc.count = n ∧
      b.compress x m ((upto x.n).map act) ((upto x.n).map fun e => if act e then v e else 0) = ({ b with s := u }, { m with acc := acc }) := by
  have hpairs : (((List.range x.n).filter act).map v).zipIdx.flatMap (fun (y, i) => (leBytes (fmtBytes (vOt m.c)) y).zipIdx.map fun (z, j) =>
      ((vDstForm m.regs m.c).addrN i + j, z)) = densePairs base (fmtBytes (vOt m.c)) n fun k => (((List.range x.n).filter act)[k]?).map v := by
    refine (flatMap_zipIdx (fun y i => pairsAt ((vDstForm m.regs m.c).addrN i) (leBytes (fmtBytes (vOt m.c)) y)) _).trans ?_
    rw [List.length_map, ← hn, densePairs]
    refine List.flatMap_congr fun i hi => ?_
    rw [haddr i (List.mem_range.mp hi), List.getElem?_map]
  refine ⟨_, { (((List.range x.n).filter act).map v).foldl (fun (a : VeAcc) v => a.result m.c v v {}) m.acc with count := n },
    State.stores_writePairs hplace .x _ false, rfl, ?_⟩
  simp only [Beat.compress, compress_vals hnx, isForm_not_coupler hdst, Bool.false_eq_true, if_false, hcount, Nat.zero_add, List.length_map, ← hn,
    not_lt.mpr hfits, hcs, hpairs, VeAcc.count_foldl_result]

end

/-- The beat of a command that works on one source, an addressing form. -/
theorem Beat.member_one {b : Beat} {x : BeatCtx} {m : VeMem} {work : Beat → List Bool → List Nat → Beat × VeMem} (h : b.Ready) (he0 : x.e0 = 0)
    (hgen : m.c.opc ≠ 0x6A) (hexpd : m.c.opc ≠ 0x5D) (hmsk : vMsk m.c ≠ 8) (hftq : ftqsOf m.c = []) (hsrcs : laneSrcs m.c = 1)
    (hform : isForm (vSrc m.c 0) = true) (hwork : ∀ (b : Beat) act src, b.compute x m act src = work b act (src.getD 0 [])) :
    ∃ r, ∀ q, work { b with rd := r } ((upto x.n).map (b.s.maskBit (vMsk m.c)))
        ((upto x.n).map fun e => if b.s.maskBit (vMsk m.c) e then formCode b.s m 0 e else 0) = q →
      Beat.member x b m = { q.1 with mems := q.1.mems ++ [q.2] } := by
  obtain ⟨r, hmember⟩ := Beat.member_good h he0 hgen hexpd hmsk hftq fun i hi => by
    rw [show i = 0 by omega]
    exact isForm_not_vec hform
  have hcodes : (b.codes x m (b.s.maskBit (vMsk m.c)) id).getD 0 [] = (upto x.n).map fun e => if b.s.maskBit (vMsk m.c) e then formCode b.s m 0 e else 0 := by
    simp [Beat.codes, hsrcs, upto, srcCode_form h.place hform]
  refine ⟨r, fun q hq => hmember.trans ?_⟩
  rw [hwork, hcodes, hq]

/-- The beat of a compression. -/
theorem Beat.member_vcprs {b : Beat} {x : BeatCtx} {m : VeMem} (h : b.Ready) (he0 : x.e0 = 0) (hopc : m.c.opc = 0x5C) (hmsk : vMsk m.c ≠ 8)
    (hftq : ftqsOf m.c = []) (hform : isForm (vSrc m.c 0) = true) :
    ∃ r, ∀ q, Beat.compress { b with rd := r } x m ((upto x.n).map (b.s.maskBit (vMsk m.c)))
        ((upto x.n).map fun e => if b.s.maskBit (vMsk m.c) e then formCode b.s m 0 e else 0) = q →
      Beat.member x b m = { q.1 with mems := q.1.mems ++ [q.2] } :=
  Beat.member_one (work := fun b act src => b.compress x m act src) h he0 (by omega) (by omega) hmsk hftq (by simp [laneSrcs, nSrc, hopc]) hform
    fun b act src => by simp [Beat.compute, isRed, hopc]

/-! ### One that fits -/

theorem vcprsBeat_ends {s : State} {w : VeWork} {rest : List VeWork} {m : VeMem} {base n : Nat} (h : OneBeat s w rest) (hm : w.mems = [m])
    (hopc : m.c.opc = 0x5C) (hform : isForm (vSrc m.c 0) = true) (hdst : isForm (vDst m.c) = true)
    (hn : n = ((List.range w.vlen).filter (s.maskBit (vMsk m.c))).length) (hfits : n ≤ (vDstForm m.regs m.c).count)
    (haddr : ∀ e, e < n → (vDstForm m.regs m.c).addrN e = base + fmtBytes (dstTy m.c) * e) :
    ∃ t : State, exec (.veBeat []) s = .next t ∧ t.vec.ve = rest ∧
      stored s t base (fmtBytes (dstTy m.c)) n (fun k => (((List.range w.vlen).filter (s.maskBit (vMsk m.c)))[k]?).map (formCode s m 0)) ∧
      (w.pend.contains (0, vFn m.c) = true → t.sX.rdN (vFn m.c) = BitVec.ofNat 32 n) := by
  obtain ⟨he0, hctx, hlast, hself⟩ := h.ctx_eq
  obtain ⟨hftq, hmsk, hnx, hct, hacc⟩ := h.plain m (by simp [hm])
  have hty : dstTy m.c = vOt m.c := by simp [dstTy, hopc]
  obtain ⟨r, hmember⟩ := Beat.member_vcprs (x := w.ctx) h.ready he0 hopc (by omega) hftq hform
  obtain ⟨u, acc, hstores, hcount, hcompress⟩ := Beat.compress_dense (b := { Beat.start s.inBeat with rd := r }) (x := w.ctx) hnx hdst (by rw [hacc]; rfl)
    (s.maskBit (vMsk m.c)) (formCode s m 0) h.ready.place (by rw [hself]; exact h.free) (by rw [hctx]; exact hn) hfits (hty ▸ haddr)
  have hb := (foldl_one hm (Beat.member w.ctx) (Beat.start s.inBeat)).trans (hmember _ hcompress)
  obtain ⟨t, ht⟩ := execVeBeat_ends h.beatGoes (by simp [hm, hopc]) hb ⟨rfl, rfl⟩ hlast (by simp [Beat.start, hftq, hct]) (.inl h.free) hstores.beat
  refine ⟨t, ht.exec, ht.ve, stored_of_bytes ?_, fun hpend => ?_⟩
  · rw [ht.spm, hty, ← hctx]
    exact hstores.bytes
  · have hregs : VeWork.countRegs { w with mems := [{ m with acc := acc }] } true = [⟨0, vFn m.c, n⟩] := by
      rw [VeWork.countRegs, List.flatMap_singleton, if_pos (by rw [hpend]; simp [hopc, h.lanes.1.ne']), hcount]
    have hX : t.sX = s.sX.wrReg ⟨0, vFn m.c, n⟩ := ht.sX.trans (congrArg (List.foldl Stream.wrReg s.sX) hregs)
    rw [hX]
    exact tget_tset_same ..

/-! ### One that does not -/

/-- A beat in which a form was too short: the work has ended, and its stream is to halt. -/
theorem State.veBeat_short {s : State} {w : VeWork} {b : Beat} {c : Slot} (hb : w.mems.foldl (Beat.member w.ctx) (Beat.start s) = b) (hbad : b.bad = none)
    (hshort : b.short = some c) (hidle : b.idle = []) (hplace : InPlace s) (hgood : ∀ k, s.spm.eccW k = .good) :
    s.veBeat w [] = (s.endWork w [] false).deferHalt .x 6 0 c.tag c.kind (w.lwOf c) := by
  have hstart : w.mems.foldl (Beat.member w.ctx) { s := s, k := [], rd := [], idle := [], bad := none, short := none, mems := [], outs := [] } = b := hb
  simp only [State.veBeat, hstart, hbad, hshort, hidle, State.touchWords_good hplace .x _ fun w _ => hgood w]
  rfl

/-- The registers of a stream are as before, and it waits for nothing new. -/
structure Stream.Keeps (t u : Stream) : Prop where
  regs : u.a = t.a ∧ u.n = t.n ∧ u.p = t.p
  wait : t.wait = none → u.wait = none

theorem Stream.Keeps.refl (t : Stream) : t.Keeps t := ⟨⟨rfl, rfl, rfl⟩, id⟩

/-- What a halt leaves alone: the vector engine, the scratchpad, the consist units and the scalar registers. -/
structure haltKeeps (s t : State) : Prop where
  vec : t.vec = s.vec
  spm : t.spm = s.spm
  cA : t.cA = s.cA
  cX : t.cX = s.cX
  str : ∀ st, (s.str st).Keeps (t.str st)

namespace haltKeeps

theorem refl (s : State) : haltKeeps s s := ⟨rfl, rfl, rfl, rfl, fun _ => .refl _⟩

theorem trans {s t u : State} (h : haltKeeps s t) (h' : haltKeeps t u) : haltKeeps s u := by
  refine ⟨h'.vec.trans h.vec, h'.spm.trans h.spm, h'.cA.trans h.cA, h'.cX.trans h.cX, fun st => ⟨?_, fun hw => (h'.str st).wait ((h.str st).wait hw)⟩⟩
  obtain ⟨ha, hn, hp⟩ := (h.str st).regs
  obtain ⟨ha', hn', hp'⟩ := (h'.str st).regs
  exact ⟨ha'.trans ha, hn'.trans hn, hp'.trans hp⟩

theorem ofRecords {s t : State} (h : onlyRecords s t) : haltKeeps s t := by
  refine ⟨h.vec, h.spm, h.cA, h.cX, fun st => ?_⟩
  cases st
  · rw [State.str, State.str, h.sA]
    exact .refl _
  · rw [State.str, State.str, h.sX]
    exact .refl _

theorem modStr (s : State) (st : Sid) {f : Stream → Stream} (hf : ∀ t : Stream, t.Keeps (f t)) : haltKeeps s (s.modStr st f) := by
  refine ⟨State.modStr_vec .., State.modStr_spm .., State.modStr_cA .., State.modStr_cX .., fun st' => ?_⟩
  cases st <;> cases st'
  · exact hf _
  · exact .refl _
  · exact .refl _
  · exact hf _

end haltKeeps

theorem State.haltKeeps_withdraw {s : State} {st : Sid} (h : (s.str st).wait = none) : haltKeeps s (s.withdraw st) := by
  have hstep : haltKeeps s (s.modStr st fun t => { t with wait := none, waited := 0, waitTold := false, stall := none }) :=
    .modStr s st fun t => ⟨⟨rfl, rfl, rfl⟩, fun _ => rfl⟩
  simp only [State.withdraw, h]
  exact hstep.trans ⟨rfl, rfl, rfl, rfl, fun st' => by cases st' <;> exact .refl _⟩

theorem State.haltKeeps_haltInStop (s : State) (d : Bool) : haltKeeps s (s.haltInStop d) := by
  unfold State.haltInStop
  split
  · exact ⟨rfl, rfl, rfl, rfl, fun st => by cases st <;> exact .refl _⟩
  · exact .refl s

/-- The first word of a halt's record (09 R257). -/
def haltWord (r : HaltRec) : W64 :=
  BitVec.ofNat 64 (r.reason * 2 ^ 56 + 2 ^ 55 + b2n r.deferred * 2 ^ 54 + b2n r.partner * 2 ^ 53
    + b2n r.tv * 2 ^ 52 + r.addr / 2 ^ 17 % 2 * 2 ^ 51 + (if r.tv then r.slot % 8 else 0) * 2 ^ 48
    + (if r.tv then r.tag.toNat else 0) * 2 ^ 32 + r.addr % 2 ^ 17)

/-- What the X-stream's halt writes: its record, and the reason beside its state. -/
def State.haltRecord (s : State) (r : HaltRec) : State :=
  let s := s.wr 0x840 (haltWord r)
  let s := s.wr 0x848 (s.str .x).cc
  let s := s.wr 0x850 (BitVec.ofNat 64 ((r.imm % 2 ^ 16) * 2 ^ 48 + r.detail % 2 ^ 48))
  let s := s.wr 0x858 s.now
  ((s.setRf 0x508 15 8 r.reason).setRf 0x508 18 18 (b2n r.deferred)).setRf 0x508 19 19 (b2n r.partner)

theorem State.haltRecord_records (s : State) (r : HaltRec) : onlyRecords s (s.haltRecord r) :=
  ((((((s.onlyRecords_wr ..).trans (onlyRecords_wr ..)).trans (onlyRecords_wr ..)).trans (onlyRecords_wr ..)).trans (onlyRecords_setRf ..)).trans
    (onlyRecords_setRf ..)).trans (onlyRecords_setRf ..)

theorem State.rd_haltRecord (s : State) (r : HaltRec) : (s.haltRecord r).rd 0x840 = haltWord r := by
  simp (disch := decide) only [State.haltRecord, State.rd_setRf_other, State.rd_wr]
  rfl

theorem State.onlyRecords_settleSwitch (s : State) : onlyRecords s s.settleSwitch := s.onlyRecords_setRf ..

/-- The X-stream HALTED, its record written, its event raised; the other stream is not asked yet. -/
def State.haltedAlone (s : State) (r : HaltRec) : State :=
  ((((((s.withdraw .x).haltInStop r.deferred).modStr .x fun t =>
    { t with st := .halted, chain := 0, pendHalt := none, haltReq := false, coReq := false, fresh := false }).haltRecord r).modStr .x fun t =>
      { t with swPend := false }).settleSwitch).raise (evHalt .x)

theorem State.takeHalt_x_cases (s : State) (r : HaltRec) :
    s.takeHalt .x r = s.haltedAlone r ∨ s.takeHalt .x r = (s.haltedAlone r).modStr .a fun t => { t with coReq := true } := by
  simp only [State.takeHalt, State.haltedAlone, State.haltRecord, haltWord, haltBase, strmBase, otherSid, Nat.reduceAdd]
  exact (ite_eq_or_eq ..).symm

/-- The X-stream's halt: it is HALTED, its record is written, and nothing of the VE's changes. -/
theorem State.takeHalt_x {s : State} (h : s.sX.wait = none) (r : HaltRec) :
    haltKeeps s (s.takeHalt .x r) ∧ (s.takeHalt .x r).sX.st = .halted ∧ (s.takeHalt .x r).rd 0x840 = haltWord r := by
  have hkeeps : haltKeeps s (s.haltedAlone r) := by
    have hin := (State.haltKeeps_withdraw (st := .x) h).trans ((s.withdraw .x).haltKeeps_haltInStop r.deferred)
    have hstopped := hin.trans (.modStr _ .x (f := fun t =>
      { t with st := .halted, chain := 0, pendHalt := none, haltReq := false, coReq := false, fresh := false }) fun t => ⟨⟨rfl, rfl, rfl⟩, id⟩)
    have hwritten := hstopped.trans (.ofRecords (State.haltRecord_records _ r))
    have hnoSwitch := hwritten.trans (.modStr _ .x (f := fun t => { t with swPend := false }) fun t => ⟨⟨rfl, rfl, rfl⟩, id⟩)
    have hsettled := hnoSwitch.trans (.ofRecords (State.onlyRecords_settleSwitch _))
    exact hsettled.trans (.ofRecords (State.onlyRecords_raise _ _))
  have hst : (s.haltedAlone r).sX.st = .halted := by
    rw [State.haltedAlone, State.raise_sX]
    change (State.sX (State.modStr _ _ _)).st = _
    simp only [State.modStr, (State.haltRecord_records _ r).sX]
  have hrd : (s.haltedAlone r).rd 0x840 = haltWord r := by
    simp (disch := decide) only [State.haltedAlone, State.settleSwitch, State.rd_raise_other, State.rd_setRf_other, State.rd_modStr, State.rd_haltRecord]
  obtain heq | heq := s.takeHalt_x_cases r
  · rw [heq]
    exact ⟨hkeeps, hst, hrd⟩
  · rw [heq]
    exact ⟨hkeeps.trans (.modStr _ .a fun t => ⟨⟨rfl, rfl, rfl⟩, id⟩), hst, (State.rd_modStr ..).trans hrd⟩

/-- A deferred halt of the X-stream that waits for no command. -/
theorem State.deferHalt_x {s : State} (h : s.sX.wait = none) (reason detail : Nat) (tag : W16) (slot lw : Nat) :
    haltKeeps s (s.deferHalt .x reason detail tag slot lw) ∧ (s.sX.st = .running → s.sX.chain = 0 →
      (s.deferHalt .x reason detail tag slot lw).sX.st = .halted ∧
      (s.deferHalt .x reason detail tag slot lw).rd 0x840 = haltWord ⟨reason, true, false, true, slot, tag, lw, 0, detail⟩) := by
  obtain ⟨hkeeps, hst, hrd⟩ := State.takeHalt_x h ⟨reason, true, false, true, slot, tag, lw, 0, detail⟩
  constructor
  · unfold State.deferHalt
    dsimp only
    split
    · split
      · split
        · exact .refl s
        · exact .modStr s .x fun t => ⟨⟨rfl, rfl, rfl⟩, id⟩
      · exact hkeeps
    · split
      · split
        · exact .refl s
        · exact .modStr s .x fun t => ⟨⟨rfl, rfl, rfl⟩, id⟩
      · exact hkeeps
    · split
      · split
        · exact .refl s
        · exact .modStr s .x fun t => ⟨⟨rfl, rfl, rfl⟩, id⟩
      · exact hkeeps
    · exact .refl s
  · intro hrun hchain
    have htake : s.deferHalt .x reason detail tag slot lw = s.takeHalt .x ⟨reason, true, false, true, slot, tag, lw, 0, detail⟩ := by
      simp only [State.deferHalt, State.str, hrun, hchain, Nat.lt_irrefl, gt_iff_lt, if_false]
    rw [htake]
    exact ⟨hst, hrd⟩

/-- The fields of a deferred halt's first word. -/
theorem haltWord_deferred {reason : Nat} (hreason : reason < 256) (tag : W16) (slot lw imm detail : Nat) :
    let x := haltWord ⟨reason, true, false, true, slot, tag, lw, imm, detail⟩
    fld x 63 56 = reason ∧ bit x 54 = true ∧ fld x 47 32 = tag.toNat := by
  intro x
  have htag : tag.toNat < 65536 := tag.isLt
  have hsum : x.toNat = reason * 2 ^ 56 + 2 ^ 55 + 2 ^ 54 + 2 ^ 52 + lw / 2 ^ 17 % 2 * 2 ^ 51 + slot % 8 * 2 ^ 48 + tag.toNat * 2 ^ 32 + lw % 2 ^ 17 := by
    simp only [x, haltWord, b2n, if_true, Bool.false_eq_true, if_false, BitVec.toNat_ofNat]
    omega
  refine ⟨?_, ?_, ?_⟩
  · rw [fld_eq_div_mod, hsum]
    omega
  · rw [bit, BitVec.getLsbD, Nat.testBit_eq_decide_div_mod_eq, hsum, decide_eq_true_eq]
    omega
  · rw [fld_eq_div_mod, hsum]
    omega

theorem vcprsBeat_halts {s : State} {w : VeWork} {rest : List VeWork} {m : VeMem} (h : OneBeat s w rest) (hm : w.mems = [m])
    (hopc : m.c.opc = 0x5C) (hform : isForm (vSrc m.c 0) = true) (hdst : isForm (vDst m.c) = true)
    (hshort : (vDstForm m.regs m.c).count < ((List.range w.vlen).filter (s.maskBit (vMsk m.c))).length) :
    ∃ t : State, exec (.veBeat []) s = .next t ∧ t.vec.ve = rest ∧ sameSpm s t ∧ sameRegs s t ∧
      (s.sX.st = .running → s.sX.chain = 0 →
        t.sX.st = .halted ∧ t.rf 0x840 63 56 = 6 ∧ t.rb 0x840 54 = true ∧ t.rf 0x840 47 32 = m.c.tag.toNat) := by
  obtain ⟨he0, hctx, -, -⟩ := h.ctx_eq
  obtain ⟨hftq, hmsk, hnx, hct, hacc⟩ := h.plain m (by simp [hm])
  obtain ⟨r, hmember⟩ := Beat.member_vcprs (x := w.ctx) h.ready he0 hopc (by omega) hftq hform
  have hcompress := Beat.compress_short (b := { Beat.start s.inBeat with rd := r }) (x := w.ctx) hnx hdst (by rw [hacc]; rfl) (s.maskBit (vMsk m.c))
    (formCode s m 0) (hctx ▸ hshort)
  have hb := (foldl_one hm (Beat.member w.ctx) (Beat.start s.inBeat)).trans (hmember _ hcompress)
  have hbeat := State.veBeat_short hb rfl rfl rfl h.inPlace.inBeat h.noError.1
  have hend := State.endWork_records (s := s.inBeat) (w := w) (outs := []) (whole := false) (by simp [hm, hct]) (.inl h.free)
  have hnoRegs : w.countRegs false = [] := by simp [VeWork.countRegs]
  rw [hnoRegs] at hend
  have hsX : (s.inBeat.endWork w [] false).sX = s.sX := hend.sX
  have hwait : (s.inBeat.endWork w [] false).sX.wait = none := by rw [hsX, h.noWait]
  obtain ⟨hkeeps, hhalt⟩ := State.deferHalt_x hwait 6 0 m.c.tag m.c.kind (w.lwOf m.c)
  rw [← hbeat, hsX] at hhalt
  rw [← hbeat] at hkeeps
  obtain ⟨t, hexec, hended⟩ := execVeBeat_goes h.beatGoes (by simp [hm, hopc]) ((hkeeps.str .x).wait hwait)
    (by rw [hkeeps.cA, hkeeps.cX, hend.cA, hend.cX]; exact h.noTrip)
  obtain ⟨htvec, htspm, -, htA, htX, htcsr⟩ := hended.shows
  refine ⟨t, hexec, ?_, htspm.trans (hkeeps.spm.trans hend.spm), ?_, fun hrun hchain => ?_⟩
  · rw [htvec, hkeeps.vec, hend.vec]
    change s.vec.ve.drop 1 = rest
    rw [h.front]
    rfl
  · have hfile : ∀ st, (t.str st) = ((s.inBeat.veBeat w []).str st) := fun st => by
      cases st
      · exact htA
      · exact htX
    have hstr : ∀ st, (s.inBeat.endWork w [] false).str st = s.str st := fun st => by
      cases st
      · exact hend.sA
      · exact hend.sX
    intro st
    rw [hfile, ← hstr]
    exact (hkeeps.str st).regs
  · obtain ⟨hst, hrd⟩ := hhalt hrun hchain
    have htrd : t.rd 0x840 = haltWord ⟨6, true, false, true, m.c.kind, m.c.tag, w.lwOf m.c, 0, 0⟩ := by
      rw [← hrd, State.rd, State.rd, htcsr]
    obtain ⟨hreason, hdeferred, htag⟩ := haltWord_deferred (by decide : 6 < 256) m.c.tag m.c.kind (w.lwOf m.c) 0 0
    rw [State.rf, State.rf, State.rb, htrd, htX]
    exact ⟨hst, hreason, hdeferred, htag⟩

end Sys2Proof.Machine
end

section
/-!
PROOFS. A reduction of the whole vector to an N register (05 R129 to R131): its active elements are folded in order, the result waits for its register,
and its non-finites are counted.
-/

namespace Sys2Proof.Machine

/-! ### An error of the ledger's residue -/

theorem State.rd_faultPut_numc (s : State) {i : Nat} (hi : i < 16) (w loc : W64) : (s.faultPut i w loc).rd 0x9820 = s.rd 0x9820 := by
  simp only [State.faultPut]
  rw [State.rd_wr, if_neg (by omega), State.rd_wr, if_neg (by omega), State.rd_wr, if_neg (by omega), State.rd_wr, if_neg (by omega)]

theorem State.rd_fault_numc (s : State) (unit kind : Nat) (who : Option (Sid × W16)) (loc : Nat) : (s.fault unit kind who loc).rd 0x9820 = s.rd 0x9820 := by
  unfold State.fault State.faultLog
  dsimp only
  split
  · exact State.rd_setRf_other _ (by decide) ..
  · rw [State.rd_raise_other _ _ (by decide), State.rd_setRf_other _ (by decide), State.rd_faultPut_numc _ (Nat.mod_lt _ (by decide))]

/-- Outside a consist a residue error is recorded: the trackers and the count of non-finites are as before. -/
theorem State.rduError_free (s : State) (tag : W16) : (s.rduError none tag).trk = s.trk ∧ (s.rduError none tag).rd 0x9820 = s.rd 0x9820 := by
  constructor
  · simp [State.rduError, State.numericTrip, State.abortIf, State.fault, State.freeWord]
  · change ((State.fault _ _ _ _ _).raise _).rd _ = _
    rw [State.rd_raise_other _ _ (by decide), State.rd_fault_numc, State.rd_setRf_other _ (by decide)]
    rfl

/-! ### The beat of a reduction -/

/-- The fold of a reduction over its active lanes. -/
def redGather (m : VeMem) (on : List Nat) (v : Nat → Nat) : RedAcc := on.foldl (fun g e => redElem m.c g e (v e)) m.acc.red

/-- A command's reduction after a segment: its result, and a new fold that keeps the counts. -/
def segAcc (m : VeMem) : VeAcc :=
  { m.acc with count := redResult m.c m.acc.red, red := { RedAcc.zero with nf := m.acc.red.nf, inx := m.acc.red.inx || redInx m.c m.acc.red } }

/-- The end of a whole vector's reduction to a register: its result is kept, and an error of the residue recorded. -/
theorem Beat.segEnd_register {b : Beat} {x : BeatCtx} {m : VeMem} (hdst : isN (vDst m.c) = true) (hcs : x.w.cs = none) (seg : Nat) :
    ∃ u, onlyRecords b.s u ∧ u.trk = b.s.trk ∧ u.rd 0x9820 = b.s.rd 0x9820 ∧ b.segEnd x m seg = ({ b with s := u }, { m with acc := segAcc m }) := by
  obtain ⟨htrk, hrd⟩ := b.s.rduError_free m.c.tag
  simp only [Beat.segEnd, hdst, hcs, if_true]
  split
  · exact ⟨_, b.s.onlyRecords_rduError_free _, htrk, hrd, rfl⟩
  · exact ⟨_, .refl _, rfl, rfl, rfl⟩

/-- The one segment of a reduction of the whole vector, in its one beat. -/
theorem Beat.segment_whole {b : Beat} {x : BeatCtx} {m : VeMem} (hseg : redSeg m.c = 0) (he0 : x.e0 = 0) (hn : x.n = x.w.vlen)
    (hsum : m.c.opc = 0x60 → vFn m.c = 1) (act : Nat → Bool) (v : Nat → Nat) :
    b.segment x m ((upto x.n).map act) ((upto x.n).map fun e => if act e then v e else 0) 0 =
      b.segEnd x { m with acc := { m.acc with red := redGather m ((List.range x.n).filter act) v } } 0 := by
  have hon : (((((upto x.n).map act).zip ((upto x.n).map fun e => if act e then v e else 0)).zipIdx.filter fun p => p.1.1).map fun p => (p.2, p.1.2)) =
      ((List.range x.n).filter act).map fun e => (e, v e) := by
    rw [upto, zip_map_range, zipIdx_map_range, List.filter_map, List.map_map]
    refine List.map_congr_left fun e he => ?_
    obtain ⟨-, hon⟩ := List.mem_filter.mp he
    simp only [Function.comp_apply, if_pos (show act e = true from hon)]
  have hfn : (decide (m.c.opc = 0x60) && decide (vFn m.c = 2)) = false := by
    rw [Bool.and_eq_false_iff, decide_eq_false_iff_not, decide_eq_false_iff_not]
    by_cases h : m.c.opc = 0x60
    · exact .inr (by rw [hsum h]; decide)
    · exact .inl h
  simp only [Beat.segment, hseg, decide_true, Bool.true_or, Bool.and_true, hon, hfn, Bool.false_eq_true, if_false, if_true, he0, Nat.zero_add,
    hn.ge]
  rw [redGather, List.foldl_map]

/-- The beat of a reduction of the whole vector to a register. -/
theorem Beat.reduce_register {b : Beat} {x : BeatCtx} {m : VeMem} {g : RedAcc} (hseg : redSeg m.c = 0) (hpv : redPv m.c = false)
    (hdst : isN (vDst m.c) = true) (hcs : x.w.cs = none) (hpend : x.w.pend.contains (0, vDst m.c - 8) = true) (he0 : x.e0 = 0) (hn : x.n = x.w.vlen)
    (hlast : x.last = true) (hct : m.c.ct = false) (hsum : m.c.opc = 0x60 → vFn m.c = 1) (act : Nat → Bool) (v : Nat → Nat)
    (hg : redGather m ((List.range x.n).filter act) v = g) :
    ∃ u, onlyRecords b.s u ∧ u.trk = b.s.trk ∧ u.rd 0x9820 = b.s.rd 0x9820 ∧
      b.reduce x m ((upto x.n).map act) ((upto x.n).map fun e => if act e then v e else 0) =
        ({ b with s := u, outs := b.outs ++ [⟨[⟨0, vDst m.c - 8, redResult m.c g⟩], false, none, m.c.tag⟩] },
          { m with acc := segAcc { m with acc := { m.acc with red := g } } }) := by
  obtain ⟨u, honly, htrk, hrd, hend⟩ := Beat.segEnd_register (b := b) (m := { m with acc := { m.acc with red := g } }) hdst hcs 0
  refine ⟨u, honly, htrk, hrd, ?_⟩
  have hsegment := Beat.segment_whole (b := b) (x := x) hseg he0 hn hsum act v
  rw [hg, hend] at hsegment
  have hregs : ([RegWr.mk 0 (vDst m.c - 8) (redResult m.c g)].filter fun r => r.names x.w.pend) = [⟨0, vDst m.c - 8, redResult m.c g⟩] := by
    rw [List.filter_singleton, RegWr.names, hpend]
    rfl
  have hcount : (segAcc { m with acc := { m.acc with red := g } }).count = redResult m.c g := rfl
  simp only [Beat.reduce, hseg, decide_true, Bool.true_or, if_true, List.foldl_cons, List.foldl_nil, hsegment, hdst, hpv, Bool.false_eq_true, if_false,
    List.append_nil, hcount, hregs, hlast, List.isEmpty_cons, Bool.not_false, Bool.and_self, hct, Bool.false_and, hcs]

theorem redOpc {c : Slot} (h : isRed c = true) : c.opc = 0x60 ∨ c.opc = 0x61 ∨ c.opc = 0x62 ∨ c.opc = 0x63 ∨ c.opc = 0x64 := by
  simp only [isRed, Bool.and_eq_true, decide_eq_true_eq] at h
  omega

/-- The beat of a reduction. -/
theorem Beat.member_red {b : Beat} {x : BeatCtx} {m : VeMem} (h : b.Ready) (he0 : x.e0 = 0) (hred : isRed m.c = true) (hmsk : vMsk m.c ≠ 8)
    (hftq : ftqsOf m.c = []) (hform : isForm (vSrc m.c 0) = true) :
    ∃ r, ∀ q, Beat.reduce { b with rd := r } x m ((upto x.n).map (b.s.maskBit (vMsk m.c)))
        ((upto x.n).map fun e => if b.s.maskBit (vMsk m.c) e then formCode b.s m 0 e else 0) = q →
      Beat.member x b m = { q.1 with mems := q.1.mems ++ [q.2] } := by
  have hopc := redOpc hred
  have hsrcs : laneSrcs m.c = 1 := by
    obtain h | h | h | h | h := hopc <;> simp [laneSrcs, nSrc, h]
  exact Beat.member_one (work := fun b act src => b.reduce x m act src) h he0 (by omega) (by omega) hmsk hftq hsrcs hform
    fun b act src => by simp [Beat.compute, hred]

/-- The count of non-finites after a work of one command that observes nothing for a tracker slot (04 R94). -/
theorem BeatEnds.numc_one {s t : State} {w : VeWork} {rest : List VeWork} {b : Beat} {m : VeMem} (ht : BeatEnds s w rest b t) (hidle : b.idle = [])
    (hm : b.mems = [m]) (hct : m.c.ct = false) (hobs : observes m.c = false) (hopc : m.c.opc ≠ 0x5C ∧ m.c.opc ≠ 0x5D) (hrd : b.s.rd 0x9820 = s.rd 0x9820) :
    t.rf 0x9820 47 0 = min (2 ^ 48 - 1) (s.rf 0x9820 47 0 + (m.acc.cnts.nonfin + m.acc.red.nf)) := by
  have hclosed : (b.closed w.ctx).rf 0x9820 47 0 = s.rf 0x9820 47 0 := by
    rw [State.rf, State.rf, (Beat.closed_idle_nil hidle _).2, hrd]
  have hended : b.ended w = ({ b.closed w.ctx with vec := { (b.closed w.ctx).vec with
      ve := (b.closed w.ctx).vec.ve.drop 1, redq := (b.closed w.ctx).vec.redq ++ b.outs } } : State).numcAdd 4 (m.acc.cnts.nonfin + m.acc.red.nf) := by
    rw [Beat.ended, State.endWork_eq, hm, List.foldl_cons, List.foldl_nil]
    simp [State.endMember, hct, hobs, hopc]
  have hrf : t.rf 0x9820 47 0 = (b.ended w).rf 0x9820 47 0 := by rw [State.rf, State.rf, State.rd, State.rd, ht.csr]
  rw [hrf, hended, ← hclosed]
  exact State.rf_numcAdd_same _ 4 _

/-- A reduction of the whole vector to a register, in its one beat (05 R129 to R131, 04 R94). -/
theorem redBeat_ends {s : State} {w : VeWork} {rest : List VeWork} {m : VeMem} (h : OneBeat s w rest) (hm : w.mems = [m]) (hred : isRed m.c = true)
    (hform : isForm (vSrc m.c 0) = true) (hdst : isN (vDst m.c) = true) (hseg : redSeg m.c = 0) (hpv : redPv m.c = false)
    (hpend : w.pend.contains (0, vDst m.c - 8) = true) (hsum : m.c.opc = 0x60 → vFn m.c = 1) {g : RedAcc}
    (hg : redGather m ((List.range w.vlen).filter (s.maskBit (vMsk m.c))) (formCode s m 0) = g) :
    ∃ t : State, exec (.veBeat []) s = .next t ∧ t.vec.ve = rest ∧ sameSpm s t ∧ sameRegs s t ∧
      t.vec.redq = s.vec.redq ++ [⟨[⟨0, vDst m.c - 8, redResult m.c g⟩], false, none, m.c.tag⟩] ∧ t.trk = s.trk ∧
      t.rf 0x9820 47 0 = min (2 ^ 48 - 1) (s.rf 0x9820 47 0 + g.nf) := by
  obtain ⟨he0, hctx, hlast, hself⟩ := h.ctx_eq
  obtain ⟨hftq, hmsk, -, hct, hacc⟩ := h.plain m (by simp [hm])
  have hopc := redOpc hred
  have hobs : observes m.c = false := by simp [observes, hred]
  obtain ⟨r, hmember⟩ := Beat.member_red (x := w.ctx) h.ready he0 hred (by omega) hftq hform
  obtain ⟨u, honly, htrk, hrd, hreduce⟩ := Beat.reduce_register (b := { Beat.start s.inBeat with rd := r }) (x := w.ctx) (g := g) hseg hpv hdst
    (by rw [hself]; exact h.free) (by rw [hself]; exact hpend) he0 (by rw [hself]; exact hctx) hlast hct hsum (s.maskBit (vMsk m.c)) (formCode s m 0)
    (by rw [hctx]; exact hg)
  have hb := (foldl_one hm (Beat.member w.ctx) (Beat.start s.inBeat)).trans (hmember _ hreduce)
  obtain ⟨t, ht⟩ := execVeBeat_ends h.beatGoes (by simpa [hm] using (by omega : m.c.opc ≠ 0x68)) hb ⟨rfl, rfl⟩ hlast (by simp [Beat.start, hftq, hct])
    (.inl h.free) honly.beat
  refine ⟨t, ht.exec, ht.ve, ht.spm.trans honly.spm, sameRegs_of_streams ht.sA (ht.sX.trans ?_), ht.redq, ?_, ?_⟩
  · rw [VeWork.countRegs_nil (by simpa [Beat.start] using (by omega : m.c.opc ≠ 0x5C ∧ m.c.opc ≠ 0x5D))]
    rfl
  · have htrk' := ht.trk_one rfl rfl h.free hct h.lanes.1.ne' htrk
    rwa [hobs] at htrk'
  · have hnumc := ht.numc_one rfl rfl hct hobs (by constructor <;> simp only <;> omega) hrd
    rw [hnumc]
    simp [segAcc, hacc, VeAcc.zero]

end Sys2Proof.Machine
end

section
/-!
PROOFS. VQ of one row of one block (05 R114, R116): the row that the values divided by the tensor scale give, and what it observes.
-/

namespace Sys2Proof.Machine

/-! ### One row of one block -/

/-- The values of a row's elements, divided by the tensor scale. -/
def quantVals (m : VeMem) (n : Nat) (v : Nat → Nat) : List (Option Num) :=
  (List.range n).map fun e => some ((decodeElem (vOt m.c) (v e)).divPos (fp32 m.scale).val)

/-- The block that a row of fewer than 32 elements gives, with the events that its production counts. -/
def quantRow (w : VeWork) (m : VeMem) (d : Bsd) (vals : List (Option Num)) : List BlkRow × Cnts :=
  quantBlock d.fmt (decide (vFn m.c = 1)) (fun i k => srRnd (vSr m.c) w.key (i * d.cols + k + srBase m.c)) [vals ++ List.replicate (32 - vals.length) none]

/-- The bytes of a tensor's first block row, with their addresses. -/
def rowBytes (d : Bsd) (q : List BlkRow × Cnts) : List (Nat × Byte) := (blkBytes d 0 0 (q.1.headD ⟨[], 0, none⟩)).flatMap fun p => pairsAt p.1 p.2

theorem Cnts.zero_add (k : Cnts) : Cnts.add {} k = k := by simp [Cnts.add]

theorem Beat.block_row {b : Beat} {x : BeatCtx} {m : VeMem} {d : Bsd} {vals : List (Option Num)} (hplace : InPlace b.s) (hcs : x.w.cs = none)
    (hvals : ∃ v, some v ∈ vals) (hone : (quantRow x.w m d vals).1.length = 1) :
    ∃ u, Stores b.s u (rowBytes d (quantRow x.w m d vals)) ∧ b.block x m d 0 0 [vals] =
      ({ b with s := u }, { m with acc := { m.acc with cnts := m.acc.cnts.add (quantRow x.w m d vals).2 } }) := by
  obtain ⟨v, hv⟩ := hvals
  have hsome : ([vals].all fun l => l.all fun v => v.isNone) = false := by
    simpa using ⟨some v, hv, by simp⟩
  obtain ⟨row, hrow⟩ := List.length_eq_one_iff.mp hone
  have hq : quantBlock d.fmt (decide (vFn m.c = 1)) (fun i k => srRnd (vSr m.c) x.w.key ((0 + i) * d.cols + 32 * 0 + k + srBase m.c))
      ([vals].map fun l => l ++ List.replicate (32 - l.length) none) = quantRow x.w m d vals := by
    simp only [Nat.zero_add, Nat.mul_zero, Nat.add_zero]
    rfl
  have hbytes : rowBytes d (quantRow x.w m d vals) = (blkBytes d (0 + 0) 0 row).flatMap fun p => pairsAt p.1 p.2 := by
    rw [rowBytes, hrow]
    rfl
  refine ⟨(blkBytes d (0 + 0) 0 row).foldl (fun s p => s.write (some .x) none p.1 p.2) b.s, ?_, ?_⟩
  · rw [hbytes]
    exact Stores.foldl (f := fun s (p : Nat × List Byte) => s.write (some .x) none p.1 p.2) (fun s p hs => State.stores_write hs ..) _ hplace
  · simp only [Beat.block, hsome, Bool.false_eq_true, if_false, hq, hrow, hcs, List.zipIdx_singleton, List.flatMap_singleton]

theorem Beat.blocks_nil {m : VeMem} (h : m.acc.tile = []) (x : BeatCtx) (d : Bsd) (flush : Bool) (k e : Nat) (b : Beat) :
    Beat.blocks x d flush k e b m = (b, m) := by
  cases k with
  | zero => rfl
  | succ k => rw [Beat.blocks, h]; rfl

/-- A tensor of one row of one block: its one block is emitted. -/
theorem Beat.blocks_row {x : BeatCtx} {d : Bsd} {b b' : Beat} {m m' : VeMem} {n : Nat} (hsq : d.sq = false) (hcols : d.cols = n) (hn : 0 < n ∧ n ≤ 32)
    (htile : m.acc.tile.length = n) (hblock : b.block x m d 0 0 [m.acc.tile] = (b', m')) (hkept : m'.acc.tile = m.acc.tile) (flush : Bool) (k : Nat) :
    Beat.blocks x d flush (k + 1) 0 b m = (b', { m' with acc := { m'.acc with tile := [] } }) := by
  obtain ⟨hpos, hle⟩ := hn
  have hlen : min 32 (n - 0 % n) = n := by
    rw [Nat.zero_mod]
    omega
  have hbsd : bsdPos d 0 = (0, 0) := by simp [bsdPos, hsq]
  have hgo : (decide (n = 0) || decide (n < n) && !flush) = false := by simp [hpos.ne']
  have hdrop : m.acc.tile.drop n = [] := List.drop_of_length_le htile.le
  have htake : m.acc.tile.take n = m.acc.tile := List.take_of_length_le htile.le
  simp only [Beat.blocks, hsq, hcols, Bool.false_eq_true, if_false, hlen, htile, hgo, hbsd, htake, Nat.zero_div, hblock, hkept, hdrop]
  exact Beat.blocks_nil rfl ..

/-- What VQ observes of its inputs (04 R86). -/
theorem VeAcc.foldl_see (t : Nat) (v : Nat → Nat) (l : List Nat) (a : VeAcc) :
    l.foldl (fun (a : VeAcc) e => a.see (finBits (laneNum t (v e))) {}) a =
      { a with amax := l.foldl (fun b e => maxBits b (finBits (laneNum t (v e)))) a.amax, elems := a.elems + l.length } := by
  induction l generalizing a with
  | nil => rfl
  | cons e l ih =>
    rw [List.foldl_cons, ih]
    simp only [VeAcc.see, Cnts.add, Nat.add_zero, List.foldl_cons, List.length_cons, VeAcc.mk.injEq, true_and, and_true]
    omega

/-- The codes of a beat's lanes that lie inside the tensor. -/
def quantCells (d : Bsd) (e0 : Nat) (act : List Bool) (src : List Nat) : List (Option Nat) :=
  (act.zip src).zipIdx.map fun p =>
    if p.1.1 && decide ((bsdPos d (e0 + p.2)).1 < d.rows) && decide ((bsdPos d (e0 + p.2)).2 < d.cols) then some p.1.2 else none

/-- What a beat of VQ observes, with its values behind those that wait for their block. -/
def quantAcc (m : VeMem) (cells : List (Option Nat)) : VeAcc :=
  { cells.foldl (fun (a : VeAcc) v => v.elim a fun v => a.see (finBits (laneNum (vOt m.c) v)) {}) m.acc with
    tile := m.acc.tile ++ cells.map fun v => v.map fun v => (laneNum (vOt m.c) v).divPos (fp32 m.scale).val }

theorem Beat.quant_eq (b : Beat) (x : BeatCtx) (m : VeMem) (act : List Bool) (src : List Nat) :
    b.quant x m act src = Beat.blocks x (bsdAt m.regs m.c 0) x.last (x.n + 64) (x.e0 - m.acc.tile.length) b
      { m with acc := quantAcc m (quantCells (bsdAt m.regs m.c 0) x.e0 act src) } := by
  have hsee : ∀ (a : VeAcc) (v : Option Nat), (match v with | some v => a.see (finBits (laneNum (vOt m.c) v)) {} | none => a) =
      v.elim a fun v => a.see (finBits (laneNum (vOt m.c) v)) {} := fun a v => by cases v <;> rfl
  unfold Beat.quant quantAcc quantCells
  simp only [← hsee] <;> rfl

theorem quantAcc_row {m : VeMem} (hacc : m.acc = VeAcc.zero) (n : Nat) (v : Nat → Nat) :
    quantAcc m ((List.range n).map fun e => some (v e)) = { VeAcc.zero with
      amax := (List.range n).foldl (fun a e => maxBits a (finBits (laneNum (vOt m.c) (v e)))) 0, elems := n, tile := quantVals m n v } := by
  simp only [quantAcc, List.foldl_map, Option.elim_some, VeAcc.foldl_see, hacc, List.map_map, List.length_range]
  simp [VeAcc.zero, quantVals, laneNum]

theorem quantCells_row {d : Bsd} {n : Nat} (hsq : d.sq = false) (hrows : d.rows = 1) (hcols : d.cols = n) {act : Nat → Bool} (hact : ∀ e, act e = true)
    (v : Nat → Nat) :
    quantCells d 0 ((upto n).map act) ((upto n).map fun e => if act e then v e else 0) = (List.range n).map fun e => some (v e) := by
  rw [quantCells, upto, zip_map_range, zipIdx_map_range, List.map_map]
  refine List.map_congr_left fun e he => ?_
  have hlt := List.mem_range.mp he
  simp [hact, bsdPos, hsq, hrows, hcols, Nat.mod_eq_of_lt hlt, hlt]

/-- VQ of a tensor of one row of one block, in its one beat. -/
theorem Beat.quant_row {b : Beat} {x : BeatCtx} {m : VeMem} {d : Bsd} {n : Nat} (hplace : InPlace b.s) (hcs : x.w.cs = none) (he0 : x.e0 = 0) (hn : x.n = n)
    (hacc : m.acc = VeAcc.zero) (hd : bsdAt m.regs m.c 0 = d) (hsq : d.sq = false) (hrows : d.rows = 1) (hcols : d.cols = n) (hsize : 0 < n ∧ n ≤ 32)
    {act : Nat → Bool} (hact : ∀ e, act e = true) (v : Nat → Nat) {q : List BlkRow × Cnts} (hq : quantRow x.w m d (quantVals m n v) = q)
    (hone : q.1.length = 1) :
    ∃ u, Stores b.s u (rowBytes d q) ∧ b.quant x m ((upto x.n).map act) ((upto x.n).map fun e => if act e then v e else 0) =
      ({ b with s := u }, { m with acc := { VeAcc.zero with
        amax := (List.range n).foldl (fun a e => maxBits a (finBits (laneNum (vOt m.c) (v e)))) 0, cnts := q.2, elems := n } }) := by
  subst hq
  have hsome : ∃ y, some y ∈ quantVals m n v := ⟨_, List.mem_map.mpr ⟨0, List.mem_range.mpr hsize.1, rfl⟩⟩
  have htile : (quantVals m n v).length = n := by rw [quantVals, List.length_map, List.length_range]
  obtain ⟨u, hstores, hblock⟩ := Beat.block_row (m := { m with acc := { VeAcc.zero with
    amax := (List.range n).foldl (fun a e => maxBits a (finBits (laneNum (vOt m.c) (v e)))) 0, elems := n, tile := quantVals m n v } }) hplace hcs hsome hone
  refine ⟨u, hstores, ?_⟩
  rw [Beat.quant_eq, hd, he0, hn, quantCells_row hsq hrows hcols hact, quantAcc_row hacc, Nat.zero_sub, Beat.blocks_row hsq hcols hsize htile hblock rfl]
  simp [VeAcc.zero, Cnts.zero_add]
  rfl

/-! ### The event -/

theorem vqBeat_ends {s : State} {w : VeWork} {rest : List VeWork} {m : VeMem} {d : Bsd} {q : List BlkRow × Cnts} (h : OneBeat s w rest) (hm : w.mems = [m])
    (hopc : m.c.opc = 0x57) (hform : isForm (vSrc m.c 0) = true) (hmsk : vMsk m.c = 0) (hd : bsdAt m.regs m.c 0 = d) (hsq : d.sq = false) (hrows : d.rows = 1)
    (hcols : d.cols = w.vlen) (hle : w.vlen ≤ 32) (hq : quantRow w m d (quantVals m w.vlen (formCode s m 0)) = q) (hone : q.1.length = 1) :
    ∃ t : State, exec (.veBeat []) s = .next t ∧ t.vec.ve = rest ∧ sameRegs s t ∧ t.spm.byte = putBytes s.spm.byte (rowBytes d q) ∧
      t.trk = (s.merge m.trk none ((List.range w.vlen).foldl (fun a e => maxBits a (finBits (laneNum (vOt m.c) (formCode s m 0 e)))) 0) q.2 w.vlen).trk := by
  obtain ⟨he0, hctx, hlast, hself⟩ := h.ctx_eq
  obtain ⟨hftq, -, -, hct, hacc⟩ := h.plain m (by simp [hm])
  obtain ⟨r, hmember⟩ := Beat.member_one (b := Beat.start s.inBeat) (x := w.ctx) (work := fun b act src => b.quant w.ctx m act src) h.ready he0 (by omega)
    (by omega) (by omega) hftq (by simp [laneSrcs, nSrc, hopc]) hform fun b act src => by simp [Beat.compute, isRed, hopc]
  obtain ⟨u, hstores, hquant⟩ := Beat.quant_row (b := { Beat.start s.inBeat with rd := r }) (x := w.ctx) h.ready.place (by rw [hself]; exact h.free) he0 hctx
    hacc hd hsq hrows hcols ⟨h.lanes.1, hle⟩ (act := s.maskBit (vMsk m.c)) (fun e => by rw [hmsk]; rfl) (formCode s m 0) (by rw [hself]; exact hq) hone
  have hb := (foldl_one hm (Beat.member w.ctx) (Beat.start s.inBeat)).trans (hmember _ hquant)
  obtain ⟨t, ht⟩ := execVeBeat_ends h.beatGoes (by simp [hm, hopc]) hb ⟨rfl, rfl⟩ hlast (by simp [Beat.start, hftq, hct]) (.inl h.free) hstores.beat
  refine ⟨t, ht.exec, ht.ve, sameRegs_of_streams ht.sA (ht.sX.trans ?_), by rw [ht.spm]; exact hstores.bytes, ?_⟩
  · rw [VeWork.countRegs_nil (by simp [Beat.start, hopc])]
    rfl
  · have htrk := ht.trk_one rfl rfl h.free hct h.lanes.1.ne' (by rw [hstores.only]; rfl)
    rwa [if_pos (by simp [observes, isRed, isProd, hopc])] at htrk

end Sys2Proof.Machine
end

section
/-!
PROOFS. What a beat of a vector command reads and writes: O59, from the events of the parts before.
-/

namespace Sys2Proof.Machine

theorem stored.congr {s t : State} {base z n : Nat} {code code' : Nat → Option Nat} (h : stored s t base z n code) (heq : ∀ e, e < n → code e = code' e) :
    stored s t base z n code' :=
  ⟨fun e j he hj => heq e he ▸ h.1 e j he hj, h.2⟩

theorem putBytes_nodup {f : Nat → Byte} {l : List (Nat × Byte)} (h : (l.map (·.1)).Nodup) {p : Nat × Byte} (hp : p ∈ l) : putBytes f l p.1 = p.2 :=
  putBytes_of_mem hp fun _ hy => congrArg Prod.snd (List.inj_on_of_nodup_map h hy hp rfl)

/-- Settles O59: in its one beat a work that nothing holds does its commands' part lane by lane, and ends. -/
theorem vectorBeatResults : Obligations.VectorBeatResults := by
  unfold Obligations.VectorBeatResults
  intro s w rest m base h
  refine ⟨?elementwise, ?observed, ?vdq, ?vcprs, ?vexpd, ?vcmp, ?vq, ?reduction, ?chain⟩
  case elementwise =>
    intro hm hew hforms hdense
    obtain ⟨t, hexec, hve, hstored, -⟩ := formBeat_ends h hm hew hforms hdense
    exact ⟨t, hexec, hve, hstored⟩
  case observed =>
    intro hm hew hforms hdense hprod hword hcvt
    exact formBeat_trk h hm hew hforms hdense hprod hword hcvt
  case vdq =>
    intro d hm hopc hsrc hsq hfmt hinside hdense
    obtain ⟨t, hexec, hve, hstored⟩ := vdqBeat_ends h hm hopc hsrc hdense
    refine ⟨t, hexec, hve, hstored.congr fun e he => ?_⟩
    rw [laneOut, State.vdqElem_inside rfl hsq hfmt (he.trans_le hinside)]
  case vcprs =>
    intro hm hopc hform hdst haddr _
    exact ⟨fun hfits => vcprsBeat_ends h hm hopc hform hdst rfl hfits haddr, fun hshort => vcprsBeat_halts h hm hopc hform hdst hshort⟩
  case vexpd =>
    intro hm hopc hform hroom hdense
    exact vexpdBeat_ends h hm hopc hform hroom hdense
  case vcmp =>
    intro hm hopc h0 h1 k hk _ hdst
    exact vcmpBeat_ends h hm hopc h0 h1 hk hdst
  case vq =>
    intro hm hopc hform hmsk d row q bytes hsq hrows hcols hle hone hnodup _
    have hlen : (quantVals m w.vlen (formCode s m 0)).length = w.vlen := by rw [quantVals, List.length_map, List.length_range]
    have hq : quantRow w m d (quantVals m w.vlen (formCode s m 0)) = q := by
      rw [quantRow, hlen]
      rfl
    obtain ⟨t, hexec, hve, hregs, hbytes, htrk⟩ := vqBeat_ends h hm hopc hform hmsk rfl hsq hrows hcols hle hq hone
    have hrow : rowBytes d q = bytes := rfl
    rw [hrow] at hbytes
    refine ⟨t, hexec, hve, hregs, fun p hp => ?_, htrk, fun x hx => ?_⟩
    · rw [hbytes, putBytes_nodup hnodup hp]
    · rw [hbytes, putBytes_of_notMem hx]
  case reduction =>
    intro hm hred hform hdst hseg hpv hpend hsum g
    obtain ⟨-, -, -, -, hacc⟩ := h.plain m (by simp [hm])
    have hg : redGather m ((List.range w.vlen).filter (s.maskBit (vMsk m.c))) (formCode s m 0) = g := by
      rw [redGather, hacc]
      rfl
    exact redBeat_ends h hm hred hform hdst hseg hpv hpend hsum hg
  case chain =>
    intro m1 hm hew1 hew hform hsrcs1 hsrcs hdst hsrc hbits hmsk1 hdense
    exact chainBeat_ends h hm hew1 hew hform hsrcs1 hsrcs hdst hsrc hbits hmsk1 hdense

end Sys2Proof.Machine
end

section
/-!
PROOFS. What the invariants of O5 and O6 speak of, as a relation between the state before and after a change, and the changes to a field.
-/

namespace Sys2Proof.Machine

/-! ### The parts of the state -/

/-- The contexts are listed by rising number, and no ticket stands twice in a context (06 R149, R150). -/
def TicketsWf (q : Tbl Ctx) : Prop := q.Pairwise (fun x y => x.1 < y.1) ∧ ∀ n, ((tget Ctx.zero q n).entries.map (·.tkt)).Nodup

/-- A table without default values, by rising index. -/
theorem tset_pairwise {α : Type} [DecidableEq α] {d : α} {q : Tbl α} {n : Nat} {v : α} (h : q.Pairwise (fun x y => x.1 < y.1)) :
    (tset d q n v).Pairwise (fun x y => x.1 < y.1) := by
  unfold tset
  split
  · exact tdel_pairwise h
  · exact tins_pairwise (tdel_pairwise h) (tdel_lacks _ _)

theorem TicketsWf.nil : TicketsWf [] := ⟨List.Pairwise.nil, fun _ => List.nodup_nil⟩

theorem TicketsWf.tset {q : Tbl Ctx} {n : Nat} {c : Ctx} (hq : TicketsWf q) (hc : (c.entries.map (·.tkt)).Nodup) :
    TicketsWf (tset Ctx.zero q n c) := by
  refine ⟨tset_pairwise hq.1, fun k => ?_⟩
  rw [tget_tset]
  split
  · exact hc
  · exact hq.2 k

theorem TicketsWf.tmod {q : Tbl Ctx} {n : Nat} {f : Ctx → Ctx} (hq : TicketsWf q) (hf : ((f (tget Ctx.zero q n)).entries.map (·.tkt)).Nodup) :
    TicketsWf (tmod Ctx.zero q n f) := hq.tset hf

/-- Contexts changed in place, each with its entries as they were. -/
theorem TicketsWf.map {q : Tbl Ctx} {f : Nat × Ctx → Nat × Ctx} (hq : TicketsWf q) (hf : ∀ p, (f p).1 = p.1 ∧ (f p).2.entries = p.2.entries) :
    TicketsWf (q.map f) := by
  obtain ⟨hrise, hnodup⟩ := hq
  refine ⟨List.pairwise_map.mpr (hrise.imp fun {x y} hxy => by rwa [(hf x).1, (hf y).1]), fun n => ?_⟩
  have hget : (tget Ctx.zero (q.map f) n).entries = (tget Ctx.zero q n).entries := by
    clear hrise hnodup
    induction q with
    | nil => rfl
    | cons p q ih =>
      obtain ⟨hfst, hent⟩ := hf p
      rw [List.map_cons, tget, tget, hfst]
      split
      exacts [hent, ih]
  rw [hget]
  exact hnodup n

/-- Outstanding requests have tags below 4,096, each its own (15 R378). -/
def TagsWf (l : List Req) : Prop := (l.map (·.tag)).Nodup ∧ ∀ r ∈ l, r.tag < 4096

theorem TagsWf.nil : TagsWf [] := ⟨List.nodup_nil, fun _ h => by cases h⟩

theorem TagsWf.filter {l : List Req} (p : Req → Bool) (h : TagsWf l) : TagsWf (l.filter p) :=
  ⟨(List.filter_sublist.map _).nodup h.1, fun r hr => h.2 r (List.mem_of_mem_filter hr)⟩

theorem TagsWf.map {l : List Req} {f : Req → Req} (h : TagsWf l) (hf : ∀ r, (f r).tag = r.tag) : TagsWf (l.map f) := by
  obtain ⟨hnodup, hlt⟩ := h
  have htags : (l.map f).map (·.tag) = l.map (·.tag) := by
    rw [List.map_map]
    exact List.map_congr_left fun r _ => hf r
  refine ⟨by rwa [htags], fun r hr => ?_⟩
  obtain ⟨q, hq, rfl⟩ := List.mem_map.mp hr
  exact (hf q).symm ▸ hlt q hq

theorem freeTag_some {l : List Req} {k : Nat} (h : freeTag l = some k) : k < 4096 ∧ ∀ r ∈ l, r.tag ≠ k := by
  unfold freeTag at h
  have hfree := List.find?_some h
  refine ⟨by simpa [upto] using List.mem_of_find?_eq_some h, fun r hr hk => ?_⟩
  simp only [Bool.not_eq_true', List.any_eq_false, decide_eq_true_eq] at hfree
  exact hfree r hr hk

/-- A request takes a tag that no outstanding one has. -/
theorem TagsWf.append {l : List Req} {r : Req} (h : TagsWf l) (hr : freeTag l = some r.tag) : TagsWf (l ++ [r]) := by
  obtain ⟨hlt, hfree⟩ := freeTag_some hr
  refine ⟨?_, fun q hq => ?_⟩
  · rw [List.map_append, List.map_singleton]
    refine List.nodup_append.mpr ⟨h.1, List.nodup_singleton _, fun a ha b hb => ?_⟩
    obtain ⟨q, hq, rfl⟩ := List.mem_map.mp ha
    rw [List.mem_singleton] at hb
    exact hb ▸ hfree q hq
  · rw [List.mem_append, List.mem_singleton] at hq
    obtain hq | rfl := hq
    exacts [h.2 q hq, hlt]

/-- What the invariants of O5 and O6 look at. -/
structure Parts where
  mem : Tbl Byte
  rows : Tbl (BitVec 160)
  qsy : Tbl Ctx
  loopsA : List LoopLvl
  loopsX : List LoopLvl
  reads : List Req
  writes : List Req

def State.parts (s : State) : Parts := ⟨s.spm.mem, s.imem.rows, s.qsy, s.sA.loops, s.sX.loops, s.fab.reads, s.fab.writes⟩

/-- What the invariants of O5 and O6 claim of `s` carries over to `t`. -/
structure Carries (s t : State) : Prop where
  mem : Memory.wf s.spm.mem = true → Memory.wf t.spm.mem = true
  rows : twf 0 s.imem.rows = true → twf 0 t.imem.rows = true
  qsy : TicketsWf s.qsy → TicketsWf t.qsy
  loopsA : s.sA.loops.length ≤ 4 → t.sA.loops.length ≤ 4
  loopsX : s.sX.loops.length ≤ 4 → t.sX.loops.length ≤ 4
  reads : TagsWf s.fab.reads → TagsWf t.fab.reads
  writes : TagsWf s.fab.writes → TagsWf t.fab.writes

/-- The same of the state that a command's effect at issue leaves, of the next state of an event. -/
def CarriesRes (s : State) : Res → Prop
  | .ok t _ => Carries s t
  | .wait t _ _ => Carries s t
  | .stall _ _ => True
  | .jump t _ => Carries s t

def CarriesOut (s : State) : Host.Outcome State Fault Refusal → Prop
  | .next t => Carries s t
  | _ => True

/-- A command's meaning: its effect at issue, in a state with the loops of the one in which its checks hold. -/
def CmdSem.Carrying (m : CmdSem) : Prop :=
  ∀ {s t u : State} {st : Sid} {c : Slot} {lw : LwInfo}, Carries s u → (u.str st).loops = (t.str st).loops →
    firstFail (m.chk t st c lw ++ headChks t c) = none → CarriesRes s (m.run u st c lw)

namespace Carries

variable {s t u : State}

theorem refl (s : State) : Carries s s := ⟨id, id, id, id, id, id, id⟩

theorem trans (h : Carries s t) (h' : Carries t u) : Carries s u :=
  ⟨h'.mem ∘ h.mem, h'.rows ∘ h.rows, h'.qsy ∘ h.qsy, h'.loopsA ∘ h.loopsA, h'.loopsX ∘ h.loopsX,
    h'.reads ∘ h.reads, h'.writes ∘ h.writes⟩

theorem of_parts (h : Carries s t) (hp : u.parts = t.parts := by rfl) : Carries s u := by
  simp only [State.parts, Parts.mk.injEq] at hp
  obtain ⟨hmem, hrows, hqsy, hloopsA, hloopsX, hreads, hwrites⟩ := hp
  exact h.trans ⟨by rw [hmem]; exact id, by rw [hrows]; exact id, by rw [hqsy]; exact id, by rw [hloopsA]; exact id, by rw [hloopsX]; exact id,
    by rw [hreads]; exact id, by rw [hwrites]; exact id⟩

theorem ite {c : Prop} [Decidable c] {t' : State} (h : Carries s t) (h' : Carries s t') : Carries s (if c then t else t') := by
  split
  exacts [h, h']

theorem ite_fst {α : Type} {c : Prop} [Decidable c] {p q : State × α} (h : Carries s p.1) (h' : Carries s q.1) :
    Carries s (if c then p else q).1 := by
  split
  exacts [h, h']

theorem of_run {m : CmdSem} (h : ∀ {s t st c lw}, Carries s t → CarriesRes s (m.run t st c lw)) : m.Carrying := fun hu _ _ => h hu

theorem ite_carrying {p : Prop} [Decidable p] {m m' : CmdSem} (h : m.Carrying) (h' : m'.Carrying) : (if p then m else m').Carrying := by
  split
  exacts [h, h']

/-- The state of a pair that is named by its parts. -/
theorem fst {α : Type} {p : State × α} {x : α} (h : Carries s p.1) (e : p = (u, x)) : Carries s u := by
  subst e
  exact h

theorem pair {α : Type} {x : α} (h : Carries s t) : Carries s (t, x).1 := h

theorem foldl {α : Type} {f : State → α → State} {l : List α} (h : Carries s t) (hf : ∀ {u x}, Carries s u → Carries s (f u x)) :
    Carries s (l.foldl f t) := by
  induction l generalizing t with
  | nil => exact h
  | cons x l ih => exact ih (hf h)

theorem foldl_fst {α β : Type} {f : State × β → α → State × β} {l : List α} {p : State × β} (h : Carries s p.1)
    (hf : ∀ {q x}, Carries s q.1 → Carries s (f q x).1) : Carries s (l.foldl f p).1 := by
  induction l generalizing p with
  | nil => exact h
  | cons x l ih => exact ih (hf h)

theorem foldl_s {α : Type} {f : Beat → α → Beat} {l : List α} {b : Beat} (h : Carries s b.s)
    (hf : ∀ {b x}, Carries s b.s → Carries s (f b x).s) : Carries s (l.foldl f b).s := by
  induction l generalizing b with
  | nil => exact h
  | cons x l ih => exact ih (hf h)

theorem foldl_beat {α β : Type} {f : Beat × β → α → Beat × β} {l : List α} {p : Beat × β} (h : Carries s p.1.s)
    (hf : ∀ {q x}, Carries s q.1.s → Carries s (f q x).1.s) : Carries s (l.foldl f p).1.s := by
  induction l generalizing p with
  | nil => exact h
  | cons x l ih => exact ih (hf h)

theorem ite_beat {β : Type} {c : Prop} [Decidable c] {p q : Beat × β} (h : Carries s p.1.s) (h' : Carries s q.1.s) :
    Carries s (if c then p else q).1.s := by
  split
  exacts [h, h']

theorem ite_s {c : Prop} [Decidable c] {b b' : Beat} (h : Carries s b.s) (h' : Carries s b'.s) : Carries s (if c then b else b').s := by
  split
  exacts [h, h']

/-! ### Updates of a field -/

theorem modStr_at {st : Sid} {f : Stream → Stream} (h : Carries s t) (hf : (t.str st).loops.length ≤ 4 → (f (t.str st)).loops.length ≤ 4) :
    Carries s (t.modStr st f) := by
  cases st
  · exact h.trans ⟨id, id, id, hf, id, id, id⟩
  · exact h.trans ⟨id, id, id, id, hf, id, id⟩

theorem modStr {st : Sid} {f : Stream → Stream} (h : Carries s t) (hf : ∀ x : Stream, (f x).loops = x.loops := by exact fun _ => rfl) :
    Carries s (t.modStr st f) :=
  h.modStr_at fun hx => by rwa [hf]

/-- A stream whose open loops are dropped. -/
theorem modStr_nil {st : Sid} {f : Stream → Stream} (h : Carries s t) (hf : ∀ x : Stream, (f x).loops = [] := by exact fun _ => rfl) :
    Carries s (t.modStr st f) :=
  h.modStr_at fun _ => by rw [hf]; exact Nat.zero_le _

theorem modCsu {st : Sid} {f : Csu → Csu} (h : Carries s t) : Carries s (t.modCsu st f) := by
  cases st <;> exact h.of_parts

theorem modMer {f} (h : Carries s t) : Carries s (t.modMer f) := h.of_parts
theorem modPins {f} (h : Carries s t) : Carries s (modPins t f) := h.of_parts
theorem wr {off v} (h : Carries s t) : Carries s (t.wr off v) := h.of_parts
theorem setRf {off hi lo v} (h : Carries s t) : Carries s (t.setRf off hi lo v) := h.of_parts
theorem modBar {n f} (h : Carries s t) : Carries s (t.modBar n f) := h.of_parts
theorem modChan {ch tkt f} (h : Carries s t) : Carries s (t.modChan ch tkt f) := h.of_parts
theorem modChans {l} (h : Carries s t) : Carries s { t with chans := l } := h.of_parts
theorem modArr {a} (h : Carries s t) : Carries s { t with arr := a } := h.of_parts
theorem modVec {v} (h : Carries s t) : Carries s { t with vec := v } := h.of_parts
theorem modCke {c} (h : Carries s t) : Carries s { t with cke := c } := h.of_parts
theorem modTp {p} (h : Carries s t) : Carries s { t with tp := p } := h.of_parts
theorem modTrk {n f} (h : Carries s t) : Carries s (t.modTrk n f) := h.of_parts
theorem modLink {ch f} (h : Carries s t) : Carries s (t.modLink ch f) := h.of_parts
theorem modWear {cls n f} (h : Carries s t) : Carries s (t.modWear cls n f) := h.of_parts
theorem wrRegs {st : Sid} {ws : List RegWr} (h : Carries s t) : Carries s (t.wrRegs st ws) := by
  refine h.modStr fun x => ?_
  induction ws generalizing x with
  | nil => rfl
  | cons w ws ih =>
    rw [List.foldl_cons, ih, Stream.wrReg]
    split
    case h_3 => split <;> rfl
    all_goals rfl

/-! ### Queues -/

/-- A context whose tickets differ after the change, where those of `s` did. -/
theorem modCtx_if {n : Nat} {f : Ctx → Ctx} (h : Carries s t) (hf : TicketsWf s.qsy → ((f (t.ctx n)).entries.map (·.tkt)).Nodup) :
    Carries s (t.modCtx n f) :=
  ⟨h.mem, h.rows, fun hq => TicketsWf.tmod (h.qsy hq) (hf hq), h.loopsA, h.loopsX, h.reads, h.writes⟩

/-- A context whose tickets differ after the change where they did before. -/
theorem modCtx_at {n : Nat} {f : Ctx → Ctx} (h : Carries s t)
    (hf : ((t.ctx n).entries.map (·.tkt)).Nodup → ((f (t.ctx n)).entries.map (·.tkt)).Nodup) : Carries s (t.modCtx n f) :=
  h.modCtx_if fun hq => hf ((h.qsy hq).2 n)

/-- A context whose entries are some of those that it held, in their order. -/
theorem modCtx {n : Nat} {f : Ctx → Ctx} (h : Carries s t) (hf : ∀ c : Ctx, (f c).entries.Sublist c.entries := by exact fun _ => .refl _) :
    Carries s (t.modCtx n f) := h.modCtx_at ((hf _).map _).nodup

/-- Contexts changed in place, each with its entries as they were. -/
theorem mapQsy {f : Nat × Ctx → Nat × Ctx} (h : Carries s t)
    (hf : ∀ p, (f p).1 = p.1 ∧ (f p).2.entries = p.2.entries := by exact fun _ => ⟨rfl, rfl⟩) :
    Carries s { t with qsy := t.qsy.map f } := h.trans ⟨id, id, fun hq => hq.map hf, id, id, id, id⟩

/-! ### Outstanding requests -/

theorem modFab {f : Fab} (h : Carries s t) (hreads : TagsWf t.fab.reads → TagsWf f.reads) (hwrites : TagsWf t.fab.writes → TagsWf f.writes) :
    Carries s { t with fab := f } := h.trans ⟨id, id, id, id, id, hreads, hwrites⟩

/-! ### The instruction memory -/

theorem modImem {i : Imem} (h : Carries s t) (hrows : twf 0 t.imem.rows = true → twf 0 i.rows = true) : Carries s { t with imem := i } :=
  h.trans ⟨id, hrows, id, id, id, id, id⟩

end Carries
end Sys2Proof.Machine
end

section
/-!
PROOFS. What the invariants of O5 and O6 claim carries over: the operations that commands share.
-/

namespace Sys2Proof.Machine.Carries

set_option Elab.async false

variable {s t u : State}

/-! ### Registers, events and halts -/

theorem incRf (h : Carries s t) {off hi lo} : Carries s (t.incRf off hi lo) := h.setRf
theorem freeWord (h : Carries s t) : Carries s t.freeWord.1 := h.of_parts
theorem raise (h : Carries s t) {src} : Carries s (t.raise src) := .ite h.of_parts h.setRf
theorem raiseCause (h : Carries s t) {src cause} : Carries s (t.raiseCause src cause) := h.raise.setRf
theorem perf (h : Carries s t) {n k} : Carries s (t.perf n k) := .ite h (.ite h.setRf.incRf.setRf.raise h.setRf)
theorem faultPut (h : Carries s t) {i w loc} : Carries s (t.faultPut i w loc) := h.wr.wr.wr.wr
theorem faultLog (h : Carries s t) {w loc} : Carries s (t.faultLog w loc) := .ite h.incRf h.faultPut.setRf.raise
theorem fault (h : Carries s t) {unit kind who loc} : Carries s (t.fault unit kind who loc) := h.faultLog

/-! ### Memory, faults and streams -/

theorem atHost (h : Carries s t) {off} {f : State → State} (hf : ∀ {u}, Carries s u → Carries s (f u)) : Carries s (t.atHost off f) :=
  .ite h (.ite h.incRf (hf h))

theorem settleSwitch (h : Carries s t) : Carries s t.settleSwitch := h.setRf
theorem dirty (h : Carries s t) {fab a n} : Carries s (t.dirty fab a n) := .ite h h.of_parts

theorem poke {a bs p} (h : Carries s t) : Carries s (t.poke a bs p) :=
  dirty (t := { t with spm := t.spm.poke a bs p }) (h.trans ⟨Spm.wf_poke t.spm a bs p, id, id, id, id, id, id⟩)

theorem bankCount (h : Carries s t) {w} : Carries s (t.bankCount w) := by
  unfold State.bankCount
  extract_lets bank off lo old s1 s2
  have h1 : Carries s s1 := h.setRf
  have h2 : Carries s s2 := h1.raise
  refine .ite ?_ h1
  split
  · exact .ite h2 h2.setRf.raiseCause
  · exact h2

theorem touch (h : Carries s t) {a n} : Carries s (t.touch a n) := h.foldl fun {x y} hu => .ite (of_parts (t := x.bankCount y) hu.bankCount) hu
theorem noteAddr (h : Carries s t) {a} : Carries s (t.noteAddr a) := .ite h h.wr
theorem noteUncorr (h : Carries s t) {who a} : Carries s (t.noteUncorr who a) := h.noteAddr.fault
theorem touchView (h : Carries s t) {viewer a n} : Carries s (t.touchView viewer a n) := h.foldl fun hu => hu.touch
theorem touchWords (h : Carries s t) {viewer l} : Carries s (t.touchWords viewer l) := h.foldl fun hu => hu.touchView

theorem withdraw {st} (h : Carries s t) : Carries s (t.withdraw st) := by
  unfold State.withdraw
  refine mapQsy (modStr ?_)
  split
  · exact h.wrRegs
  · exact h

theorem haltInStop (h : Carries s t) {deferred} : Carries s (t.haltInStop deferred) := .ite h.of_parts h

theorem takeHalt (h : Carries s t) {st h'} : Carries s (t.takeHalt st h') := by
  unfold State.takeHalt
  extract_lets s1 s2 hb s3 s4 s5 s6 b s7 s8 s9 s10 s11 o ost
  have h1 : Carries s s1 := h.withdraw.haltInStop
  have h2 : Carries s s2 := h1.modStr
  have h3 : Carries s s3 := h2.wr
  have h4 : Carries s s4 := h3.wr
  have h5 : Carries s s5 := h4.wr
  have h6 : Carries s s6 := h5.wr
  have h7 : Carries s s7 := h6.setRf
  have h8 : Carries s s8 := h7.setRf
  have h9 : Carries s s9 := h8.setRf
  have h10 : Carries s s10 := h9.modStr.settleSwitch
  have h11 : Carries s s11 := h10.raise
  exact .ite h11.modStr h11

theorem deferHalt (h : Carries s t) {st reason detail tag slot lw} : Carries s (t.deferHalt st reason detail tag slot lw) := by
  unfold State.deferHalt
  dsimp only
  split
  · exact .ite (.ite h h.modStr) h.takeHalt
  · exact .ite (.ite h h.modStr) h.takeHalt
  · exact .ite (.ite h h.modStr) h.takeHalt
  · exact h

theorem noteHalt (h : Carries s t) {st reason detail tag slot} : Carries s (t.noteHalt st reason detail tag slot) :=
  h.modStr fun _ => by split <;> rfl

/-! ### Repair -/

theorem setMark (h : Carries s t) {cls u} : Carries s (t.setMark cls u) := by
  unfold State.setMark
  refine .ite h ?_
  refine .ite h.setRf.raiseCause ?_
  split
  · exact h.setRf.setRf.raiseCause
  · exact h.setRf

theorem markUnit (h : Carries s t) {cls u} : Carries s (t.markUnit cls u) := .ite h h.setMark
theorem wearParity (h : Carries s t) {cls u} : Carries s (t.wearParity cls u) := .ite h.modWear.markUnit h.modWear
theorem wearLive (h : Carries s t) {cls u outrider} : Carries s (t.wearLive cls u outrider) := .ite h.modWear.markUnit h.modWear
theorem wearOutrider (h : Carries s t) {cls k u} : Carries s (t.wearOutrider cls k u) := .ite h.modWear.markUnit h.modWear

theorem applyMaps (h : Carries s t) {classes} : Carries s (t.applyMaps classes) := by
  unfold State.applyMaps
  refine h.foldl ?_
  intro x y hu
  extract_lets m __src s1 short s2
  have h4 : Carries s s1 := hu.of_parts
  have h5 : Carries s s2 := .ite h4.raise h4
  split
  · exact h5.setRf
  · exact h5.setRf
  · exact h5.setRf
  · exact h5

theorem clearArrayWear (h : Carries s t) : Carries s t.clearArrayWear := h.of_parts

theorem wearChannel (h : Carries s t) {ch} : Carries s (t.wearChannel ch) := by
  unfold State.wearChannel
  split
  · exact h.wearParity
  · exact h

/-! ### Consists and what they touch -/

theorem lastAbort (h : Carries s t) {st} : Carries s (t.lastAbort st) := h.wr

theorem restoreLog (h : Carries s t) {st} : Carries s (t.restoreLog st) := by
  unfold State.restoreLog
  extract_lets log base s1
  have h4 : Carries s s1 := by
    refine h.foldl ?_
    intro x y hu
    dsimp only
    split
    · exact hu.noteUncorr.poke
    · exact hu.touch.poke
  exact h4.modCsu

theorem dropChanWaits {f} (h : Carries s t) : Carries s (t.dropChanWaits f) := h.mapQsy
theorem abortChans (h : Carries s t) {id} : Carries s (t.abortChans id) := h.dropChanWaits.of_parts
theorem dropHeld (h : Carries s t) {st} : Carries s (t.dropHeld st) := .ite h.modCsu.abortChans h.modCsu
theorem replaceVote (h : Carries s t) {vg tick code} : Carries s (t.replaceVote vg tick code) := h.of_parts
theorem hurry (h : Carries s t) {p} : Carries s (t.hurry p) := .ite h h.of_parts
theorem stallOn (h : Carries s t) {who a p} : Carries s (t.stallOn who a p) := .ite h.hurry ((of_parts (t := t.hurry p) h.hurry).incRf)

theorem untagged (h : Carries s t) {side a bs poison} : Carries s (t.untagged side a bs poison) := by
  unfold State.untagged
  dsimp only
  split
  · split
    · exact h.poke.incRf.raise
    · exact h
  · split
    · refine .ite h.poke ?_
      refine .ite h.modCsu ?_
      split
      · exact h.poke.poke
      · exact h.poke
    · exact h.poke

theorem flushWaiting (h : Carries s t) {st} : Carries s (t.flushWaiting st) := by
  unfold State.flushWaiting
  dsimp only
  refine h.modCsu.foldl ?_
  intro x y hu
  split
  · exact hu.stallOn.modCsu
  · exact hu.untagged

theorem rollBack (h : Carries s t) {st next} : Carries s (t.rollBack st next) := h.dropHeld.restoreLog.lastAbort.modCsu.flushWaiting
theorem rollBackDue (h : Carries s t) {st next} : Carries s (t.rollBackDue st next) := .ite h.modCsu h.rollBack

theorem dueRollbacks (h : Carries s t) : Carries s t.dueRollbacks := by
  unfold State.dueRollbacks
  refine h.foldl ?_
  intro x y hu
  split
  · exact hu.rollBack
  · exact hu

theorem latchAbort (h : Carries s t) {st code detail} : Carries s (t.latchAbort st code detail) := by
  unfold State.latchAbort
  extract_lets c latched
  have h1 : Carries s latched := h.modCsu.raise
  refine .ite h ?_
  split
  · exact h1.rollBackDue
  · exact .ite (.ite h1.replaceVote h1) h1.rollBackDue
  · exact h

theorem abort (h : Carries s t) {st code detail} : Carries s (t.abort st code detail) := .ite (.ite h.modCsu h) h.latchAbort

theorem endBeat (h : Carries s t) {st} : Carries s (t.endBeat st) := by
  unfold State.endBeat
  extract_lets m s1
  have h1 : Carries s s1 := h.modCsu
  clear_value m s1
  split
  · exact h1.latchAbort
  · exact h1

theorem asBeat {f : State → State} (h : Carries s t) (hf : ∀ {u}, Carries s u → Carries s (f u)) : Carries s (t.asBeat f) :=
  (hf h.modCsu.modCsu).endBeat.endBeat

theorem abortIf (h : Carries s t) {st cs code detail} : Carries s (t.abortIf st cs code detail) := by
  unfold State.abortIf
  split
  · exact .ite h.abort h
  · exact h

theorem spmHalt (h : Carries s t) {st cs tag slot lw addr} : Carries s (t.spmHalt st cs tag slot lw addr) := h.noteUncorr.abortIf.deferHalt
theorem dirCheck (h : Carries s t) {st} : Carries s (t.dirCheck st) := .ite h h.modCsu.freeWord.fault.abort

theorem logWord (h : Carries s t) {st w} : Carries s (t.logWord st w).1 := by
  unfold State.logWord
  dsimp only
  split
  · exact h
  · split
    · exact h.abort
    · split
      · exact h.noteUncorr.abort
      · exact h.touch.poke.modCsu.pair

theorem writeWord (h : Carries s t) {side cs a bs poison} : Carries s (t.writeWord side cs a bs poison) := by
  unfold State.writeWord
  dsimp only
  refine .ite h ?_
  split
  · exact .ite h.abort (.ite h.logWord.poke h.logWord)
  · exact h.untagged

theorem write (h : Carries s t) {side cs a bs poison} : Carries s (t.write side cs a bs poison) := h.dirCheck.dirCheck.foldl fun hu => hu.writeWord
theorem writePairs (h : Carries s t) {side cs l poison} : Carries s (t.writePairs side cs l poison) := h.foldl fun hu => hu.write
theorem numcAdd (h : Carries s t) {i k} : Carries s (t.numcAdd i k) := .ite h (.ite h.setRf.setRf.raise h.setRf)
theorem unboundUse (h : Carries s t) : Carries s t.unboundUse := h.numcAdd

theorem bindCheck (h : Carries s t) {slot} : Carries s (t.bindCheck slot).1 := by
  unfold State.bindCheck
  split
  · exact h
  · split
    · exact h
    · exact h.unboundUse

theorem trip (h : Carries s t) {slot cs} : Carries s (t.trip slot cs) := h.modTrk.raise.abortIf

theorem trkParity (h : Carries s t) {n cs} : Carries s (t.trkParity n cs) := by
  unfold State.trkParity
  refine .ite h ?_
  extract_lets s1 s2
  have h1 : Carries s s1 := h.modTrk.fault.raiseCause
  have h2 : Carries s s2 := by
    unfold s2
    split
    · exact h1.wearParity
    · exact h1
  exact h2.trip

theorem merge (h : Carries s t) {slot cs amax c elems} : Carries s (t.merge slot cs amax c elems) := by
  unfold State.merge
  split
  · extract_lets s1 t1 z newSat s2 s3 t2 splim
    have h1 : Carries s s1 := h.trkParity
    have h2 : Carries s s2 := h1.modTrk
    have h3 : Carries s s3 := .ite h2.raise h2
    exact .ite h3.trip h3
  · exact h.foldl fun hu => hu.numcAdd

theorem numericTrip (h : Carries s t) {cs code detail} : Carries s (t.numericTrip cs code detail) := h.abortIf

/-! ### Links -/

theorem pumpLink (h : Carries s t) {ch} : Carries s (t.pumpLink ch) := .ite h.modLink h
theorem freeRx (h : Carries s t) {ch} : Carries s (t.freeRx ch) := h.modLink
theorem send (h : Carries s t) {ch body} : Carries s (t.send ch body) := .ite h.modLink.pumpLink h

/-! ### Queues -/

theorem ticketFault (h : Carries s t) {n t'} : Carries s (t.ticketFault n t') := h.modCtx.foldl fun hu => .ite hu.deferHalt hu.modChan

theorem hold (h : Carries s t) {n e} : Carries s (t.hold n e) := by
  unfold State.hold
  dsimp only
  split
  · exact h.ticketFault
  next hd =>
    refine h.modCtx_at fun hnodup => ?_
    simp only [Bool.or_eq_true, not_or, List.any_eq_true, decide_eq_true_eq, not_exists, not_and] at hd
    rw [List.map_append, List.map_singleton]
    refine List.nodup_append.mpr ⟨hnodup, List.nodup_singleton _, fun a ha b hb => ?_⟩
    obtain ⟨x, hx, rfl⟩ := List.mem_map.mp ha
    rw [List.mem_singleton] at hb
    exact hb ▸ hd.2 x hx

theorem pushNow (h : Carries s t) {n tkt e} : Carries s (t.pushNow n tkt e) := (Carries.ite h.modCtx h).hold
theorem enginePushT (h : Carries s t) {agent n tkt e} : Carries s (t.enginePushT agent n tkt e) := .ite h (.ite h.pushNow h.modCtx)
theorem enginePush (h : Carries s t) {n e} : Carries s (t.enginePush n e) := h.enginePushT
theorem ctTicket (h : Carries s t) {n} : Carries s (t.ctTicket n) := h.enginePush

theorem quotaProceed (h : Carries s t) {n} : Carries s (t.quotaProceed n).1 := by
  unfold State.quotaProceed
  split
  · split
    · exact h.modCtx.pushNow
    · exact h
  · exact h

theorem takeHead (h : Carries s t) {n e} : Carries s (t.takeHead n e) := by
  unfold State.takeHead
  extract_lets s1
  have h1 : Carries s s1 := h.modCtx fun _ => by exact List.filter_sublist
  split
  · exact h1.send
  · exact h1

theorem carNumber (h : Carries s t) : Carries s t.carNumber.1 := h.of_parts

theorem readCars (h : Carries s t) {who e} : Carries s (t.readCars who e).1 := by
  unfold State.readCars
  refine foldl_fst (p := (t, none)) h fun {q _} hq => ?_
  have hfault : Carries s (q.1.carNumber.1.fault 0x02 2 who q.1.carNumber.2) := hq.carNumber.fault
  dsimp only
  split
  exacts [hfault.markUnit, hfault]

theorem deliver (h : Carries s t) {n k e} : Carries s (t.deliver n k e).1 := by
  unfold State.deliver
  have hread : Carries s (t.readCars (some (natSid k.agent, k.tag)) e).1 := h.readCars
  dsimp only
  generalize t.readCars (some (natSid k.agent, k.tag)) e = q at hread ⊢
  obtain ⟨u, e', bad⟩ := q
  dsimp only at hread ⊢
  have htaken : Carries s ((if e'.poisoned = true then u.modCtx n fun c => { c with poison := true } else u).takeHead n e') :=
    (Carries.ite hread.modCtx hread).takeHead
  split
  · split
    next hpoison =>
      rw [if_pos hpoison] at htaken
      refine (noteHalt (abortIf ?_)).pair
      cases bad with
      | some car => exact htaken
      | none => exact htaken.carNumber.fault
    next hpoison =>
      rw [if_neg hpoison] at htaken
      exact htaken.pair
  · exact (htaken.asBeat fun h => h.writePairs).pair
  · exact htaken

theorem stallPop (h : Carries s t) {n k} : Carries s (t.stallPop n k) := by
  unfold State.stallPop
  split
  · exact h.stallOn
  · exact h

theorem consumerTurn (h : Carries s t) {n k p} (e : t.consumerTurn n k = some p) : Carries s p.1 := by
  unfold State.consumerTurn at e
  dsimp only at e
  split at e
  · cases e
  · split at e
    · split at e
      · obtain ⟨x, -, rfl⟩ := Option.map_eq_some_iff.mp e
        exact h.deliver
      · cases e
        exact h.noteHalt
    · split at e
      · cases e
      · obtain ⟨x, -, rfl⟩ := Option.map_eq_some_iff.mp e
        exact h.deliver

theorem qsyDeny (h : Carries s t) {b} : Carries s (t.qsyDeny b) := h.setRf

theorem writeW0 (h : Carries s t) {n v} : Carries s (t.writeW0 n v) := by
  unfold State.writeW0
  dsimp only
  refine .ite h.qsyDeny ?_
  refine .ite h.qsyDeny ?_
  refine .ite h.qsyDeny ?_
  refine .ite h.qsyDeny ?_
  refine .ite h.qsyDeny ?_
  refine .ite (h.modCtx fun _ => by exact List.nil_sublist _) ?_
  exact .ite (h.modCtx fun _ => by exact List.nil_sublist _) h.modCtx

theorem writeW1 (h : Carries s t) {n v} : Carries s (t.writeW1 n v) := .ite h.qsyDeny (.ite h.qsyDeny h.modCtx)
theorem writeW3 (h : Carries s t) {n v} : Carries s (t.writeW3 n v) := .ite h.qsyDeny h.modCtx

/-! ### Operands -/

theorem lateMark (h : Carries s t) {tg} : Carries s (t.lateMark tg) := .ite h.setRf h

/-! ### Issue -/

theorem haltAtIssue (h : Carries s t) {st f c} : Carries s (t.haltAtIssue st f c) := by
  unfold State.haltAtIssue
  dsimp only
  split
  · exact h.takeHalt
  · exact h.takeHalt

theorem bumpCc (h : Carries s t) {st} : Carries s (t.bumpCc st) := h.modStr

theorem supersede (h : Carries s t) {st keys} : Carries s (t.supersede st keys) := by
  unfold State.supersede
  refine .ite h ?_
  extract_lets s1 __src
  have h1 : Carries s s1 := h.modStr
  split
  · exact h1
  · exact h.of_parts

theorem takeNoted (h : Carries s t) {st} : Carries s (t.takeNoted st) := by
  unfold State.takeNoted
  split
  · exact h.takeHalt
  · exact h

theorem loopEnd_length (addr next k : Nat) (x : Stream) : (loopEnd addr next k x).1.loops.length ≤ x.loops.length := by
  induction k generalizing x with
  | zero => exact le_rfl
  | succ k ih =>
    unfold loopEnd
    split
    next l hl =>
      have hpos : 0 < x.loops.length := List.length_pos_of_mem (List.mem_of_getLast? hl)
      split
      · dsimp only
        split
        · refine (ih _).trans ?_
          rw [List.length_dropLast]
          omega
        · rw [List.length_append, List.length_dropLast, List.length_singleton]
          omega
      · exact le_rfl
    next => exact le_rfl

theorem finishWord (h : Carries s t) {st lw jump late} : Carries s (t.finishWord st lw jump late) := by
  refine takeNoted (modStr_at h.wrRegs fun hlen => ?_)
  cases jump with
  | some a => exact hlen
  | none => exact (loopEnd_length _ _ _ _).trans hlen

theorem supersede_loops (t : State) (st : Sid) (keys : List (Nat × Nat)) : ((t.supersede st keys).str st).loops = (t.str st).loops := by
  unfold State.supersede
  split
  · rfl
  · cases st <;> rfl

theorem walkBeside {w : Walk} (h : Carries s w.s) {st lw c m k} (e : walkBeside st lw w c m = .go k) : Carries s k.s := by
  unfold Machine.walkBeside at e
  dsimp only at e
  generalize (if c.gp = 0 then [] else [(2, c.gp)]) = l at e
  generalize firstFail _ = o at e
  split at e
  · cases e
  · split at e
    · cases e
    · cases e
      exact h.bumpCc

/-- One slot of a word: its command acts where its checks hold. -/
theorem walkSlot {w : Walk} (h : Carries s w.s) {st lw c m k} (hm : m.Carrying) (e : walkSlot st lw w c m = .go k) : Carries s k.s := by
  unfold Machine.walkSlot at e
  split at e
  · cases e
    dsimp only
    exact h.bumpCc.modStr
  split at e
  · exact h.walkBeside e
  have hu : Carries s (if c.kind = 7 then w.s.wrRegs st w.lateW else w.s) := .ite h.wrRegs h
  dsimp only at e
  generalize (if c.kind = 7 then w.s.wrRegs st w.lateW else w.s) = u at e hu
  split at e
  · cases e
  split at e
  · split at e
    · cases e
    · cases e
      exact hu.bumpCc
  split at e
  · cases e
  split at e
  · cases e
  next hchk =>
    have hloops : ((if m.isW c = true then u else u.supersede st (m.dst c)).str st).loops = (u.str st).loops := by
      split
      exacts [rfl, supersede_loops _ _ _]
    have hrun := hm (.ite hu hu.supersede) hloops hchk
    split at e
    next hq =>
      rw [hq] at hrun
      split at e
      · cases e
        exact Carries.bumpCc (supersede hrun)
      · cases e
        exact Carries.bumpCc hrun
    next hq =>
      rw [hq] at hrun
      cases e
      exact Carries.bumpCc hrun
    next => cases e
    next hq =>
      rw [hq] at hrun
      cases e
      exact Carries.bumpCc hrun

theorem walkSlots {w : Walk} {l : List (Slot × CmdSem)} (h : Carries s w.s) {st lw k} (hl : ∀ p ∈ l, p.2.Carrying) (e : walkSlots st lw w l = .go k) :
    Carries s k.s := by
  induction l generalizing w with
  | nil =>
    cases e
    exact h
  | cons p l ih =>
    rw [Machine.walkSlots] at e
    split at e
    next hgo => exact ih (h.walkSlot (hl p List.mem_cons_self) hgo) (fun q hq => hl q (List.mem_cons_of_mem _ hq)) e
    next hne => exact absurd e (hne k)

theorem issueWord {slots : List (Slot × CmdSem)} (h : Carries s t) {st lw pre tagged} (hl : ∀ p ∈ slots, p.2.Carrying) :
    Carries s (t.issueWord st lw pre slots tagged) := by
  unfold State.issueWord
  dsimp only
  refine .ite h (.ite h (.ite h ?_))
  split
  · exact h.haltAtIssue
  · split
    · exact h.haltAtIssue
    · exact h.modStr
    next w hw =>
      have hbegan : Carries s (t.modStr st fun t => { t with fresh := false }) := h.modStr
      have hwalk : Carries s w.s := walkSlots hbegan hl hw
      have hperf : Carries s (w.s.perf (1 + sidNat st) 1) := hwalk.perf
      generalize w.s.perf (1 + sidNat st) 1 = v at hperf ⊢
      have hcounted : Carries s (if t.rf 0x8080 1 0 = 0 then v else if v.ring.tr.length ≥ 64 then v.incRf 0x8088 15 0 else
          { v with ring := { v.ring with tr := v.ring.tr ++ [tracePacket t st lw.addr (slots.map fun p => p.1.tag)] } }) :=
        .ite hperf (.ite hperf.incRf hperf.of_parts)
      generalize (if t.rf 0x8080 1 0 = 0 then v else _) = v at hcounted ⊢
      split
      · exact hcounted.modStr.takeNoted
      · exact hcounted.finishWord

theorem issueRow (h : Carries s t) {m st c} (hm : m.Carrying) : CarriesOut s (issueRow m st c t) :=
  h.issueWord fun p hp => by rwa [List.mem_singleton.mp hp]

end Sys2Proof.Machine.Carries
end

section
/-!
PROOFS. What the invariants of O5 and O6 claim carries over: the commands of the scalar unit, the queues, the DMA and the fabric.
-/

namespace Sys2Proof.Machine.Carries

set_option Elab.async false

variable {s t u : State}

/-! ### Scalar commands -/

theorem setReg (h : Carries s t) {st kind idx val} : Carries s (t.setReg st kind idx val) := h.wrRegs
theorem runSli (h : Carries s t) {st c} : CarriesRes s (runSli t st c) := h.setReg
theorem runSmov (h : Carries s t) {st c} : CarriesRes s (runSmov t st c) := h.modStr.setReg
theorem aluPut (h : Carries s t) {st c v} : CarriesRes s (aluPut t st c v) := h.setReg
theorem runSadd (h : Carries s t) {st c} : CarriesRes s (runSadd t st c) := h.aluPut
theorem runSsub (h : Carries s t) {st c} : CarriesRes s (runSsub t st c) := h.aluPut
theorem aluN (h : Carries s t) {st c f} : CarriesRes s (aluN t st c f) := h.setReg
theorem runSmul (h : Carries s t) {st c} : CarriesRes s (runSmul t st c) := h
theorem runSand (h : Carries s t) {st c} : CarriesRes s (runSand t st c) := h.aluN
theorem runSor (h : Carries s t) {st c} : CarriesRes s (runSor t st c) := h.aluN
theorem runSxor (h : Carries s t) {st c} : CarriesRes s (runSxor t st c) := h.aluN
theorem runSshl (h : Carries s t) {st c} : CarriesRes s (runSshl t st c) := h.aluN
theorem runSshr (h : Carries s t) {st c} : CarriesRes s (runSshr t st c) := h.aluN
theorem runSshra (h : Carries s t) {st c} : CarriesRes s (runSshra t st c) := h.aluN
theorem runScmp (h : Carries s t) {st c} : CarriesRes s (runScmp t st c) := h.setReg
theorem runSpl (h : Carries s t) {st c} : CarriesRes s (runSpl t st c) := h.setReg
theorem pushAcc (h : Carries s t) {st c isLoad kind idx addrs bytes} : Carries s (t.pushAcc st c isLoad kind idx addrs bytes) := h.modStr
theorem runSld (h : Carries s t) {st c} : CarriesRes s (runSld t st c) := h.pushAcc
theorem runSst (h : Carries s t) {st c} : CarriesRes s (runSst t st c) := h.pushAcc

theorem runLoop {u : State} (h : Carries s u) {st c lw} (hloops : (u.str st).loops = (t.str st).loops)
    (hchk : firstFail (chkLoop t st c lw ++ headChks t c) = none) : CarriesRes s (runLoop u st c lw) := by
  have hlt : ¬ (t.str st).loops.length ≥ 4 := by
    have hmem : chk 6 (decide ((t.str st).loops.length ≥ 4)) 7 ∈ chkLoop t st c lw ++ headChks t c := by simp [chkLoop]
    simpa [chk] using firstFail_none hchk hmem (by simp [chk])
  unfold Machine.runLoop
  dsimp only
  generalize (if bit c.base 47 = true then _ else _ : W32) = cnt
  split
  · exact h
  · refine h.modStr_at fun _ => ?_
    rw [List.length_append, List.length_singleton, hloops]
    omega

theorem runLexit (h : Carries s t) {st c} : CarriesRes s (runLexit t st c) := by
  unfold Machine.runLexit
  dsimp only
  split
  · exact h.modStr_at fun hlen => (List.length_take_le' _ _).trans hlen
  · exact h

theorem runBrc (h : Carries s t) {st c lw} : CarriesRes s (runBrc t st c lw) := by
  unfold Machine.runBrc
  split
  · exact h
  · exact h

theorem sliSem_carrying : sliSem.Carrying := of_run fun h => h.runSli
theorem smovSem_carrying : smovSem.Carrying := of_run fun h => h.runSmov
theorem saddSem_carrying : saddSem.Carrying := of_run fun h => h.runSadd
theorem ssubSem_carrying : ssubSem.Carrying := of_run fun h => h.runSsub
theorem smulSem_carrying : smulSem.Carrying := of_run fun h => h.runSmul
theorem sandSem_carrying : sandSem.Carrying := of_run fun h => h.runSand
theorem sorSem_carrying : sorSem.Carrying := of_run fun h => h.runSor
theorem sxorSem_carrying : sxorSem.Carrying := of_run fun h => h.runSxor
theorem sshlSem_carrying : sshlSem.Carrying := of_run fun h => h.runSshl
theorem sshrSem_carrying : sshrSem.Carrying := of_run fun h => h.runSshr
theorem sshraSem_carrying : sshraSem.Carrying := of_run fun h => h.runSshra
theorem scmpSem_carrying : scmpSem.Carrying := of_run fun h => h.runScmp
theorem splSem_carrying : splSem.Carrying := of_run fun h => h.runSpl
theorem sldSem_carrying : sldSem.Carrying := of_run fun h => h.runSld
theorem sstSem_carrying : sstSem.Carrying := of_run fun h => h.runSst
theorem loopSem_carrying : loopSem.Carrying := fun h hloops hchk => runLoop h hloops hchk
theorem lexitSem_carrying : lexitSem.Carrying := of_run fun h => h.runLexit
theorem brSem_carrying : brSem.Carrying := of_run (m := brSem) fun h => h
theorem brpSem_carrying : brpSem.Carrying := of_run (m := brpSem) fun h => h
theorem brcSem_carrying : brcSem.Carrying := of_run fun h => h.runBrc
theorem brkSem_carrying : brkSem.Carrying := of_run (m := brkSem) fun h => h
theorem haltSem_carrying : haltSem.Carrying := of_run (m := haltSem) fun h => h
theorem execSli (h : Carries s t) {st c} : CarriesOut s (execSli st c t) := h.issueRow sliSem_carrying
theorem execSmov (h : Carries s t) {st c} : CarriesOut s (execSmov st c t) := h.issueRow smovSem_carrying
theorem execSadd (h : Carries s t) {st c} : CarriesOut s (execSadd st c t) := h.issueRow saddSem_carrying
theorem execSsub (h : Carries s t) {st c} : CarriesOut s (execSsub st c t) := h.issueRow ssubSem_carrying
theorem execSmul (h : Carries s t) {st c} : CarriesOut s (execSmul st c t) := h.issueRow smulSem_carrying
theorem execSand (h : Carries s t) {st c} : CarriesOut s (execSand st c t) := h.issueRow sandSem_carrying
theorem execSor (h : Carries s t) {st c} : CarriesOut s (execSor st c t) := h.issueRow sorSem_carrying
theorem execSxor (h : Carries s t) {st c} : CarriesOut s (execSxor st c t) := h.issueRow sxorSem_carrying
theorem execSshl (h : Carries s t) {st c} : CarriesOut s (execSshl st c t) := h.issueRow sshlSem_carrying
theorem execSshr (h : Carries s t) {st c} : CarriesOut s (execSshr st c t) := h.issueRow sshrSem_carrying
theorem execSshra (h : Carries s t) {st c} : CarriesOut s (execSshra st c t) := h.issueRow sshraSem_carrying
theorem execScmp (h : Carries s t) {st c} : CarriesOut s (execScmp st c t) := h.issueRow scmpSem_carrying
theorem execSpl (h : Carries s t) {st c} : CarriesOut s (execSpl st c t) := h.issueRow splSem_carrying
theorem execSld (h : Carries s t) {st c} : CarriesOut s (execSld st c t) := h.issueRow sldSem_carrying
theorem execSst (h : Carries s t) {st c} : CarriesOut s (execSst st c t) := h.issueRow sstSem_carrying
theorem execLoop (h : Carries s t) {st c} : CarriesOut s (execLoop st c t) := h.issueRow loopSem_carrying
theorem execLexit (h : Carries s t) {st c} : CarriesOut s (execLexit st c t) := h.issueRow lexitSem_carrying
theorem execBr (h : Carries s t) {st c} : CarriesOut s (execBr st c t) := h.issueRow brSem_carrying
theorem execBrp (h : Carries s t) {st c} : CarriesOut s (execBrp st c t) := h.issueRow brpSem_carrying
theorem execBrc (h : Carries s t) {st c} : CarriesOut s (execBrc st c t) := h.issueRow brcSem_carrying
theorem execBrk (h : Carries s t) {st c} : CarriesOut s (execBrk st c t) := h.issueRow brkSem_carrying
theorem execHalt (h : Carries s t) {st c} : CarriesOut s (execHalt st c t) := h.issueRow haltSem_carrying

/-! ### Waits that end -/

theorem ctlSem_carrying {o} : (ctlSem o).Carrying := by
  unfold ctlSem
  split
  · exact loopSem_carrying
  split
  · exact lexitSem_carrying
  split
  · exact brSem_carrying
  split
  exacts [brpSem_carrying, brcSem_carrying]

theorem runCtl (h : Carries s t) {st w c} : Carries s (t.runCtl st w c) := by
  unfold State.runCtl
  dsimp only
  split
  next k hk =>
    have hwrote : Carries s (t.wrRegs st w.snap) := h.wrRegs
    have hwalk : Carries s k.s := walkSlot hwrote ctlSem_carrying hk
    exact hwalk.modStr.finishWord
  next => exact h
  next => exact h.haltAtIssue

theorem finishWait (h : Carries s t) {st ws} : Carries s (t.finishWait st ws) := by
  unfold State.finishWait
  split
  · exact h
  · extract_lets keys w s1
    have h1 : Carries s s1 := h.modStr.supersede.wrRegs
    split
    · exact h1.finishWord
    · exact h1.runCtl

theorem barrierEnds (h : Carries s t) : Carries s t.barrierEnds := by
  unfold State.barrierEnds
  refine .ite h ?_
  refine h.foldl ?_
  intro x y hu
  split
  · split
    · exact .ite hu.finishWait hu
    · exact hu
  · exact hu

theorem execQueueWaitLong (h : Carries s t) {st} : CarriesOut s (execQueueWaitLong st t) := by
  unfold Machine.execQueueWaitLong
  split
  · exact .ite h h.setRf.modStr.raise
  · exact h

/-! ### Queue commands -/

theorem qpushEntry (h : Carries s t) {st c} : Carries s (qpushEntry t st c).1 := by
  unfold Machine.qpushEntry
  extract_lets t1 sel addrs bad cars s1 s2
  have h1 : Carries s s1 := h.touchWords
  have h2 : Carries s s2 := by
    unfold s2
    split
    · exact h1.noteUncorr.abortIf
    · exact h1
  split
  · exact h
  · split
    · exact h
    · exact h2

theorem pushStep (h : Carries s t) {st n tkt e} : CarriesRes s (pushStep t st n tkt e) := by
  unfold Machine.pushStep
  dsimp only
  split
  · exact .ite h.modCtx h
  · split
    · split
      · exact (Carries.ite h.modCtx h).modCsu
      · exact (Carries.ite h.modCtx h).abort
    · split
      · exact h.pushNow
      · exact h.modCtx

theorem runQpush (h : Carries s t) {st c} : CarriesRes s (runQpush t st c) := by
  unfold Machine.runQpush
  dsimp only
  split
  · split
    · exact h
    · exact h.qpushEntry.pushStep
  · split
    · exact h
    · exact h.qpushEntry.pushStep

theorem popStep (h : Carries s t) {n k} : CarriesRes s (popStep t n k) := by
  unfold Machine.popStep
  split
  next v ws hp =>
    have htaken : t.consumerTurn n k = some (v, ws) := by
      split at hp
      exacts [hp, nomatch hp]
    exact h.consumerTurn htaken
  next => exact (Carries.ite h.stallPop h).modCtx

theorem runQpop (h : Carries s t) {st c} : CarriesRes s (runQpop t st c) := h.popStep
theorem runQwait (h : Carries s t) {st c} : CarriesRes s (runQwait t st c) := h.popStep

theorem runDmap (h : Carries s t) {st c} : CarriesRes s (runDmap t st c) := by
  unfold Machine.runDmap
  dsimp only
  split
  · exact h
  · split
    · exact h.noteUncorr.abortIf.noteHalt
    · exact h.touchView.pushStep

theorem retryStores (h : Carries s t) {st} : Carries s (t.retryStores st) := by
  unfold State.retryStores
  split
  next w _ =>
    refine .ite h ?_
    have hrun : CarriesRes s (if w.cmd.opc = 0x20 then Machine.runQpush (t.wrRegs st w.snap) st w.cmd else Machine.runDmap (t.wrRegs st w.snap) st w.cmd) := by
      split
      exacts [h.wrRegs.runQpush, h.wrRegs.runDmap]
    dsimp only
    split
    next hq =>
      rw [hq] at hrun
      exact Carries.finishWait (modStr hrun)
    next hq =>
      rw [hq] at hrun
      exact modStr (modStr hrun)
    next => exact h
  next => exact h

theorem runDmard (h : Carries s t) {c} : CarriesRes s (runDmard t c) := h
theorem qpushSem_carrying : qpushSem.Carrying := of_run fun h => h.runQpush
theorem qpopSem_carrying : qpopSem.Carrying := of_run fun h => h.runQpop
theorem qwaitSem_carrying : qwaitSem.Carrying := of_run fun h => h.runQwait
theorem dmapSem_carrying : dmapSem.Carrying := of_run fun h => h.runDmap
theorem dmardSem_carrying : dmardSem.Carrying := of_run fun h => h.runDmard
theorem execQpush (h : Carries s t) {st c} : CarriesOut s (execQpush st c t) := h.issueRow qpushSem_carrying
theorem execQpop (h : Carries s t) {st c} : CarriesOut s (execQpop st c t) := h.issueRow qpopSem_carrying
theorem execQwait (h : Carries s t) {st c} : CarriesOut s (execQwait st c t) := h.issueRow qwaitSem_carrying
theorem execDmap (h : Carries s t) {st c} : CarriesOut s (execDmap st c t) := h.issueRow dmapSem_carrying
theorem execDmard (h : Carries s t) {st c} : CarriesOut s (execDmard st c t) := h.issueRow dmardSem_carrying

theorem sendEntry (h : Carries s t) {n} : Carries s (t.sendEntry n) := by
  unfold State.sendEntry
  split
  next e _ =>
    have hread : Carries s (t.readCars none e).1 := h.readCars
    refine ((hread.of_parts (u := { (t.readCars none e).1 with fab := _ })).modCtx_at fun hnodup => ?_).foldl fun h => h.send
    convert hnodup using 1
    rw [List.map_map]
    refine List.map_congr_left fun x _ => ?_
    simp only [Function.comp_apply]
    split
    next hx => rw [hx]
    next => rfl
  next => exact h

/-! ### DMA -/

theorem issueReq (h : Carries s t) {r} : Carries s (t.issueReq r) := by
  unfold State.issueReq
  dsimp only
  split
  · split
    next tag hfree => exact (h.modFab (f := { t.fab with serial := _, reads := t.fab.reads ++ [{ r with tag := tag, serial := _ }] })
        (fun hreads => hreads.append hfree) id).send
    next => exact h.of_parts
  · split
    next tag hfree =>
      have hsent := h.modFab (f := { t.fab with serial := t.fab.serial + 1, writes := t.fab.writes ++ [{ r with tag := tag, serial := t.fab.serial + 1 }] })
        id fun hwrites => hwrites.append hfree
      exact .ite hsent.send.perf hsent.send.perf.dirty
    next => exact h.of_parts

theorem hurryTodo (h : Carries s t) : Carries s t.hurryTodo := by
  unfold State.hurryTodo
  refine h.foldl ?_
  intro x y hu
  split
  · exact hu.stallOn
  · exact hu

theorem issueTodo (h : Carries s t) {r rr} : Carries s (t.issueTodo r rr) := h.of_parts.issueReq

theorem reqSlot (h : Carries s t) : Carries s t.reqSlot := by
  unfold State.reqSlot
  extract_lets s1
  have h1 : Carries s s1 := h.hurryTodo
  split
  · refine .ite h1.sendEntry ?_
    split
    · exact h1.issueTodo
    · exact h1
  · split
    · exact h1.issueTodo
    · exact h1

theorem execFabOutSend (h : Carries s t) {ctx} : CarriesOut s (execFabOutSend ctx t) := .ite h.sendEntry h
theorem addReq (h : Carries s t) {r} : Carries s (t.addReq r) := h.of_parts
theorem dbufParity (h : Carries s t) {ch c} : Carries s (t.dbufParity ch c) := h.fault.wearChannel.modChan

theorem putSpm (h : Carries s t) {ch c a bs poison} : Carries s (t.putSpm ch c a bs poison).1 := by
  unfold State.putSpm
  split
  · exact h.stallOn
  · exact h.write.modChan

theorem putFabric (h : Carries s t) {ch c a u units} : Carries s (t.putFabric ch c a u units) :=
  h.foldl fun hu => .ite (.ite hu (.ite hu.of_parts hu.abort)) hu.addReq.modChan

theorem putPiece (h : Carries s t) {ch c u bs poison} : Carries s (t.putPiece ch c u bs poison).1 := by
  unfold State.putPiece
  extract_lets d n e
  split
  · exact h.dbufParity
  · split
    · exact h.putSpm
    · split
      · exact h.stallOn
      · exact h.putFabric
    · split
      · exact h.modChan
      · split
        · exact h.modChan.pushNow
        · exact h.modCtx.modChan
    · exact h.modChan

theorem getLocal (h : Carries s t) {ch c u} : Carries s (t.getLocal ch c u).1 := by
  unfold State.getLocal
  extract_lets d a n bs bad s1
  have h1 : Carries s s1 := h.touchView
  clear_value d a n bs bad s1
  split
  · exact h
  · split
    · exact h1.noteUncorr.abortIf.modChan
    · exact h1

theorem chanStep (h : Carries s t) {ch} : Carries s (t.chanStep ch).1 := by
  unfold State.chanStep
  split
  · exact h
  next c _ =>
    dsimp only
    split
    · exact h
    split
    · split
      · split
        · exact (h.modChan.foldl fun h => h.addReq).pair
        · split
          · exact h
          · have hput : Carries s (t.putPiece ch c c.unit c.rowBytes c.rowBad).1 := h.putPiece
            split
            exacts [hput.modChan.pair, hput]
      · exact h.modChan.addReq.pair
    split
    · split
      · split
        · exact h.modChan.pair
        · split
          next e _ =>
            have hread : Carries s (t.readCars none e).1 := h.readCars
            exact (Carries.ite hread.takeHead.modCtx hread.takeHead).modChan.pair
          next => exact h.modCtx.modChan.pair
      · have hmarked : Carries s (if c.rowBad = true then t.modChan ch c.tkt fun c => c.setStatus 3 else t) := .ite h.modChan h
        generalize (if c.rowBad = true then t.modChan ch c.tkt fun c => c.setStatus 3 else t) = v at hmarked ⊢
        have hput : Carries s (v.putPiece ch c c.unit c.rowBytes c.rowBad).1 := hmarked.putPiece
        split
        exacts [hput.modChan.pair, hput]
    · have hput : Carries s ((t.getLocal ch c c.unit).1.putPiece ch c c.unit (t.getLocal ch c c.unit).2.1 (t.getLocal ch c c.unit).2.2).1 :=
        h.getLocal.putPiece
      split
      exacts [hput.modChan.pair, hput]

theorem chanLoop (h : Carries s t) {ch k} : Carries s (chanLoop ch k t) := by
  induction k generalizing t with
  | zero => exact h
  | succ k ih =>
    have hstep : Carries s (t.chanStep ch).1 := h.chanStep
    exact .ite (ih hstep) hstep

theorem chanRun (h : Carries s t) {ch} : Carries s (t.chanRun ch) := by
  unfold State.chanRun
  split
  · exact h.chanLoop
  · exact h

theorem chanFlush (h : Carries s t) {ch} : Carries s (t.chanFlush ch) :=
  h.foldl fun hu => hu.modChan.foldl fun hv => .ite hv.putPiece hv.putPiece.modChan

theorem allChans {f : State → Nat → State} (h : Carries s t) (hf : ∀ {u x}, Carries s u → Carries s (f u x)) : Carries s (t.allChans f) :=
  h.foldl hf

theorem ctxLoad (h : Carries s t) {ch c} : Carries s (t.ctxLoad ch c) := by
  refine Carries.modChan (foldl_fst (p := (t, true)) h fun {q i} hq => ?_)
  obtain ⟨u, go⟩ := q
  dsimp only
  split
  · exact hq
  · split
    · exact hq.modChan
    · split
      · exact hq.noteUncorr.abortIf.modChan
      · exact hq.touchView.writeW1.writeW0.modChan

theorem clearBank (h : Carries s t) {bank} : Carries s (t.clearBank bank) := h.setRf.setRf.setRf.wr.foldl fun hu => hu.wr

theorem execDmaDescriptorStart (h : Carries s t) {ch badUnits} : CarriesOut s (execDmaDescriptorStart ch badUnits t) := by
  unfold Machine.execDmaDescriptorStart
  dsimp only
  split
  · exact h
  next e _ =>
    have hread : Carries s (t.readCars none e).1 := h.readCars
    have htaken := hread.takeHead (n := 16 + ch.toNat) (e := e)
    refine .ite h (.ite htaken.modCtx.modChans (.ite htaken.modChans (.ite htaken.modChans (.ite htaken.modChans (.ite htaken.modChans.ctxLoad ?_)))))
    exact chanRun (modChans (.ite htaken.clearBank htaken))

theorem execDmaDescriptorComplete (h : Carries s t) {ch} : CarriesOut s (execDmaDescriptorComplete ch t) := by
  unfold Machine.execDmaDescriptorComplete
  extract_lets n behind
  split
  · extract_lets d queued s1 rec' cc s2 s3 s4
    have h1 : Carries s s1 := h.of_parts
    have h2 : Carries s s2 := .ite h1.enginePushT h1.incRf.raise
    have h3 : Carries s s3 := .ite h2.raise h2
    have h4 : Carries s s4 := .ite h3.raise h3
    exact .ite h4.perf h
  · exact h

theorem setBank (h : Carries s t) {bank row} : Carries s (t.setBank bank row) := by
  unfold State.setBank
  generalize upto 8192 = l
  exact h.modImem fun hrows => twf_foldl _ _ (fun _ _ => twf_tset _ _ _ _) _ _ hrows

theorem execImemLoadComplete (h : Carries s t) {ch} : CarriesOut s (execImemLoadComplete ch t) := by
  unfold Machine.execImemLoadComplete
  extract_lets n
  split
  · exact h
  · extract_lets d bank b info e units s1 s2 dig s3 s4 s5
    have h1 : Carries s s1 := h.modChan
    have h2 : Carries s s2 := h1.setBank
    have h6 : Carries s s3 := h2.foldl fun hu => hu.wr
    have h7 : Carries s s4 := h6.setRf.setRf.setRf.setRf
    have h8 : Carries s s5 := h7.setRf.setRf
    exact .ite h1.setBank.setRf h8.setRf

theorem dataIn (h : Carries s t) {r u} : Carries s (t.dataIn r u) := by
  unfold State.dataIn
  extract_lets s1 s2
  have h1 : Carries s s1 := h.modChan
  have h2 : Carries s s2 := .ite h1.modChan h1
  split
  · exact h1
  · exact .ite h1 (.ite h2.modChan.chanRun (.ite h2.putPiece h2.putPiece.modChan))

theorem errorIn (h : Carries s t) {r} : Carries s (t.errorIn r) := h.of_parts.modChan
theorem ackIn (h : Carries s t) {r} : Carries s (t.ackIn r) := h.modChan

/-! ### Queue events -/

theorem quotaStep (h : Carries s t) {n} : Carries s (t.quotaStep n) := by
  unfold State.quotaStep
  split
  · rename_i e1
    refine .ite ((h.quotaProceed.fst e1).finishWait) ?_
    refine .ite ?_ (h.quotaProceed.fst e1)
    dsimp only
    split
    · exact ((h.quotaProceed.fst e1).modChan).chanRun
    · exact h.quotaProceed.fst e1
  · rename_i e2
    exact h.quotaProceed.fst e2

theorem execPushQuotaProceed (h : Carries s t) {ctx} : CarriesOut s (execPushQuotaProceed ctx t) := by
  unfold Machine.execPushQuotaProceed
  refine .ite h ?_
  split
  · exact .ite h h.quotaStep
  · exact h

theorem execCtPushQuota (h : Carries s t) {ctx} : CarriesOut s (execCtPushQuota ctx t) := by
  unfold Machine.execCtPushQuota
  refine .ite h ?_
  split
  · exact .ite h.quotaStep h
  · exact h

theorem channelTurn (h : Carries s t) {n k} : Carries s (t.channelTurn n k) := by
  unfold State.channelTurn
  split
  next e _ =>
    have hread : Carries s (t.readCars none e).1 := h.readCars
    have htaken := (hread.modCtx (n := n) (f := fun c => { c with cons := c.cons.drop 1 })).takeHead (n := n) (e := (t.readCars none e).2.1)
    exact chanRun (modChan (.ite htaken.modCtx htaken))
  next => exact h

theorem execQueueHeadServe (h : Carries s t) {ctx} : CarriesOut s (execQueueHeadServe ctx t) := by
  unfold Machine.execQueueHeadServe
  dsimp only
  refine .ite h ?_
  split
  · refine .ite h.channelTurn ?_
    split
    next p hp =>
      have hserved := h.consumerTurn hp
      exact hserved.modCtx.finishWait
    next => exact h.stallPop
  · exact h

/-! ### Seal -/

theorem ckeWrite (h : Carries s t) {base bytes} : Carries s (t.ckeWrite base bytes) := h.foldl fun hu => hu.addReq
theorem ckeSend (h : Carries s t) {pos bytes} : Carries s (t.ckeSend pos bytes) := h.ckeWrite
theorem ckeRead (h : Carries s t) {what base n} : Carries s (t.ckeRead what base n) := h.of_parts.foldl fun hu => hu.addReq
theorem ckeDrop (h : Carries s t) : Carries s t.ckeDrop := h.of_parts
theorem blocksFree (h : Carries s t) : Carries s t.blocksFree := h.flushWaiting.flushWaiting.allChans fun hu => hu.chanFlush.chanRun
theorem stopEnded (h : Carries s t) : Carries s t.stopEnded := ((((Carries.ite h.ctTicket h).dueRollbacks).barrierEnds).retryStores).retryStores

theorem ckeFail (h : Carries s t) {err} : Carries s (t.ckeFail err) :=
  (Carries.ite h.setRf.setRf.raise.ckeDrop.of_parts.stopEnded h.setRf.setRf.raise.ckeDrop.of_parts).blocksFree

theorem ckeData (h : Carries s t) {r u} : Carries s (t.ckeData r u) := by
  unfold State.ckeData
  split
  · exact .ite h.of_parts h
  · exact h

theorem ckeAck (h : Carries s t) : Carries s t.ckeAck := .ite h.of_parts.ckeSend h

/-! ### Fabric -/

theorem arrive {f : State → State} (h : Carries s t) {ch} (hf : ∀ {u}, Carries s u → Carries s (f u)) : Carries s (t.arrive ch f) :=
  .ite h (.ite (hf h).freeRx (hf h))

theorem ckeError (h : Carries s t) : Carries s t.ckeError := .ite h.ckeFail (.ite h.of_parts.ckeDrop h)
theorem ackOf (h : Carries s t) {r} : Carries s (t.ackOf r) := .ite h.ckeAck h.ackIn
theorem errorOf (h : Carries s t) {r} : Carries s (t.errorOf r) := .ite h.ckeError h.errorIn
theorem dataOf (h : Carries s t) {r u} : Carries s (t.dataOf r u) := .ite h.ckeData h.dataIn
theorem badTag (h : Carries s t) : Carries s t.badTag := h.incRf

theorem onReadData (h : Carries s t) {tag status u} : Carries s (State.onReadData tag status u t) := by
  unfold State.onReadData
  split
  · exact h.badTag
  next r _ =>
    have hfree := h.modFab (f := { t.fab with reads := t.fab.reads.filter fun q => q.tag ≠ r.tag }) (·.filter _) id
    refine .ite hfree.incRf (.ite (Carries.perf (Carries.dataOf ?_)) hfree.errorOf)
    exact .ite hfree.fault hfree

theorem onWriteAck (h : Carries s t) {tag status} : Carries s (State.onWriteAck tag status t) := by
  unfold State.onWriteAck
  split
  · exact h.badTag
  next r _ =>
    have hfree := h.modFab (f := { t.fab with writes := t.fab.writes.filter fun q => q.tag ≠ r.tag }) id (·.filter _)
    exact .ite hfree.incRf (.ite hfree.ackOf hfree.errorOf)

theorem execReadData (h : Carries s t) {tag status u} : CarriesOut s (execReadData tag status u t) := h.arrive fun hu => hu.onReadData
theorem execWriteAck (h : Carries s t) {tag status} : CarriesOut s (execWriteAck tag status t) := h.arrive fun hu => hu.onWriteAck

theorem execFabricRequestTimeout (h : Carries s t) {isWrite tag} : CarriesOut s (execFabricRequestTimeout isWrite tag t) := by
  unfold Machine.execFabricRequestTimeout
  dsimp only
  refine .ite h ?_
  split
  · exact h
  next r _ =>
    have hkill : ∀ q : Req, (if q.tag = r.tag then { q with dead := true } else q).tag = q.tag := fun q => by split <;> rfl
    have hwrites : Carries s { t with fab := { t.fab with writes := t.fab.writes.map fun q => if q.tag = r.tag then { q with dead := true } else q } } :=
      h.modFab id fun hl => hl.map hkill
    have hreads : Carries s { t with fab := { t.fab with reads := t.fab.reads.map fun q => if q.tag = r.tag then { q with dead := true } else q } } :=
      h.modFab (fun hl => hl.map hkill) id
    exact errorOf (.ite hwrites hreads)

theorem rejectEntry (h : Carries s t) {n e} : Carries s (t.rejectEntry n e) := (h.modCtx fun _ => by exact List.filter_sublist).raise

theorem fabDown (h : Carries s t) {ch} : Carries s (t.fabDown ch) := by
  refine .ite h (foldl (foldl ?_ fun h => h.errorOf) fun h => h.rejectEntry)
  exact modFab (t := { ((((t.setRf 0x388 7 4 ch).setRf 0x388 1 1 1).setRf 0x388 0 0 0).raise evFabricDown) with pins := _ })
    h.setRf.setRf.setRf.raise.of_parts (fun _ => TagsWf.nil) fun _ => TagsWf.nil

theorem execLinkAck (h : Carries s t) {ch seq} : CarriesOut s (execLinkAck ch seq t) := .ite h.modLink.pumpLink h

theorem execLinkNak (h : Carries s t) {ch seq} : CarriesOut s (execLinkNak ch seq t) := by
  unfold Machine.execLinkNak
  extract_lets c s1 l s2
  have h1 : Carries s s1 := h.modLink
  have h2 : Carries s s2 := .ite h1 h1.incRf
  exact .ite (.ite h2.fabDown h2.pumpLink) h

theorem execLinkCredit (h : Carries s t) {ch} : CarriesOut s (execLinkCredit ch t) := .ite (.ite h.setRf h.modLink.pumpLink) h

theorem placeFlit (h : Carries s t) {m} : Carries s (t.placeFlit m) := by
  unfold State.placeFlit
  extract_lets n k ok __src s1 put __src1 s2 __src2 s3
  have h1 : Carries s s1 := .ite h h.of_parts
  have h2 : Carries s s2 := h1.of_parts
  have h3 : Carries s s3 := h1.of_parts
  split
  · exact h2
  · exact (Carries.ite h3.hold h3.incRf).send

theorem drainTw (h : Carries s t) {k} : Carries s (drainTw k t) := by
  induction k generalizing t with
  | zero => exact h
  | succ k ih =>
    unfold Machine.drainTw
    split
    next m _ => exact ih (placeFlit (t := { t with fab := { t.fab with twbuf := t.fab.twbuf.erase m } }) h.of_parts).freeRx
    next => exact h

theorem notePoisonMsg (h : Carries s t) {m} : Carries s (t.notePoisonMsg m) := .ite h.fault h

theorem onQmsg (h : Carries s t) {m} : Carries s (State.onQmsg m t) :=
  .ite h.incRf.freeRx (.ite h ((of_parts (t := t.notePoisonMsg m) h.notePoisonMsg).drainTw))

theorem onQmsgAck (h : Carries s t) {n tkt status} : Carries s (State.onQmsgAck n tkt status t) := by
  unfold State.onQmsgAck
  split
  · exact h.badTag
  · exact .ite (h.modCtx fun _ => by exact List.filter_sublist) h.rejectEntry

theorem onQmsgCredit (h : Carries s t) {n cars} : Carries s (State.onQmsgCredit n cars t) := .ite h.modCtx h.badTag
theorem execQmsg (h : Carries s t) {m} : CarriesOut s (execQmsg m t) := .ite h.onQmsg h

theorem execQmsgAck (h : Carries s t) {sctx ticket status place} : CarriesOut s (execQmsgAck sctx ticket status place t) :=
  h.arrive fun hu => hu.onQmsgAck

theorem execQmsgCredit (h : Carries s t) {sctx cars place} : CarriesOut s (execQmsgCredit sctx cars place t) := h.arrive fun hu => hu.onQmsgCredit

/-! ### Consists -/

theorem openConsist (h : Carries s t) {st} : Carries s (t.openConsist st).1 := h.setRf.modCsu.pair

theorem resumeCbegin (h : Carries s t) {st} : Carries s (t.resumeCbegin st) := by
  unfold State.resumeCbegin
  split
  · split
    · exact h.openConsist.finishWait
    · exact h
  · exact h

theorem outcome (h : Carries s t) {st committed} : Carries s (t.outcome st committed) := by
  unfold State.outcome
  extract_lets c free __src s1 s2 s3
  have h1 : Carries s s1 := h.modCsu
  have h2 : Carries s s2 := .ite h1.of_parts h1
  have h3 : Carries s s3 := .ite h2.enginePush h2
  split
  · split
    · exact h3.finishWait
    · exact h3.resumeCbegin
  · exact h3

theorem releaseHeld (h : Carries s t) {h'} : Carries s (t.releaseHeld h') := by
  unfold State.releaseHeld
  split
  · exact h.modChan.addReq
  · exact h.enginePushT

theorem endDoomed (h : Carries s t) {st} : Carries s (t.endDoomed st) := .ite h.outcome h.modCsu
theorem commitNow (h : Carries s t) {st} : Carries s (t.commitNow st) := ((h.modCsu.foldl fun hu => hu.releaseHeld).flushWaiting).outcome
theorem hurryAll (h : Carries s t) {st} : Carries s (t.hurryAll st) := h.foldl fun hu => hu.hurry

theorem modRound (h : Carries s t) {vg tick f} : Carries s (t.modRound vg tick f) :=
  of_parts (t := if (t.round vg tick).isSome then t else { t with rounds := t.rounds ++ [⟨vg, tick, 0, 0, true, false, 0, none, [], false, none⟩] })
    (.ite h h.of_parts)

theorem tellChildren (h : Carries s t) {vg tick commit reason} : Carries s (t.tellChildren vg tick commit reason) := h.foldl fun hu => .ite hu.send hu
theorem rootDecide (h : Carries s t) {r complete} : Carries s (t.rootDecide r complete) := h.modRound.tellChildren

theorem roundFull (h : Carries s t) {vg tick} : Carries s (t.roundFull vg tick) := by
  unfold State.roundFull
  split
  · exact h
  · exact .ite h (.ite h.rootDecide (.ite h (.ite h.rootDecide h.of_parts.modRound.send)))

theorem rootGuard (h : Carries s t) {vg tick} : Carries s (t.rootGuard vg tick) := by
  unfold State.rootGuard
  refine .ite h ?_
  split
  · exact .ite h h.rootDecide
  · exact h

theorem enterVote (h : Carries s t) {st} : Carries s (t.enterVote st) := h.rootGuard.modRound.modCsu.roundFull
theorem pruneRounds (h : Carries s t) : Carries s t.pruneRounds := h.of_parts

theorem applyDecision (h : Carries s t) {st commit reason} : Carries s (t.applyDecision st commit reason) := by
  unfold State.applyDecision
  extract_lets c s1 s2 code why detail s3 s4 s5 s6
  have h1 : Carries s s1 := .ite h.setRf h
  have h2 : Carries s s2 := h1.setRf
  have h3 : Carries s s3 := h2.modCsu
  have h4 : Carries s s4 := .ite h3.raise h3
  have h5 : Carries s s5 := .ite h4.lastAbort.endDoomed h4.rollBack
  have h6 : Carries s s6 := h5.deferHalt
  exact .ite h2.commitNow (.ite (.ite h6.deferHalt h6) h5)

theorem runCbegin (h : Carries s t) {st c} : CarriesRes s (runCbegin t st c) := by
  unfold Machine.runCbegin
  dsimp only
  split
  · exact h.openConsist
  · exact h

theorem outWait (h : Carries s t) {st c code} : CarriesRes s (outWait t st c code) := by
  unfold Machine.outWait
  dsimp only
  split
  · exact h
  · split <;> exact h

theorem runCcommit (h : Carries s t) {st c} : CarriesRes s (runCcommit t st c) := by
  unfold Machine.runCcommit
  extract_lets dl k tg s1 s2
  have h1 : Carries s s1 := .ite h.lateMark h
  have h2 : Carries s s2 := h1.modCsu
  split
  · exact trivial
  · split
    · exact h1.modCsu.endDoomed.outWait
    · exact h2.hurryAll.outWait

theorem runCvote (h : Carries s t) {st c} : CarriesRes s (runCvote t st c) := by
  unfold Machine.runCvote
  split
  · exact trivial
  · exact (Carries.ite h.lateMark.modCsu.enterVote h.lateMark.modCsu.hurryAll).outWait

theorem endExplicit (h : Carries s t) {st detail} : Carries s (t.endExplicit st detail) := by
  unfold State.endExplicit
  dsimp only
  split
  · exact h.endDoomed
  · exact (Carries.ite h h.modCsu).rollBackDue
  · exact h

theorem resetConsist (h : Carries s t) {st} : Carries s (t.resetConsist st) := by
  unfold State.resetConsist
  dsimp only
  split
  · exact (Carries.ite (.ite h.setRf.replaceVote h.setRf) ((Carries.ite h.setRf.replaceVote h.setRf).modCsu)).rollBackDue
  · exact h.endExplicit

theorem runCabort (h : Carries s t) {st c} : CarriesRes s (runCabort t st c) := h.modCsu.endExplicit
theorem cbeginSem_carrying : cbeginSem.Carrying := of_run fun h => h.runCbegin
theorem ccommitSem_carrying : ccommitSem.Carrying := of_run fun h => h.runCcommit
theorem cvoteSem_carrying : cvoteSem.Carrying := of_run fun h => h.runCvote
theorem cabortSem_carrying : cabortSem.Carrying := of_run fun h => h.runCabort
theorem execCbegin (h : Carries s t) {st c} : CarriesOut s (execCbegin st c t) := h.issueRow cbeginSem_carrying
theorem execCcommit (h : Carries s t) {st c} : CarriesOut s (execCcommit st c t) := h.issueRow ccommitSem_carrying
theorem execCvote (h : Carries s t) {st c} : CarriesOut s (execCvote st c t) := h.issueRow cvoteSem_carrying
theorem execCabort (h : Carries s t) {st c} : CarriesOut s (execCabort st c t) := h.issueRow cabortSem_carrying
theorem execCommitPoint (h : Carries s t) {st} : CarriesOut s (execCommitPoint st t) := .ite h.abort (.ite h.commitNow h)
theorem execDeadline (h : Carries s t) {st} : CarriesOut s (execDeadline st t) := .ite h.abort h
theorem execVoteSend (h : Carries s t) {vg} : CarriesOut s (execVoteSend vg t) := h.foldl fun hu => .ite hu.enterVote hu

theorem execRootGuardDecide (h : Carries s t) {vg} : CarriesOut s (execRootGuardDecide vg t) := by
  unfold Machine.execRootGuardDecide
  split
  · exact .ite h.modRound.rootGuard h
  · exact h

theorem execDecisionApply (h : Carries s t) {st} : CarriesOut s (execDecisionApply st t) := by
  unfold Machine.execDecisionApply
  dsimp only
  split
  · exact .ite h.applyDecision.pruneRounds (.ite h.hurryAll h)
  · exact h

theorem execConsistVoteLost (h : Carries s t) {st} : CarriesOut s (execConsistVoteLost st t) := .ite h.setRf.raise h
theorem execCkptStall (h : Carries s t) {st} : CarriesOut s (execCkptStall st t) := .ite h.abort h
theorem execRollbackComplete (h : Carries s t) {st} : CarriesOut s (execRollbackComplete st t) := .ite h.outcome h

theorem onVote (h : Carries s t) {m} : Carries s (State.onVote m t) := by
  unfold State.onVote
  extract_lets vg s1
  have h1 : Carries s s1 := .ite h.rootGuard h
  exact .ite h1.incRf (.ite h1.incRf h1.modRound.roundFull)

theorem onDecision (h : Carries s t) {m} : Carries s (State.onDecision m t) :=
  .ite h.incRf ((h.modRound.tellChildren.foldl fun hu => .ite hu.applyDecision hu).pruneRounds)

theorem execVote (h : Carries s t) {m} : CarriesOut s (execVote m t) := h.arrive fun hu => hu.onVote
theorem execDecision (h : Carries s t) {m} : CarriesOut s (execDecision m t) := h.arrive fun hu => hu.onDecision

/-! ### Instruction memory -/

theorem deny (h : Carries s t) : Carries s t.deny := h.setRf
theorem entriesFrom (h : Carries s t) {bank} : Carries s (t.entriesFrom bank) := h.setRf.setRf
theorem haltB (h : Carries s t) {st reason detail} : Carries s (t.haltB st reason detail) := h.takeHalt

theorem takeSwitch (h : Carries s t) {st} : Carries s (t.takeSwitch st) := by
  unfold State.takeSwitch
  have hset : Carries s (State.settleSwitch (t.modStr st fun x =>
      { x with swPend := false, loops := [], pc := BitVec.ofNat 17 (t.bankEntry t.runBank st), stall := none })) := h.modStr_nil.settleSwitch
  dsimp only
  split
  exacts [hset, hset.haltB, hset]

theorem switchEvent (h : Carries s t) : Carries s t.switchEvent.1 := by
  unfold State.switchEvent
  extract_lets idle s1 s2
  have h1 : Carries s s1 := h.setRf.entriesFrom
  have h5 : Carries s s2 := by
    refine h1.foldl ?_
    intro x y hu
    split
    · exact hu.modStr
    · exact hu.modStr
    · exact hu.takeSwitch
    · exact hu
  split
  · exact h.setRf
  · split
    · exact h.setRf
    · exact h5.settleSwitch

theorem execStreamTakesSwitch (h : Carries s t) {st} : CarriesOut s (execStreamTakesSwitch st t) := .ite h.takeSwitch h
theorem hostSwitch (h : Carries s t) : Carries s t.hostSwitch := .ite h.setRf.entriesFrom h.setRf
theorem haddrWrite (h : Carries s t) {v} : Carries s (t.haddrWrite v) := h.setRf.setRf.wr.wr.wr

theorem htagWrite (h : Carries s t) {v} : Carries s (t.htagWrite v) :=
  .ite h.wr.setRf (.ite h.wr.deny (h.wr.modImem (twf_tset _ _ _ _)).setRf)

theorem execImemEccWriteback (h : Carries s t) {bank row} : CarriesOut s (execImemEccWriteback bank row t) := .ite h.of_parts h
theorem execSpmEccWriteback (h : Carries s t) {addr} : CarriesOut s (execSpmEccWriteback addr t) := .ite h.of_parts h

/-! ### Stream control -/

theorem ignore (h : Carries s t) {st} : Carries s (t.ignore st) := h.setRf

theorem rngPos (h : Carries s t) {a} : Carries s (t.rngPos a).1 := by
  unfold State.rngPos
  split
  · exact h.noteUncorr.freeWord
  · exact h.touchView

theorem rngSkew (h : Carries s t) : Carries s t.rngSkew.1 :=
  foldl_fst (p := (t, false)) h fun {q n} hq => by
    obtain ⟨u, skew⟩ := q
    dsimp only
    split
    · exact hq
    · exact hq.rngPos

theorem startChecks (h : Carries s t) {st needValid} : Carries s (t.startChecks st needValid) := by
  unfold State.startChecks
  split
  · exact h.haltB
  · split
    · have hskew : Carries s { t.rngSkew.1 with cke := { t.rngSkew.1.cke with rngCheck := false } } := h.rngSkew.of_parts
      exact .ite hskew.haltB hskew
    · exact h

theorem startStream (h : Carries s t) {st} : Carries s (t.startStream st).1 := by
  unfold State.startStream
  split
  · exact .ite_fst h.ignore.pair (startChecks h.modStr_nil).pair
  · exact .ite_fst h.ignore.pair h.modStr.startChecks.pair
  · exact h.ignore.pair

theorem stopStream (h : Carries s t) {st} : Carries s (t.stopStream st) := by
  unfold State.stopStream
  split
  · exact h.modStr
  · exact h.ignore

theorem haltStream (h : Carries s t) {st} : Carries s (t.haltStream st) := by
  unfold State.haltStream
  split
  · exact h.modStr
  · exact h.modStr
  · exact h.haltB
  · exact h.ignore

theorem dropRing (h : Carries s t) {ch} : Carries s (t.dropRing ch) := h.modCtx fun _ => by exact List.nil_sublist _
theorem abandonDma (h : Carries s t) : Carries s t.abandonDma := h.dropChanWaits.allChans fun hu => hu.of_parts.foldl fun hv => hv.modChan
theorem dropBlocked (h : Carries s t) {st} : Carries s (t.dropBlocked st) := .ite h h.modCsu

theorem resetStream (h : Carries s t) {st} : Carries s (t.resetStream st) := by
  unfold State.resetStream
  split
  · exact h.ignore
  · extract_lets s1 s2 s3 __src __src1
    have h1 : Carries s s1 := h.withdraw.modStr
    have h2 : Carries s s2 := h1.settleSwitch
    have h3 : Carries s s3 := h2.resetConsist.dropBlocked
    split
    · exact h3.abandonDma.allChans fun hu => hu.dropRing
    · exact h3.of_parts

theorem clearHalt (h : Carries s t) {st} : Carries s (t.clearHalt st) := h.setRf.setRf.setRf.setRf
theorem drainStores (h : Carries s t) {st} : Carries s (t.drainStores st) := h.foldl fun hu => .ite hu hu.writePairs

theorem execStreamResetDone (h : Carries s t) {st} : CarriesOut s (execStreamResetDone st t) := by
  unfold Machine.execStreamResetDone
  dsimp only
  split
  · have hreset : Carries s ((t.drainStores st).modStr st fun _ => Stream.reset) := h.drainStores.modStr_nil
    cases st with
    | a => exact hreset.clearHalt
    | x => exact Carries.clearHalt (hreset.of_parts)
  · exact h

theorem execStrmStart (h : Carries s t) {st} : CarriesOut s (execStrmStart st t) := h.atHost fun hu => hu.startStream
theorem execStrmStop (h : Carries s t) {st} : CarriesOut s (execStrmStop st t) := h.atHost fun hu => hu.stopStream
theorem execStrmHalt (h : Carries s t) {st} : CarriesOut s (execStrmHalt st t) := h.atHost fun hu => hu.haltStream
theorem execStrmReset (h : Carries s t) {st} : CarriesOut s (execStrmReset st t) := h.atHost fun hu => hu.resetStream

theorem execStopBoundary (h : Carries s t) {st} : CarriesOut s (execStopBoundary st t) :=
  .ite (.ite h.haltB (.ite ((Carries.ite h.takeSwitch h).modStr) (.ite h.takeSwitch h))) h

theorem execHostHalt (h : Carries s t) {st} : CarriesOut s (execHostHalt st t) := .ite h.haltB h
theorem execCohalt (h : Carries s t) {st} : CarriesOut s (execCohalt st t) := .ite h.takeHalt h

/-! ### Posts -/

theorem postPut (h : Carries s t) {n v ev} : Carries s (t.postPut n v ev) := .ite h.setRf.setRf.setRf.setRf.raise h.setRf.setRf.setRf.setRf

theorem runPost (h : Carries s t) {st c lw} : CarriesRes s (runPost t st c lw) := by
  unfold Machine.runPost
  dsimp only
  split
  · split
    exacts [h, h.postPut]
  · split
    · exact trivial
    · split
      · exact h.noteUncorr.abortIf.noteHalt
      · split
        exacts [h.touchView, h.touchView.postPut]

theorem postSem_carrying : postSem.Carrying := of_run fun h => h.runPost
theorem execPost (h : Carries s t) {st c} : CarriesOut s (execPost st c t) := h.issueRow postSem_carrying

theorem execPostResume (h : Carries s t) {st} : CarriesOut s (execPostResume st t) := by
  unfold Machine.execPostResume
  refine .ite h ?_
  split
  · split
    · exact .ite h h.postPut.finishWait
    · exact h
  · exact h

theorem postAckWrite (h : Carries s t) {v} : Carries s (t.postAckWrite v) := .ite h.setRf h.incRf

theorem execPostSlotRead (h : Carries s t) {n parityErr} : CarriesOut s (execPostSlotRead n parityErr t) :=
  h.atHost fun hu => .ite hu.fault.raiseCause.setRf hu

/-! ### Barriers -/

theorem releaseRound (h : Carries s t) {n} : Carries s (t.releaseRound n) := ((h.foldl fun hu => .ite hu.send hu).modBar).barrierEnds

theorem barCheck (h : Carries s t) {n k} : Carries s (barCheck n k t) := by
  induction k generalizing t with
  | zero => exact h
  | succ k ih => exact .ite h (.ite h.modBar.send (ih h.releaseRound))

theorem barFull (h : Carries s t) {n} : Carries s (t.barFull n) := h.barCheck

theorem barrWait (h : Carries s t) {n g} : CarriesRes s (barrWait t n g) := by
  unfold Machine.barrWait
  split
  · exact h
  · exact h

theorem runBarr (h : Carries s t) {st c} : CarriesRes s (runBarr t st c) := by
  unfold Machine.runBarr
  extract_lets n b g s1
  have h1 : Carries s s1 := h.modBar
  split
  · split
    · exact h1.barrWait
    · exact h1
  · split
    · exact h.barrWait
    · exact h

theorem barrSem_carrying : barrSem.Carrying := of_run fun h => h.runBarr
theorem execBarr (h : Carries s t) {st c} : CarriesOut s (execBarr st c t) := h.issueRow barrSem_carrying

theorem execBarrierEntryCount (h : Carries s t) {bar} : CarriesOut s (execBarrierEntryCount bar t) := by
  unfold Machine.execBarrierEntryCount
  dsimp only
  split
  · exact h.modBar.barFull
  · exact h

theorem barFault (h : Carries s t) : Carries s t.barFault := h.incRf.raise
theorem onArrive (h : Carries s t) {m} : Carries s (t.onArrive m) := .ite h (.ite h.incRf (.ite h.modBar.barFull h.barFault))
theorem onRelease (h : Carries s t) {m} : Carries s (t.onRelease m) := .ite h (.ite h.incRf (.ite h.releaseRound.barFull h.barFault))
theorem execArrive (h : Carries s t) {m} : CarriesOut s (execArrive m t) := h.arrive fun hu => hu.onArrive
theorem execRelease (h : Carries s t) {m} : CarriesOut s (execRelease m t) := h.arrive fun hu => hu.onRelease

theorem barWrite (h : Carries s t) {w1 v} : Carries s (t.barWrite w1 v) := by
  unfold State.barWrite
  extract_lets i refuse b w __src __src1
  have h1 : Carries s refuse := h.setRf
  refine .ite (.ite h1 (.ite h.modBar (.ite h1 (.ite h.modBar h.modBar)))) ?_
  exact .ite (.ite h1 (.ite h h.of_parts)) h

end Sys2Proof.Machine.Carries
end

section
/-!
PROOFS. What the invariants of O5 and O6 claim carries over: the engines and their beats.
-/

namespace Sys2Proof.Machine.Carries

set_option Elab.async false

variable {s t u : State}

/-! ### Matrix array -/

theorem setFeed (h : Carries s t) {north n f} : Carries s (t.setFeed north n f) := .ite h.of_parts h.of_parts

theorem runTtf (h : Carries s t) {st c} : CarriesRes s (runTtf t st c) := by
  unfold Machine.runTtf
  dsimp only
  split
  · exact trivial
  · exact h.bindCheck.setFeed

theorem ttfSem_carrying : ttfSem.Carrying := of_run fun h => h.runTtf
theorem execTtf (h : Carries s t) {st c} : CarriesOut s (execTtf st c t) := h.issueRow ttfSem_carrying

theorem runMxp (h : Carries s t) {st c} : CarriesRes s (runMxp t st c) := by
  unfold Machine.runMxp
  dsimp only
  split
  · exact trivial
  · exact of_parts (t := (t.bindCheck (c.f 16 10)).1) h.bindCheck

theorem mxpSem_carrying : mxpSem.Carrying := of_run fun h => h.runMxp
theorem execMxp (h : Carries s t) {st c} : CarriesOut s (execMxp st c t) := h.issueRow mxpSem_carrying
theorem edgeParity (h : Carries s t) {north tag lane} : Carries s (t.edgeParity north tag lane) := h.fault.wearLive.raise

theorem makeTile (h : Carries s t) {north f lim bufErr laneErr} : Carries s (t.makeTile north f lim bufErr laneErr).1 := by
  unfold State.makeTile
  split
  · exact h
  · extract_lets t1 s1 nan f1 s2 s3 s4 done s5 f2
    have h1 : Carries s s1 := h.touchWords
    have h2 : Carries s s2 := .ite h1.merge h1
    have h3 : Carries s s3 := .ite h2.freeWord.fault.raise h2
    have h7 : Carries s s4 := h3.foldl fun hu => hu.edgeParity
    have h8 : Carries s s5 := .ite h7.ctTicket h7
    split
    · exact h8.spmHalt
    · exact h8

theorem execTileReady (h : Carries s t) {north feed bufErr laneErr} : CarriesOut s (execTileReady north feed bufErr laneErr t) := by
  unfold Machine.execTileReady
  dsimp only
  refine .ite h ?_
  split
  · split
    · exact Carries.of_parts h.makeTile
    · exact h
  · split
    · exact .ite h (Carries.setFeed h.makeTile)
    · exact h

theorem takeFeed (h : Carries s t) {p north} : Carries s (t.takeFeed p north).1 := by
  unfold State.takeFeed
  dsimp only
  split
  · exact .ite h.setFeed.ctTicket h.setFeed
  · exact h

theorem loadInit (h : Carries s t) {p l} : Carries s (t.loadInit p l).1 := h.of_parts

theorem execPassBegin (h : Carries s t) {region} : CarriesOut s (execPassBegin region t) := by
  unfold Machine.execPassBegin
  dsimp only
  split
  · exact h
  split
  · exact h
  next p _ =>
    refine .ite h ?_
    generalize List.findSome? _ _ = bad
    cases bad with
    | none => exact modArr (loadInit (takeFeed (takeFeed h.touchWords)))
    | some a => exact spmHalt (modArr (loadInit (takeFeed (takeFeed h.touchWords))))

theorem residueErr (h : Carries s t) {tag row col} : Carries s (t.residueErr tag row col) := h.fault.wearLive.raise

theorem mismatch (h : Carries s t) {tag isCol k at' trial} : Carries s (t.mismatch tag isCol k at' trial) :=
  (Carries.ite h.freeWord.fault.raise h.freeWord.fault.raise.wearOutrider.wearLive).abort

theorem cellFault (h : Carries s t) {p sr sc f} : Carries s (t.cellFault p sr sc f).1 := by
  unfold State.cellFault
  split
  · split
    · exact h.residueErr
    · exact h
  · split
    · exact h.mismatch
    · exact h
  · split
    · exact h.mismatch
    · exact h

theorem execFtqEntryVisible (h : Carries s t) {region faults} : CarriesOut s (execFtqEntryVisible region faults t) := by
  unfold Machine.execFtqEntryVisible
  dsimp only
  split
  · exact h
  split
  · exact h
  split
  · exact h
  next p _ _ sr sc _ =>
    have hmarks : ∀ {own : List ((Nat × Nat) × Drained)} {z}, Carries s (faults.foldl (fun (a : State × Bool × Bool) f =>
        ((a.1.cellFault p sr sc f).1, a.2.1 || (a.1.cellFault p sr sc f).2.1, a.2.2 || (a.1.cellFault p sr sc f).2.2))
        (own.foldl (fun s x => s.residueErr p.c.tag (regRow0 (mxpPack p.c) (mxpRegion p.c) + x.1.1) (regCol0 (mxpPack p.c) (mxpRegion p.c) + x.1.2)) t,
          z)).1 :=
      foldl_fst (h.foldl fun h => h.residueErr) fun hq => hq.cellFault
    exact .ite h (.ite (.ite hmarks.modArr.merge.perf.ctTicket hmarks.modArr.merge.perf) hmarks.modArr.merge)

/-! ### Trackers -/

theorem stkMerge (h : Carries s t) {n v} : Carries s (t.stkMerge n v) := .ite (.ite h.modTrk.raise h.modTrk) h.modTrk

theorem stkAct (h : Carries s t) {st c n v} : Carries s (t.stkAct st c n v).1 := by
  unfold State.stkAct
  extract_lets s1 bound d bs mask
  have h1 : Carries s s1 := h.trkParity
  split
  · exact h1.modTrk
  · exact h1.modTrk
  · exact .ite h1.modTrk h1.unboundUse
  · exact .ite h1.stkMerge h1.unboundUse
  · exact h1.modTrk
  · split
    · exact h1
    · exact h1.writePairs
  · split
    · exact h1.modTrk
    · exact h1.unboundUse

theorem stallStk (h : Carries s t) {st c} : Carries s (t.stallStk st c) := by
  unfold State.stallStk
  split
  · exact h.stallOn
  · exact h

theorem runStk (h : Carries s t) {st c lw} : CarriesRes s (runStk t st c lw) := by
  unfold Machine.runStk
  dsimp only
  split
  · split
    exacts [h.stallStk, h.stkAct]
  · split
    · exact trivial
    · split
      · exact h.noteUncorr.abortIf.noteHalt
      · split
        exacts [h.touchView.stallStk, h.touchView.stkAct]

theorem stkSem_carrying : stkSem.Carrying := of_run fun h => h.runStk
theorem execStkbind (h : Carries s t) {st c} : CarriesOut s (execStkbind st c t) := h.issueRow stkSem_carrying
theorem execStkfree (h : Carries s t) {st c} : CarriesOut s (execStkfree st c t) := h.issueRow stkSem_carrying
theorem execStkadv (h : Carries s t) {st c} : CarriesOut s (execStkadv st c t) := h.issueRow stkSem_carrying
theorem execStkmrg (h : Carries s t) {st c} : CarriesOut s (execStkmrg st c t) := h.issueRow stkSem_carrying
theorem execStkset (h : Carries s t) {st c} : CarriesOut s (execStkset st c t) := h.issueRow stkSem_carrying
theorem execStkrd (h : Carries s t) {st c} : CarriesOut s (execStkrd st c t) := h.issueRow stkSem_carrying
theorem execStkclr (h : Carries s t) {st c} : CarriesOut s (execStkclr st c t) := h.issueRow stkSem_carrying

theorem execStkMergesDone (h : Carries s t) : CarriesOut s (execStkMergesDone t) := by
  unfold Machine.execStkMergesDone
  split
  · split
    · exact .ite h (.ite h.stallStk h.stkAct.finishWait)
    · exact h
  · exact h

/-! ### Vector commands -/

theorem veMem (h : Carries s t) {st c lw} : Carries s (t.veMem st c lw).1 := (Carries.ite h.trkParity h).bindCheck
theorem pushWork (h : Carries s t) {st mems} : Carries s (t.pushWork st mems) := h.of_parts

theorem runVec (h : Carries s t) {st c lw} : CarriesRes s (runVec t st c lw) := by
  unfold Machine.runVec
  split
  · exact trivial
  · exact pushWork (t := (t.veMem st c (t.here st)).1) h.veMem

theorem vecSem_carrying : vecSem.Carrying := of_run (m := vecSem) fun {_ _ _ _ lw} h => h.runVec (lw := lw)
theorem runVsetl (h : Carries s t) {st c} : CarriesRes s (runVsetl t st c) := .ite h.of_parts.setReg h.of_parts
theorem vsetlSem_carrying : vsetlSem.Carrying := of_run fun h => h.runVsetl

theorem runVchain (h : Carries s t) {st c ms} : CarriesRes s (runVchain t st c ms) := by
  unfold Machine.runVchain
  dsimp only
  split
  · exact trivial
  · exact (Carries.ite h (Carries.pushWork (foldl_fst (p := (t, [])) h fun {q p} hq => hq.veMem (lw := p.2 % 2 ^ 17 + q.1.bankOf st * 2 ^ 17)))).modStr

theorem vchainSem_carrying {ms bad} : (vchainSem ms bad).Carrying := of_run (m := vchainSem ms bad) fun h => h.runVchain
theorem execVadd (h : Carries s t) {st c} : CarriesOut s (execVadd st c t) := h.issueRow vecSem_carrying
theorem execVsub (h : Carries s t) {st c} : CarriesOut s (execVsub st c t) := h.issueRow vecSem_carrying
theorem execVmul (h : Carries s t) {st c} : CarriesOut s (execVmul st c t) := h.issueRow vecSem_carrying
theorem execVmin (h : Carries s t) {st c} : CarriesOut s (execVmin st c t) := h.issueRow vecSem_carrying
theorem execVmax (h : Carries s t) {st c} : CarriesOut s (execVmax st c t) := h.issueRow vecSem_carrying
theorem execVabs (h : Carries s t) {st c} : CarriesOut s (execVabs st c t) := h.issueRow vecSem_carrying
theorem execVneg (h : Carries s t) {st c} : CarriesOut s (execVneg st c t) := h.issueRow vecSem_carrying
theorem execVand (h : Carries s t) {st c} : CarriesOut s (execVand st c t) := h.issueRow vecSem_carrying
theorem execVor (h : Carries s t) {st c} : CarriesOut s (execVor st c t) := h.issueRow vecSem_carrying
theorem execVxor (h : Carries s t) {st c} : CarriesOut s (execVxor st c t) := h.issueRow vecSem_carrying
theorem execVnot (h : Carries s t) {st c} : CarriesOut s (execVnot st c t) := h.issueRow vecSem_carrying
theorem execVshl (h : Carries s t) {st c} : CarriesOut s (execVshl st c t) := h.issueRow vecSem_carrying
theorem execVshr (h : Carries s t) {st c} : CarriesOut s (execVshr st c t) := h.issueRow vecSem_carrying
theorem execVshra (h : Carries s t) {st c} : CarriesOut s (execVshra st c t) := h.issueRow vecSem_carrying
theorem execVcmp (h : Carries s t) {st c} : CarriesOut s (execVcmp st c t) := h.issueRow vecSem_carrying
theorem execVsel (h : Carries s t) {st c} : CarriesOut s (execVsel st c t) := h.issueRow vecSem_carrying
theorem execVcvt (h : Carries s t) {st c} : CarriesOut s (execVcvt st c t) := h.issueRow vecSem_carrying
theorem execVmset (h : Carries s t) {st c} : CarriesOut s (execVmset st c t) := h.issueRow vecSem_carrying
theorem execVfma (h : Carries s t) {st c} : CarriesOut s (execVfma st c t) := h.issueRow vecSem_carrying
theorem execVexp2 (h : Carries s t) {st c} : CarriesOut s (execVexp2 st c t) := h.issueRow vecSem_carrying
theorem execVlog2 (h : Carries s t) {st c} : CarriesOut s (execVlog2 st c t) := h.issueRow vecSem_carrying
theorem execVrcp (h : Carries s t) {st c} : CarriesOut s (execVrcp st c t) := h.issueRow vecSem_carrying
theorem execVrsq (h : Carries s t) {st c} : CarriesOut s (execVrsq st c t) := h.issueRow vecSem_carrying
theorem execVq (h : Carries s t) {st c} : CarriesOut s (execVq st c t) := h.issueRow vecSem_carrying
theorem execVdq (h : Carries s t) {st c} : CarriesOut s (execVdq st c t) := h.issueRow vecSem_carrying
theorem execVlxadd (h : Carries s t) {st c} : CarriesOut s (execVlxadd st c t) := h.issueRow vecSem_carrying
theorem execVlxcvt (h : Carries s t) {st c} : CarriesOut s (execVlxcvt st c t) := h.issueRow vecSem_carrying
theorem execVlxf (h : Carries s t) {st c} : CarriesOut s (execVlxf st c t) := h.issueRow vecSem_carrying
theorem execVcprs (h : Carries s t) {st c} : CarriesOut s (execVcprs st c t) := h.issueRow vecSem_carrying
theorem execVexpd (h : Carries s t) {st c} : CarriesOut s (execVexpd st c t) := h.issueRow vecSem_carrying
theorem execRedsum (h : Carries s t) {st c} : CarriesOut s (execRedsum st c t) := h.issueRow vecSem_carrying
theorem execRedmax (h : Carries s t) {st c} : CarriesOut s (execRedmax st c t) := h.issueRow vecSem_carrying
theorem execRedmin (h : Carries s t) {st c} : CarriesOut s (execRedmin st c t) := h.issueRow vecSem_carrying
theorem execRedarg (h : Carries s t) {st c} : CarriesOut s (execRedarg st c t) := h.issueRow vecSem_carrying
theorem execRedcnt (h : Carries s t) {st c} : CarriesOut s (execRedcnt st c t) := h.issueRow vecSem_carrying
theorem execVsetl (h : Carries s t) {st c} : CarriesOut s (execVsetl st c t) := h.issueRow vsetlSem_carrying

theorem execVchain (h : Carries s t) {st c ms} : CarriesOut s (execVchain st c ms t) := h.issueWord fun p hp => by
  rw [List.mem_singleton.mp hp]
  exact vchainSem_carrying

/-! ### Orrery -/

theorem setSched (h : Carries s t) {n x} : Carries s (t.setSched n x) := h.of_parts

theorem runOrb (h : Carries s t) {st c lw} : CarriesRes s (runOrb t st c lw) := by
  unfold Machine.runOrb
  extract_lets t1 n x nd a addrs s1
  have h1 : Carries s s1 := h.setSched
  split
  · split
    · exact trivial
    · split
      · exact h.pushAcc
      · exact h.pushAcc
  · split
    · exact h
    · exact .ite h1.raise h1
  · exact h
  · exact h
  · exact h
  · exact h.setReg
  · exact h.setSched

theorem orbSem_carrying : orbSem.Carrying := of_run fun h => h.runOrb
theorem execOrbLoad (h : Carries s t) {st c} : CarriesOut s (execOrbLoad st c t) := h.issueRow orbSem_carrying
theorem execOrbStep (h : Carries s t) {st c} : CarriesOut s (execOrbStep st c t) := h.issueRow orbSem_carrying
theorem execOrbMult (h : Carries s t) {st c} : CarriesOut s (execOrbMult st c t) := h.issueRow orbSem_carrying
theorem execOrbBias1 (h : Carries s t) {st c} : CarriesOut s (execOrbBias1 st c t) := h.issueRow orbSem_carrying
theorem execOrbBias2 (h : Carries s t) {st c} : CarriesOut s (execOrbBias2 st c t) := h.issueRow orbSem_carrying
theorem execOrbRdstep (h : Carries s t) {st c} : CarriesOut s (execOrbRdstep st c t) := h.issueRow orbSem_carrying
theorem execOrbSetstep (h : Carries s t) {st c} : CarriesOut s (execOrbSetstep st c t) := h.issueRow orbSem_carrying

theorem runRng (h : Carries s t) {st c lw} : CarriesRes s (runRng t st c lw) := by
  unfold Machine.runRng
  dsimp only
  split
  · exact h.pushAcc
  · split
    · exact trivial
    · exact .ite h.of_parts h.of_parts
  · split
    · exact h.of_parts
    · exact h.of_parts

theorem rngSem_carrying : rngSem.Carrying := of_run (m := rngSem) fun {_ _ _ _ lw} h => h.runRng (lw := lw)
theorem execRngkKey (h : Carries s t) {st c} : CarriesOut s (execRngkKey st c t) := h.issueRow rngSem_carrying
theorem execRngkGen (h : Carries s t) {st c} : CarriesOut s (execRngkGen st c t) := h.issueRow rngSem_carrying
theorem execRngkSeq (h : Carries s t) {st c} : CarriesOut s (execRngkSeq st c t) := h.issueRow rngSem_carrying

/-! ### Updates -/

theorem runUpdf (h : Carries s t) {st c lw} : CarriesRes s (runUpdf t st c lw) := by
  unfold Machine.runUpdf
  dsimp only
  split
  · exact trivial
  · split
    · exact trivial
    · split
      · exact h.noteUncorr.abortIf.noteHalt
      · exact h.touchView.bindCheck.of_parts

theorem updfSem_carrying : updfSem.Carrying := of_run fun h => h.runUpdf
theorem execUpdf (h : Carries s t) {st c} : CarriesOut s (execUpdf st c t) := h.issueRow updfSem_carrying

/-! ### Beats -/

theorem countIdle (h : Carries s t) {l} : Carries s (t.countIdle l) := h.foldl fun hu => hu.bankCount.noteAddr
theorem beatRead {b : Beat} (h : Carries s b.s) {c act idle vbad vidle} : Carries s (b.read c act idle vbad vidle).s := h.touchWords

theorem beatLoadVecs {b : Beat} (h : Carries s b.s) {x m} : Carries s (b.loadVecs x m).1.s := by
  unfold Beat.loadVecs
  split
  · exact h
  · exact foldl_beat (p := (b, m)) h fun hq => hq.touchWords

theorem beatSources {b : Beat} (h : Carries s b.s) {x m act es} : Carries s (b.sources x m act es).1.s := h.beatRead

theorem beatPut {b : Beat} (h : Carries s b.s) {x m t act codes} : Carries s (b.put x m t act codes).s := by
  unfold Beat.put
  dsimp only
  split
  · split
    · exact h
    · exact h.writePairs
  · split
    · exact h
    · exact h.writePairs

theorem beatPutBits {b : Beat} (h : Carries s b.s) {x m act bits} : Carries s (b.putBits x m act bits).s := by
  unfold Beat.putBits
  dsimp only
  split
  · exact h.writePairs
  · exact h.of_parts

theorem beatLanes {b : Beat} (h : Carries s b.s) {x m act src} : Carries s (b.lanes x m act src).1.s := h.beatPut
theorem beatBits {b : Beat} (h : Carries s b.s) {x m act src} : Carries s (b.bits x m act src).s := h.beatPutBits

theorem beatCompress {b : Beat} (h : Carries s b.s) {x m act src} : Carries s (b.compress x m act src).1.s := by
  unfold Beat.compress
  dsimp only
  split
  · exact h.beatPut
  · split
    exacts [h, h.writePairs]

theorem beatBlock {b : Beat} (h : Carries s b.s) {x m d r j rows} : Carries s (b.block x m d r j rows).1.s := by
  unfold Beat.block
  split
  · exact h
  · exact h.foldl fun hu => hu.write

theorem beatBlocks {b : Beat} (h : Carries s b.s) {x d flush k e m} : Carries s (Beat.blocks x d flush k e b m).1.s := by
  induction k generalizing e b m with
  | zero => exact h
  | succ k ih => exact .ite_beat h (ih h.beatBlock)

theorem beatQuant {b : Beat} (h : Carries s b.s) {x m act src} : Carries s (b.quant x m act src).1.s := h.beatBlocks
theorem beatGen {b : Beat} (h : Carries s b.s) {x m act} : Carries s (b.gen x m act).s := h.beatPut
theorem rduError (h : Carries s t) {cs tag} : Carries s (t.rduError cs tag) := h.freeWord.setRf.fault.raise.numericTrip

theorem beatSegEnd {b : Beat} (h : Carries s b.s) {x m seg} : Carries s (b.segEnd x m seg).1.s :=
  .ite (.ite h.rduError h) ((Carries.ite h.rduError h).write)

theorem beatSegment {b : Beat} (h : Carries s b.s) {x m act src seg} : Carries s (b.segment x m act src seg).1.s := by
  unfold Beat.segment
  dsimp only
  split
  · split
    · exact h.beatSegEnd
    · exact h
  · split
    · exact h.beatSegEnd
    · exact h

theorem beatReduce {b : Beat} (h : Carries s b.s) {x m act src} : Carries s (b.reduce x m act src).1.s := by
  unfold Beat.reduce
  dsimp only
  generalize (if redSeg m.c = 0 || x.n = 0 then [0] else _ : List Nat) = segs
  have hfold : Carries s (segs.foldl (fun (q : Beat × VeMem) seg => q.1.segment x q.2 act src seg) (b, m)).1.s :=
    foldl_beat (p := (b, m)) h fun hq => hq.beatSegment
  exact .ite_beat hfold hfold

theorem beatMember {b : Beat} (h : Carries s b.s) {x m} : Carries s (Beat.member x b m).s := by
  unfold Beat.member
  refine .ite_s h ?_
  have hload : Carries s (b.loadVecs x m).1.s := h.beatLoadVecs
  dsimp only
  generalize b.loadVecs x m = q at hload ⊢
  generalize (if expShort m _ _ = true then _ else _ : List Bool) = act
  have hsrc : Carries s (q.1.sources x q.2 act (laneElems x m ((upto x.n).map fun i => laneActive b.s x m i))).1.s := hload.beatSources
  generalize q.1.sources x q.2 act _ = r at hsrc ⊢
  refine .ite_s hsrc ?_
  exact .ite_beat hsrc.beatReduce (.ite_beat hsrc.beatGen (.ite_beat hsrc.beatBits (.ite_beat hsrc.beatCompress (.ite_beat hsrc.beatQuant hsrc.beatLanes))))

theorem couplerParity (h : Carries s t) {w lanes} : Carries s (t.couplerParity w lanes) :=
  .ite h ((h.setRf.raise.foldl fun hu => hu.fault.wearParity).numericTrip)

theorem endWork (h : Carries s t) {w outs whole} : Carries s (t.endWork w outs whole) := by
  unfold State.endWork
  extract_lets __src s1
  have h1 : Carries s s1 := h.of_parts
  refine h1.foldl ?_
  intro x y hu
  extract_lets s2 s3 later
  have h5 : Carries s s2 := .ite hu.numcAdd (.ite hu.merge hu)
  have h6 : Carries s s3 := .ite h5.wrRegs h5
  exact .ite h6.ctTicket h6

theorem beatFreeEntry {b : Beat} (h : Carries s b.s) {x m} : Carries s (b.freeEntry x m).1.s := by
  unfold Beat.freeEntry
  extract_lets ops s1 __src
  have h7 : Carries s s1 := by
    refine h.foldl ?_
    intro y z hu
    split
    · exact hu
    · exact (hu.foldl fun hv => hv.write).of_parts
  refine h.foldl ?_
  intro w v hw
  split
  · exact hw
  · exact (hw.foldl fun hx => hx.write).of_parts

theorem beatTakeEntry {b : Beat} (h : Carries s b.s) {x} : Carries s (b.takeEntry x).s := by
  refine foldl_s (b := { b with mems := [] }) h fun {b m} hb => ?_
  exact foldl_beat (p := (b, m)) hb fun hq => hq.beatFreeEntry

theorem veBeat (h : Carries s t) {w kperr} : Carries s (t.veBeat w kperr) := by
  unfold State.veBeat
  have hmembers : Carries s (w.mems.foldl (Beat.member w.ctx)
      { s := t, k := [], rd := [], idle := [], bad := none, short := none, mems := [], outs := [] }).s :=
    foldl_s (b := { s := t, k := [], rd := [], idle := [], bad := none, short := none, mems := [], outs := [] }) h fun hb => hb.beatMember
  dsimp only
  generalize w.mems.foldl (Beat.member w.ctx) _ = b at hmembers ⊢
  split
  · exact h.touchWords.countIdle.spmHalt.endWork
  · exact h.touchWords.countIdle.endWork.deferHalt
  · have htaken : Carries s (({ b with s := b.s.countIdle b.idle } : Beat).takeEntry w.ctx).s :=
      beatTakeEntry (b := { b with s := _ }) hmembers.countIdle
    generalize ({ b with s := b.s.countIdle b.idle } : Beat).takeEntry w.ctx = c at htaken ⊢
    exact .ite (endWork (.ite htaken.modVec.couplerParity.perf htaken.modVec.couplerParity))
      (modVec (.ite htaken.modVec.couplerParity.perf htaken.modVec.couplerParity))

theorem execVeBeat (h : Carries s t) {kperr} : CarriesOut s (execVeBeat kperr t) := by
  unfold Machine.execVeBeat
  split
  · exact h
  · refine .ite h ?_
    split
    · exact h.stallOn
    · exact (h.asBeat fun hu => hu.veBeat).retryStores

theorem execRedResultWrite (h : Carries s t) {resErr} : CarriesOut s (execRedResultWrite resErr t) := by
  unfold Machine.execRedResultWrite
  split
  · exact h
  · extract_lets __src s1 s2
    have h1 : Carries s s1 := h.of_parts.wrRegs
    have h2 : Carries s s2 := .ite h1.rduError h1
    exact .ite h2.ctTicket h2

end Sys2Proof.Machine.Carries
end

section
/-!
PROOFS. What the invariants of O5 and O6 claim carries over: wipes, checkpoints and the ports.
-/

namespace Sys2Proof.Machine.Carries

set_option Elab.async false

variable {s t u : State}

/-! ### Wipes -/

theorem plainWrite (h : Carries s t) {off v} : Carries s (t.plainWrite off v) := (Carries.ite h.deny h).wr

theorem wiped (h : Carries s t) {c} : Carries s (t.wiped c) := by
  refine h.trans ⟨fun _ => rfl, fun _ => rfl, fun _ => .nil, fun _ => Nat.zero_le _, fun _ => Nat.zero_le _, fun hreads => ?_, fun hwrites => ?_⟩
  · unfold State.wiped
    dsimp only
    split
    exacts [hreads.map fun _ => rfl, .nil]
  · unfold State.wiped
    dsimp only
    split
    exacts [hwrites.map fun _ => rfl, .nil]

theorem onReference (h : Carries s t) : Carries s t.onReference := h.of_parts
theorem offReference (h : Carries s t) : Carries s t.offReference := h.of_parts

theorem beginWipe (h : Carries s t) {cause} : Carries s (t.beginWipe cause) := by
  unfold State.beginWipe
  extract_lets s1
  have h1 : Carries s s1 := h.setRf.setRf.setRf
  split
  · exact h1.setRf
  · exact h1

theorem liveWipe (h : Carries s t) {c} : Carries s (t.liveWipe c) := ((Carries.ite h.offReference h).wiped).beginWipe
theorem resetMaps (h : Carries s t) {classes} : Carries s (t.resetMaps classes) := of_parts (t := t.applyMaps classes) h.applyMaps

/-! ### Checkpoint section -/

theorem oncePerTicket_nodup (l : List Entry) : ((oncePerTicket l).map (·.tkt)).Nodup := by
  suffices h : ∀ (l r : List Entry), (r.map (·.tkt)).Nodup →
      ((l.foldl (fun r e => if r.any fun x => x.tkt = e.tkt then r else r ++ [e]) r).map (·.tkt)).Nodup from
    h l [] List.nodup_nil
  intro l
  induction l with
  | nil => exact fun _ h => h
  | cons e l ih =>
    refine fun r hr => ih _ ?_
    beta_reduce
    split
    · exact hr
    next hfresh =>
      simp only [List.any_eq_true, decide_eq_true_eq, not_exists, not_and] at hfresh
      rw [List.map_append, List.map_singleton]
      refine List.nodup_append.mpr ⟨hr, List.nodup_singleton _, fun a ha b hb => ?_⟩
      obtain ⟨x, hx, rfl⟩ := List.mem_map.mp ha
      rw [List.mem_singleton] at hb
      exact hb ▸ hfresh x hx

theorem ticketsWf_foldl {f : Nat → Ctx} (hf : ∀ n, ((f n).entries.map (·.tkt)).Nodup) (l : List Nat) {q : Tbl Ctx} (hq : TicketsWf q) :
    TicketsWf (l.foldl (fun t n => tset Ctx.zero t n (f n)) q) := by
  induction l generalizing q with
  | nil => exact hq
  | cons n l ih => exact ih (hq.tset (hf n))

theorem readCtx_tickets (l : List Entry) (b : List Byte) : ((readCtx l b).entries.map (·.tkt)).Nodup := by
  have h : (readCtx l b).entries = oncePerTicket l := rfl
  rw [h]
  exact oncePerTicket_nodup l

theorem readStream_loops (v : List Nat) : (readStream v).loops.length ≤ 4 := by
  have h : (readStream v).loops.length = min 4 (v.getD 25 0) := (List.length_map _).trans List.length_range
  rw [h]
  exact Nat.min_le_left _ _

theorem putSection (h : Carries s t) {b resume} : Carries s (t.putSection b resume) := by
  unfold State.putSection
  have hregs : Carries s ((upto 6).foldl (fun s i => s.wr (0x9800 + 8 * i) (BitVec.ofNat 64 (leNat (part b (trkOff + 8192 + 8 * i) 8)))) t) :=
    h.foldl fun h => h.wr
  generalize readQueues (fun n => rdLe b (carBytes + 32 * n + 18) 2) 4096 (b.drop (digOff + 52)) (part b 0 carBytes) = queues
  have hqueues := ticketsWf_foldl (f := fun n => readCtx (tget [] queues n) (part b (carBytes + 32 * n) 32)) (fun _ => readCtx_tickets _ _) (upto 4096) .nil
  dsimp only at hqueues ⊢
  generalize (upto 4096).foldl (fun t n => tset Ctx.zero t n (readCtx (tget [] queues n) (part b (carBytes + 32 * n) 32))) [] = q at hqueues ⊢
  generalize (upto 6).foldl (fun s i => State.wr s (0x9800 + 8 * i) (BitVec.ofNat 64 (leNat (part b (trkOff + 8192 + 8 * i) 8)))) t = u at hregs ⊢
  have hset := hregs.setRf (off := 0x1448) (hi := 15) (lo := 0) (v := (unpackF [2, 1, 1] (part b csOff 64)).getD 0 0)
  split
  · exact hset.trans ⟨id, id, fun _ => hqueues, id, id, id, id⟩
  · exact hset.trans ⟨id, id, fun _ => hqueues, fun _ => readStream_loops _, fun _ => readStream_loops _, id, id⟩

/-! ### Update beats -/

theorem updStep (h : Carries s t) {w m} : Carries s (t.updStep w m) := by
  unfold State.updStep
  dsimp only
  generalize wordsOf _ = words
  have hread : Carries s (t.touchWords (some .x) words) := h.touchWords
  split
  · exact .ite hread.modVec.spmHalt.merge.ctTicket hread.modVec.spmHalt.merge
  · have hdone : ∀ {l : List (Nat × List Byte)}, Carries s ((l.foldl (fun (s : State) p => s.write (some .x) w.cs p.1 p.2)
        (t.touchWords (some .x) words)).perf 6 4) := (hread.foldl fun h => h.write).perf
    exact .ite hdone.modVec (.ite hdone.modVec.merge.ctTicket hdone.modVec.merge)

theorem execUpdfBlockDone (h : Carries s t) : CarriesOut s (execUpdfBlockDone t) := by
  unfold Machine.execUpdfBlockDone
  split
  · split
    · refine .ite h ?_
      split
      · exact h.stallOn
      · exact (h.asBeat fun hu => hu.updStep).retryStores
    · exact h
  · exact h

theorem accLoad (h : Carries s t) {st a bs} : Carries s (t.accLoad st a bs) := by
  unfold State.accLoad
  split
  · exact h.wrRegs
  · exact h.wrRegs
  · exact h.of_parts
  · exact h
  · exact h.setSched

theorem execScratchpadScalarAccess (h : Carries s t) {st} : CarriesOut s (execScratchpadScalarAccess st t) := by
  unfold Machine.execScratchpadScalarAccess
  split
  · exact h
  · extract_lets lo s1 s2 s3
    have h1 : Carries s s1 := h.modStr
    have h2 : Carries s s2 := h1.touchWords
    have h3 : Carries s s3 := by
      refine .ite h1.writePairs ?_
      split
      · exact h1.spmHalt
      · exact h2.accLoad
    refine .ite h ?_
    split
    · exact h.stallOn
    · exact h3.retryStores

/-! ### Checkpoints -/

theorem skipStop (h : Carries s t) {err} : Carries s (t.skipStop err) := h.setRf.incRf.raise

theorem fireStop (h : Carries s t) {ct} : Carries s (t.fireStop ct).1 := by
  unfold State.fireStop
  split
  · exact h.skipStop
  · split
    · exact h.skipStop
    · split
      · exact h.skipStop
      · exact h.of_parts

theorem ckeUnit (h : Carries s t) {a} : Carries s (t.ckeUnit a).1 := by
  unfold State.ckeUnit
  split
  · exact h.noteUncorr
  · exact h.touchView

theorem ckeUnits (h : Carries s t) {l} : Carries s (t.ckeUnits l).1 := foldl_fst h fun hu => hu.ckeUnit
theorem notePoison (h : Carries s t) {units} : Carries s (t.notePoison units) := .ite h.of_parts.setRf h
theorem stage (h : Carries s t) {r u} : Carries s (t.stage r u) := h.of_parts.ckeWrite
theorem stageImage (h : Carries s t) {r} : Carries s (t.stageImage r) := h.ckeUnits.notePoison.stage
theorem stageSection (h : Carries s t) {b r} : Carries s (State.stageSection b t r) := h.stage

theorem markUnit_qsy (t : State) (cls n : Nat) : (t.markUnit cls n).qsy = t.qsy := by
  unfold State.markUnit State.setMark
  dsimp only
  split
  · rfl
  split
  · rfl
  split
  · simp
  split <;> simp

theorem readCars_qsy (t : State) (who : Option (Sid × W16)) (e : Entry) : (t.readCars who e).1.qsy = t.qsy := by
  unfold State.readCars
  dsimp only
  refine List.foldlRecOn (motive := fun p : State × Option Nat => p.1.qsy = t.qsy) _ _ rfl fun p hp x _ => ?_
  have hfault : ∀ k, (p.1.carNumber.1.fault 0x02 2 who k).qsy = t.qsy := fun k => by rw [State.fault_qsy]; exact hp
  generalize p.1.carNumber = v at hfault ⊢
  dsimp only
  split
  exacts [(markUnit_qsy _ _ _).trans (hfault _), hfault _]

/-- A context of a listed number is the one listed. -/
theorem tget_of_mem {q : Tbl Ctx} (hq : q.Pairwise fun x y => x.1 < y.1) {p : Nat × Ctx} (hp : p ∈ q) : tget Ctx.zero q p.1 = p.2 := by
  induction q with
  | nil => cases hp
  | cons x q ih =>
    obtain ⟨hx, hrest⟩ := List.pairwise_cons.mp hq
    rw [tget]
    obtain rfl | hmem := List.mem_cons.mp hp
    · exact if_pos rfl
    · rw [if_neg (Nat.ne_of_lt (hx p hmem)), ih hrest hmem]

/-- What holds while the queue RAM is read through: `u` carries what `s` has, and its contexts hold the tickets that they held in `t`. -/
def Reread (s t u : State) : Prop := Carries s u ∧ (TicketsWf s.qsy → ∀ n, (u.ctx n).entries.map (·.tkt) = (t.ctx n).entries.map (·.tkt))

theorem reread_entry (h : Reread s t u) {n i : Nat} {e : Entry} (he : TicketsWf s.qsy → ((t.ctx n).entries.map (·.tkt))[i]? = some e.tkt) :
    Reread s t ((u.readCars none e).1.modCtx n fun c => { c with entries := c.entries.set i (u.readCars none e).2.1 }) := by
  obtain ⟨hu, hsame⟩ := h
  have hread : Carries s (u.readCars none e).1 := hu.readCars
  have hctx : ∀ k, (u.readCars none e).1.ctx k = u.ctx k := fun k => by rw [State.ctx, readCars_qsy]; rfl
  have hset : TicketsWf s.qsy → ((u.ctx n).entries.set i (u.readCars none e).2.1).map (·.tkt) = (u.ctx n).entries.map (·.tkt) := by
    intro hq
    obtain ⟨hlt, hi⟩ := List.getElem?_eq_some_iff.mp (he hq)
    rw [List.map_set, hsame hq, show (u.readCars none e).2.1.tkt = e.tkt from rfl, ← hi, List.set_getElem_self]
  refine ⟨hread.modCtx_if fun hq => ?_, fun hq k => ?_⟩
  · rw [hctx, hset hq]
    exact (hu.qsy hq).2 n
  · rw [← hsame hq k, State.ctx, State.modCtx, tmod, tget_tset]
    split
    next hk =>
      subst hk
      exact (congrArg (fun c : Ctx => (c.entries.set i (u.readCars none e).2.1).map (·.tkt)) (hctx n)).trans (hset hq)
    next => exact congrArg (fun c : Ctx => c.entries.map (·.tkt)) (hctx k)

theorem readQueueRam (h : Carries s t) : Carries s t.readQueueRam := by
  have hread : Reread s t t.readQueueRam := by
    refine List.foldlRecOn _ _ ⟨h, fun _ _ => rfl⟩ fun u hu p hp => ?_
    dsimp only
    split
    · exact hu
    · refine List.foldlRecOn _ _ hu fun u hu x hx => reread_entry hu fun hq => ?_
      rw [State.ctx, tget_of_mem (h.qsy hq).1 hp, List.getElem?_map, List.mem_zipIdx_iff_getElem?.mp hx]
      rfl
  exact hread.1

theorem sealStop (h : Carries s t) : Carries s t.sealStop := by
  unfold State.sealStop
  extract_lets u epoch blocks src cke v recs b w x
  have hu : Carries s u := h.readQueueRam
  have hv : Carries s v := hu.setRf.modCke
  clear_value v
  have hw : Carries s w := hv.foldl fun h => h.stageSection
  have hx : Carries s x := hw.foldl fun h => h.stageImage
  exact hx.modCke

theorem recapture (h : Carries s t) : Carries s t.recapture := h.of_parts.foldl fun hu => hu.ckeWrite
theorem readRegion (h : Carries s t) {r block} : Carries s (t.readRegion r block) := h.ckeRead
theorem blockDone (h : Carries s t) {p} : Carries s (t.blockDone p) := h.of_parts.blocksFree

theorem readDone (h : Carries s t) {j} : Carries s (t.readDone j) := by
  unfold State.readDone
  extract_lets __src s1 u s2
  have h1 : Carries s s1 := h.of_parts
  have h2 : Carries s s2 := h1.notePoison
  split
  · exact h1.ckeSend
  · extract_lets s3
    have h3 : Carries s s3 := h2.ckeSend
    split
    · exact h3.blockDone
    · exact h3
  · exact h1

theorem ckeRun (h : Carries s t) : Carries s t.ckeRun := by
  unfold State.ckeRun
  refine .ite h ?_
  extract_lets s1 __src
  have h1 : Carries s s1 := by
    unfold s1
    split
    · exact .ite h.readDone h
    · exact h
  refine .ite h1 ?_
  refine .ite (.ite h1.sealStop h1) ?_
  refine .ite h1.recapture ?_
  split
  · exact h1.of_parts.readRegion
  · exact h1

theorem execCkptResume (h : Carries s t) {io} : CarriesOut s (execCkptResume io t) :=
  .ite (h.setRf.stopEnded.hurryTodo.allChans fun hu => hu.chanRun) h

theorem copyBlock (h : Carries s t) {p} : Carries s (t.copyBlock p) := by
  unfold State.copyBlock
  dsimp only
  split
  · exact h
  · exact .ite h.readRegion h.ckeUnits.notePoison.ckeSend.blockDone

theorem execCkptBlockCopy (h : Carries s t) {io} : CarriesOut s (execCkptBlockCopy io t) := by
  unfold Machine.execCkptBlockCopy
  refine .ite h ?_
  extract_lets s1 __src
  have h4 : Carries s s1 := h.foldl fun hu => .ite hu.hurryAll hu
  split
  · exact h4.copyBlock
  · exact h4.of_parts.ckeRead
  · exact h4.copyBlock
  · exact h4

theorem execCkptDone (h : Carries s t) : CarriesOut s (execCkptDone t) := .ite h.setRf.raise h

theorem putPieces (h : Carries s t) {addr l} : Carries s (t.putPieces addr l) := by
  unfold State.putPieces
  refine h.foldl ?_
  intro x y hu
  refine hu.foldl ?_
  intro z w hv
  split
  · exact hv.poke
  · exact hv

theorem sendPieces (h : Carries s t) {base l} : Carries s (t.sendPieces base l) := h.foldl fun hu => hu.foldl fun hv => hv.addReq
theorem restoreFail (h : Carries s t) {err det} : Carries s (t.restoreFail err det) := h.setRf.setRf.setRf.liveWipe
theorem restoreRefuse (h : Carries s t) {err} : Carries s (t.restoreRefuse err) := h.setRf.setRf

theorem restoreNext (h : Carries s t) {records} : Carries s (t.restoreNext records) := by
  unfold State.restoreNext
  split
  · exact h.of_parts
  · exact .ite h h.of_parts.setRf
  · exact .ite h.restoreFail (.ite h.of_parts.sendPieces h.of_parts.putPieces)

theorem startRestore (h : Carries s t) : Carries s t.startRestore :=
  .ite h.setRf (.ite h.restoreRefuse h.abandonDma.setRf.ckeDrop.modCke.ckeRead)

theorem execRestore (h : Carries s t) : CarriesOut s (execRestore t) := h.atHost fun hu => hu.startRestore

theorem restoreTrailer (h : Carries s t) {j} : Carries s (t.restoreTrailer j) := by
  unfold State.restoreTrailer
  split
  · exact h.restoreFail
  · exact .ite h.restoreRefuse.ckeDrop h.of_parts.ckeRead

theorem restoreRun (h : Carries s t) : Carries s t.restoreRun := by
  unfold State.restoreRun
  refine .ite h ?_
  split
  · exact h.restoreFail
  · refine .ite h ?_
    split
    · exact h.restoreTrailer
    · exact h.restoreNext
    · exact h

theorem execRestoreDone (h : Carries s t) {trailer records} : CarriesOut s (execRestoreDone trailer records t) := by
  unfold Machine.execRestoreDone
  dsimp only
  split
  · exact h
  · exact .ite h (.ite h.restoreFail (.ite h.restoreFail (.ite h.restoreRefuse.ckeDrop
      (Carries.ite h.putPieces.putSection.modCke h.putPieces).ckeDrop.setRf)))

theorem abandonCkpt (h : Carries s t) : Carries s t.abandonCkpt := .ite h.ckeFail h
theorem execAbandon (h : Carries s t) : CarriesOut s (execAbandon t) := h.atHost fun hu => hu.abandonCkpt
theorem setOverride (h : Carries s t) {v} : Carries s (t.setOverride v) := .ite h.setRf (.ite h.setRf h.setRf.deny)
theorem execOverride (h : Carries s t) {v} : CarriesOut s (execOverride v t) := h.atHost fun hu => hu.setOverride

theorem ckeCtrlWrite (h : Carries s t) {v} : Carries s (t.ckeCtrlWrite v) := by
  unfold State.ckeCtrlWrite
  extract_lets s1 s2
  have h1 : Carries s s1 := h.setOverride.setRf
  have h2 : Carries s s2 := .ite h1.startRestore h1
  exact .ite h2.abandonCkpt h2

theorem ckeConfig (h : Carries s t) {off v} : Carries s (t.ckeConfig off v) := .ite h.setRf h.plainWrite
theorem execCkeConfigWrite (h : Carries s t) {off data} : CarriesOut s (execCkeConfigWrite off data t) := .ite (h.atHost fun hu => hu.ckeConfig) h

/-! ### Calibration and self-test -/

theorem nextTrial (h : Carries s t) {k} : Carries s (t.nextTrial k) := h.of_parts
theorem openCal (h : Carries s t) {us} : Carries s (t.openCal us) := .ite h.of_parts.nextTrial h.of_parts

theorem execCalSwap (h : Carries s t) : CarriesOut s (execCalSwap t) := by
  unfold Machine.execCalSwap
  refine .ite ?_ h
  extract_lets s1 __src
  have h1 : Carries s s1 := h.applyMaps.clearArrayWear.raiseCause
  exact h1.of_parts.nextTrial

theorem execCalTrialEnd (h : Carries s t) {comparisons mismatch skewed} : CarriesOut s (execCalTrialEnd comparisons mismatch skewed t) := by
  unfold Machine.execCalTrialEnd
  extract_lets n o cth s1
  have h1 : Carries s s1 := by
    refine .ite h.incRf.setRf ?_
    exact .ite h.setRf.incRf.setRf (.ite h.setRf (.ite h.incRf.setRf ((Carries.ite h h.setRf).setRf)))
  exact .ite h1.nextTrial h

theorem execCalWindowRelease (h : Carries s t) : CarriesOut s (execCalWindowRelease t) := .ite h.of_parts h
theorem startBist (h : Carries s t) {t'} : Carries s (t.startBist t') := .ite h.setRf (.ite h.of_parts (.ite h.of_parts.onReference h.of_parts))
theorem execBistStart (h : Carries s t) {test} : CarriesOut s (execBistStart test t) := h.atHost fun hu => hu.startBist

theorem idleStream (h : Carries s t) {st} : Carries s (t.idleStream st) := by
  unfold State.idleStream
  have hidle : Carries s (State.clearHalt (State.settleSwitch ((t.withdraw st).modStr st fun _ => Stream.reset)) st) :=
    h.withdraw.modStr_nil.settleSwitch.clearHalt
  cases st with
  | a => exact hidle
  | x => exact hidle.of_parts

theorem bistWipe (h : Carries s t) {k} : Carries s (t.bistWipe k) := by
  unfold State.bistWipe
  dsimp only
  have hidle : Carries s (if decide (0x10 ≤ k) then (t.idleStream .a).idleStream .x else t) := .ite h.idleStream.idleStream h
  generalize (if decide (0x10 ≤ k) then (t.idleStream .a).idleStream .x else t) = u at hidle
  have hregs : Carries s ((upto 64).foldl (fun s n => s.wr (0x4000 + 8 * n) 0) u) := hidle.foldl fun h => h.wr
  generalize (upto 64).foldl (fun s n => s.wr (0x4000 + 8 * n) 0) u = v at hregs
  split
  · exact hidle.trans ⟨fun _ => rfl, id, id, id, id, id, id⟩
  split
  · exact hidle.trans ⟨id, id, fun _ => .nil, id, id, id, id⟩
  split
  · exact setRf (setRf (hidle.modImem fun _ => rfl))
  split
  · exact hregs.of_parts
  split
  exacts [hidle.modArr, hidle]

theorem showHottest (h : Carries s t) {n} : Carries s (t.showHottest n) := by
  unfold State.showHottest
  dsimp only
  split
  · exact h.setRf
  · exact h

theorem blockDead (h : Carries s t) {n f} : Carries s (t.blockDead n f) := by
  have hmark : ∀ k, Carries s (if t.pins.dead.contains k then t else { t with pins := { t.pins with dead := t.pins.dead ++ [k] } }) :=
    fun _ => .ite h h.of_parts
  exact .ite (of_parts (hmark _)) (.ite (setRf (hmark _)) (.ite (setRf (hmark _)) (.ite (showHottest (hmark _)) (hmark _))))

theorem execBistDone (h : Carries s t) {fails time} : CarriesOut s (execBistDone fails time t) := by
  unfold Machine.execBistDone
  split
  · exact h
  · extract_lets s1 s2 s3 o s4 s5
    have h1 : Carries s s1 := h.of_parts.bistWipe
    have h2 : Carries s s2 := .ite h1.offReference h1
    have h6 : Carries s s3 := h2.foldl fun hu => .ite hu.markUnit hu.blockDead
    have h7 : Carries s s4 := h6.setRf.setRf.setRf.setRf
    have h8 : Carries s s5 := h7.wr
    exact h8.raise

/-! ### Meridian -/

theorem discipline (h : Carries s t) {est fresh} : Carries s (t.discipline est fresh) := by
  unfold State.discipline
  dsimp only
  split
  · exact h.of_parts
  · exact h.modMer

theorem merLock (h : Carries s t) {e told} : Carries s (t.merLock e told) := by
  unfold State.merLock
  extract_lets s1
  have h1 : Carries s s1 := .ite h.modMer.incRf.raiseCause h.modMer
  exact .ite h1.raiseCause h1

theorem merSlew (h : Carries s t) {e} : Carries s (t.merSlew e) := h.modMer

theorem merUpdate (h : Carries s t) {tick age} : Carries s (t.merUpdate tick age) := by
  unfold State.merUpdate
  refine .ite h ?_
  extract_lets e est s1 __src
  have h1 : Carries s s1 := h.wr
  split
  · exact h1.modMer.raiseCause
  · exact .ite h1.incRf (.ite h1.merSlew.discipline.raise h1.merLock.discipline)
  · refine .ite h1.incRf ?_
    refine .ite (.ite h1.merSlew.discipline h1.merLock.discipline) ?_
    exact .ite h1.merSlew.discipline.raise h1.merLock.discipline

theorem execHoldoverTimeout (h : Carries s t) : CarriesOut s (execHoldoverTimeout t) := .ite h.modMer.incRf.raise h
theorem execSlewEnd (h : Carries s t) : CarriesOut s (execSlewEnd t) := .ite h.modMer h
theorem armSlot (h : Carries s t) {n tg fields} : Carries s (t.armSlot n tg fields) := .ite h.wr.wr.wr h.wr.wr

theorem slotAction (h : Carries s t) {act param strm ct} : Carries s (t.slotAction act param strm ct).1 := by
  unfold State.slotAction
  split
  · exact h.switchEvent
  · exact h.fireStop
  · split
    · exact h
    · exact h.openCal
  · dsimp only
    split
    · exact h.startStream
    · exact h
  · exact h

theorem fireSlot (h : Carries s t) {k} : Carries s (t.fireSlot k) := by
  unfold State.fireSlot
  refine .ite h ?_
  extract_lets o w s1 s2
  have h1 : Carries s s1 := h.setRf.setRf
  have h2 : Carries s s2 := .ite h1.raise h1
  exact .ite h2.slotAction.setRf.ctTicket h2.slotAction.setRf

theorem execMerSlotFire (h : Carries s t) {n} : CarriesOut s (execMerSlotFire n t) := .ite h h.fireSlot
theorem hostLate (h : Carries s t) {tg} : Carries s (t.hostLate tg) := .ite h h.lateMark

theorem slotCtrlWrite (h : Carries s t) {n v} : Carries s (t.slotCtrlWrite n v) := by
  unfold State.slotCtrlWrite
  dsimp only
  refine .ite (.ite h (.ite (h.foldl fun hu => hu.fireSlot) h.wr)) ?_
  exact .ite h.setRf (.ite h.setRf (.ite h.setRf.setRf h.hostLate.armSlot))

theorem execMerSlotCtrlWrite (h : Carries s t) {n data} : CarriesOut s (execMerSlotCtrlWrite n data t) := h.atHost fun hu => hu.slotCtrlWrite

theorem runMwait (h : Carries s t) {st c} : CarriesRes s (runMwait t st c) := by
  unfold Machine.runMwait
  split
  · exact trivial
  · exact h.lateMark

theorem mwaitSem_carrying : mwaitSem.Carrying := of_run fun h => h.runMwait
theorem execMwait (h : Carries s t) {st c} : CarriesOut s (execMwait st c t) := h.issueRow mwaitSem_carrying

theorem execMwaitDue (h : Carries s t) {st} : CarriesOut s (execMwaitDue st t) := by
  unfold Machine.execMwaitDue
  split
  · split
    · exact .ite h.finishWait h
    · exact h
  · exact h

theorem runMarm (h : Carries s t) {st c} : CarriesRes s (runMarm t st c) := by
  unfold Machine.runMarm
  split
  · exact trivial
  · exact h.lateMark.armSlot

theorem marmSem_carrying : marmSem.Carrying := of_run fun h => h.runMarm
theorem execMarm (h : Carries s t) {st c} : CarriesOut s (execMarm st c t) := h.issueRow marmSem_carrying

/-! ### Power -/

theorem execPwrGntChange (h : Carries s t) {level} : CarriesOut s (execPwrGntChange level t) := .ite h h.setRf
theorem execPwrReqStep (h : Carries s t) {level} : CarriesOut s (execPwrReqStep level t) := .ite h.setRf h
theorem execVddcReqStep (h : Carries s t) : CarriesOut s (execVddcReqStep t) := .ite h (.ite h.setRf (.ite h.setRf h))
theorem settleDroop (h : Carries s t) : Carries s t.settleDroop := .ite h.setRf h
theorem execDroopTrip (h : Carries s t) {sec} : CarriesOut s (execDroopTrip sec t) := .ite h h.of_parts
theorem execDroopTripEnd (h : Carries s t) {sec} : CarriesOut s (execDroopTripEnd sec t) := .ite h h.of_parts
theorem stretch (h : Carries s t) {n} : Carries s (t.stretch n) := h.of_parts
theorem execCanaryStretch (h : Carries s t) {strip} : CarriesOut s (execCanaryStretch strip t) := .ite h h.stretch

theorem stretchTick (h : Carries s t) : Carries s t.stretchTick := by
  unfold State.stretchTick
  extract_lets s1 s2 __src s3 __src1
  have h4 : Carries s s1 := h.foldl fun hu => hu.stretch
  have h5 : Carries s s2 := .ite h4.perf h4
  have h6 : Carries s s3 := h5.of_parts.settleDroop
  exact .ite h6 h6.of_parts

theorem putReadings (h : Carries s t) {l} : Carries s (t.putReadings l) :=
  (h.foldl fun hu => .ite hu (.ite (.ite hu hu.setRf) ((Carries.ite hu hu.setRf).setRf))).foldl fun hv => hv.showHottest

theorem execLockstepEnter (h : Carries s t) {sectors} : CarriesOut s (execLockstepEnter sectors t) :=
  .ite h (.ite h.putReadings h.putReadings.setRf.setRf.incRf.raise)

theorem execLockstepExit (h : Carries s t) : CarriesOut s (execLockstepExit t) := .ite h h.setRf

/-! ### Resets -/

theorem assertReset (h : Carries s t) {c} : Carries s (t.assertReset c) := h.wiped.modPins.setRf.setRf

theorem execColdResetAssert (h : Carries s t) : CarriesOut s (execColdResetAssert t) :=
  modTp (modPins (assertReset h))

theorem execColdResetRelease (h : Carries s t) {straps} : CarriesOut s (execColdResetRelease straps t) := .ite h.modPins.wr h

theorem startWipe (h : Carries s t) : Carries s t.startWipe := by
  unfold State.startWipe
  exact h.resetMaps.beginWipe.modPins

theorem execAclkLock (h : Carries s t) : CarriesOut s (execAclkLock t) := .ite h.modPins.startWipe h
theorem warmAssert (h : Carries s t) : Carries s t.warmAssert := h.assertReset.modPins
theorem execWarmResetAssert (h : Carries s t) : CarriesOut s (execWarmResetAssert t) := .ite h.modPins h.warmAssert
theorem warmRelease (h : Carries s t) : Carries s t.warmRelease := .ite h (.ite h.modPins (.ite h.modPins.modPins h.modPins.startWipe))
theorem execWarmResetRelease (h : Carries s t) : CarriesOut s (execWarmResetRelease t) := .ite h.modPins h.warmRelease
theorem resetKey (h : Carries s t) {key} : Carries s (t.resetKey key) := .ite h.warmAssert.warmRelease.modPins h
theorem execIdResetKey (h : Carries s t) {key} : CarriesOut s (execIdResetKey key t) := h.atHost fun hu => hu.resetKey

theorem execWipeComplete (h : Carries s t) {fails} : CarriesOut s (execWipeComplete fails t) := by
  unfold Machine.execWipeComplete
  refine .ite h ?_
  refine .ite (.ite h.setRf.setRf h.setRf.setRf.modPins.setRf) ?_
  extract_lets s1 marked s2
  have h4 : Carries s s1 := h.foldl fun hu => .ite hu.setMark hu
  have h5 : Carries s s2 := h4.resetMaps
  exact .ite h5 h5.setRf.setRf

theorem reqErr (h : Carries s t) : Carries s t.reqErr := h.setRf
theorem enterLcs (h : Carries s t) {n} : Carries s (t.enterLcs n) := h.setRf.liveWipe

theorem lcReq (h : Carries s t) {req confirm} : Carries s (t.lcReq req confirm) := by
  unfold State.lcReq
  refine .ite h.setRf ?_
  exact .ite h.reqErr (.ite h.enterLcs (.ite h.enterLcs (.ite h.setRf (.ite h.enterLcs h.reqErr))))

theorem execLcProvision (h : Carries s t) : CarriesOut s (execLcProvision t) := h.atHost fun hu => hu.lcReq
theorem execLcSecure (h : Carries s t) : CarriesOut s (execLcSecure t) := h.atHost fun hu => hu.lcReq
theorem execLcUnlock (h : Carries s t) : CarriesOut s (execLcUnlock t) := h.atHost fun hu => hu.lcReq
theorem execLcRetire (h : Carries s t) {confirm} : CarriesOut s (execLcRetire confirm t) := h.atHost fun hu => hu.lcReq
theorem unlockFail (h : Carries s t) : Carries s t.unlockFail := h.setRf.setRf.incRf
theorem execUnlockTimeout (h : Carries s t) : CarriesOut s (execUnlockTimeout t) := .ite h.unlockFail h
theorem keyAck (h : Carries s t) : Carries s t.keyAck := h.modPins
theorem keyErr (h : Carries s t) : Carries s t.keyErr := h.modPins.setRf

theorem execKeyDelivery (h : Carries s t) {kind words} : CarriesOut s (execKeyDelivery kind words t) := by
  unfold Machine.execKeyDelivery
  refine .ite h ?_
  refine .ite h.keyErr ?_
  refine .ite h.of_parts.setRf.keyAck ?_
  exact .ite ((Carries.ite h.enterLcs.modPins h.unlockFail).keyAck) h.keyAck

/-! ### Ring -/

theorem ringOut (h : Carries s t) {p} : Carries s (t.ringOut p) := h.of_parts
theorem crcErr (h : Carries s t) : Carries s t.crcErr := h.incRf
theorem execTime (h : Carries s t) {hdr tick waited} : CarriesOut s (execTime hdr tick waited t) := .ite h (.ite h.crcErr.ringOut h.ringOut.merUpdate)

theorem execRingForward (h : Carries s t) {words} : CarriesOut s (execRingForward words t) := by
  unfold Machine.execRingForward
  split
  · exact h
  · exact .ite h (.ite h.ringOut (.ite h.crcErr h.crcErr.ringOut))

theorem execEvent (h : Carries s t) : CarriesOut s (execEvent t) := by
  unfold Machine.execEvent
  split
  · exact .ite h h.of_parts.ringOut
  · exact h

theorem execTrace (h : Carries s t) : CarriesOut s (execTrace t) := by
  unfold Machine.execTrace
  split
  · exact .ite h h.of_parts.ringOut
  · exact h

theorem execBypassClose (h : Carries s t) : CarriesOut s (execBypassClose t) := .ite h h.modPins
theorem execBypassOpen (h : Carries s t) : CarriesOut s (execBypassOpen t) := .ite h.modPins h
theorem execBypassCsrRequest (h : Carries s t) {hdr data} : CarriesOut s (execBypassCsrRequest hdr data t) := .ite h.ringOut h

theorem execBypassForward (h : Carries s t) {ageAdd words} : CarriesOut s (execBypassForward ageAdd words t) := by
  unfold Machine.execBypassForward
  split
  · exact h
  · exact .ite h (.ite h.ringOut h.ringOut)

/-! ### Host port -/

theorem strmCtrlWrite (h : Carries s t) {st v} : Carries s (t.strmCtrlWrite st v) := by
  unfold State.strmCtrlWrite
  extract_lets s1 n s2
  have h1 : Carries s s1 := h.setRf
  have h2 : Carries s s2 := .ite h1.resetStream (.ite h1.haltStream (.ite h1.stopStream (.ite h1.startStream h1)))
  exact .ite h2.ignore h2

theorem shadowWrite (h : Carries s t) {st v} : Carries s (t.shadowWrite st v) := .ite h.setRf h.plainWrite
theorem vgWrite (h : Carries s t) {off v} : Carries s (t.vgWrite off v) := .ite h.setRf h.plainWrite
theorem recordWrite (h : Carries s t) {off v} : Carries s (t.recordWrite off v) := .ite h.deny h.plainWrite
theorem modeWrite (h : Carries s t) {v} : Carries s (t.modeWrite v) := .ite h.deny h.setRf
theorem testEvents (h : Carries s t) {v} : Carries s (t.testEvents v) := h.foldl fun hu => .ite hu.raise hu
theorem clearPerf (h : Carries s t) : Carries s t.clearPerf := h.wr.foldl fun hu => hu.wr
theorem eccCntWrite (h : Carries s t) {k v} : Carries s (t.eccCntWrite k v) := .ite h.plainWrite.setRf h.plainWrite
theorem wearWrite (h : Carries s t) {v} : Carries s (t.wearWrite v) := .ite h.of_parts h

theorem trkWrite (h : Carries s t) {off v} : Carries s (t.trkWrite off v) := by
  unfold State.trkWrite
  exact .ite h.modTrk h

theorem switchWrite (h : Carries s t) : Carries s t.switchWrite := .ite ((h.foldl fun hu => hu.fireSlot).setRf) h.hostSwitch

theorem hostWrite (h : Carries s t) {off v} : Carries s (t.hostWrite off v) := by
  unfold State.hostWrite
  refine .ite h.resetKey ?_
  refine .ite h.testEvents ?_
  refine .ite h.barWrite ?_
  refine .ite h.barWrite ?_
  refine .ite h.eccCntWrite ?_
  refine .ite (.ite h.switchWrite h) ?_
  refine .ite h.haddrWrite ?_
  refine .ite h.htagWrite ?_
  refine .ite h.strmCtrlWrite ?_
  refine .ite h.strmCtrlWrite ?_
  refine .ite h.slotCtrlWrite ?_
  refine .ite h.shadowWrite ?_
  refine .ite h.shadowWrite ?_
  refine .ite h.vgWrite ?_
  refine .ite h.ckeCtrlWrite ?_
  refine .ite h.ckeConfig ?_
  refine .ite h.writeW0 ?_
  refine .ite h.writeW1 ?_
  refine .ite h.qsyDeny ?_
  refine .ite h.writeW3 ?_
  refine .ite h.trkWrite ?_
  refine .ite h.postAckWrite ?_
  refine .ite h.recordWrite ?_
  refine .ite h.wearWrite ?_
  refine .ite (.ite h.startBist h.plainWrite) ?_
  refine .ite (.ite h.plainWrite.setRf h.plainWrite) ?_
  refine .ite h.plainWrite ?_
  exact .ite h.lcReq (.ite h.modeWrite (.ite (.ite h.plainWrite.clearPerf h.plainWrite) h.plainWrite))

theorem execImemSwitch (h : Carries s t) : CarriesOut s (execImemSwitch t) := h.atHost fun hu => hu.switchWrite
theorem execImemHtagWrite (h : Carries s t) {data} : CarriesOut s (execImemHtagWrite data t) := h.atHost fun hu => hu.htagWrite
theorem execImemHaddrWrite (h : Carries s t) {data} : CarriesOut s (execImemHaddrWrite data t) := h.atHost fun hu => hu.haddrWrite
theorem execPostAck (h : Carries s t) {data} : CarriesOut s (execPostAck data t) := h.atHost fun hu => hu.postAckWrite
theorem execQctxW0Write (h : Carries s t) {data} : CarriesOut s (execQctxW0Write data t) := h.atHost fun hu => hu.writeW0
theorem execCsuShadowWrite (h : Carries s t) {n data} : CarriesOut s (execCsuShadowWrite n data t) := h.atHost fun hu => hu.shadowWrite
theorem execCsuVgWrite (h : Carries s t) {off data} : CarriesOut s (execCsuVgWrite off data t) := .ite (h.atHost fun hu => hu.vgWrite) h
theorem execBarWrite (h : Carries s t) {w1 data} : CarriesOut s (execBarWrite w1 data t) := h.atHost fun hu => hu.barWrite
theorem execRepRecordWrite (h : Carries s t) {off data} : CarriesOut s (execRepRecordWrite off data t) := .ite (h.atHost fun hu => hu.recordWrite) h
theorem execDbgModeWrite (h : Carries s t) {data} : CarriesOut s (execDbgModeWrite data t) := h.atHost fun hu => hu.modeWrite
theorem execEvTestWrite (h : Carries s t) {data} : CarriesOut s (execEvTestWrite data t) := h.atHost fun hu => hu.testEvents
theorem execPerfClear (h : Carries s t) : CarriesOut s (execPerfClear t) := h.atHost fun hu => hu.clearPerf
theorem execSpmEcccntWrite (h : Carries s t) {n data} : CarriesOut s (execSpmEcccntWrite n data t) := h.atHost fun hu => hu.eccCntWrite
theorem execPerfCounterWrap (h : Carries s t) {n} : CarriesOut s (execPerfCounterWrap n t) := h.perf
theorem execRegisterWrite (h : Carries s t) {off data} : CarriesOut s (execRegisterWrite off data t) := h.atHost fun hu => hu.hostWrite
theorem execCsrRd (h : Carries s t) {hdr} : CarriesOut s (execCsrRd hdr t) := .ite h (.ite h.crcErr (.ite h.incRf.ringOut h.ringOut))

theorem execCsrWr (h : Carries s t) {hdr data} : CarriesOut s (execCsrWr hdr data t) :=
  .ite h (.ite h.crcErr (.ite h.incRf.ringOut (.ite h.hostWrite.ringOut h.hostWrite)))

/-! ### Test port -/

theorem loadWir (h : Carries s t) {code} : Carries s (t.loadWir code) := h.setRf
theorem drivePorts (h : Carries s t) {code} : Carries s (t.drivePorts code) := h.of_parts
theorem takePorts (h : Carries s t) : Carries s t.takePorts := h.of_parts
theorem scanDeny (h : Carries s t) : Carries s t.scanDeny := h.loadWir.deny.incRf
theorem intestUpdate (h : Carries s t) : Carries s t.intestUpdate := .ite h.scanDeny h.loadWir.takePorts
theorem ijtagUpdate (h : Carries s t) : Carries s t.ijtagUpdate := .ite h.scanDeny h.loadWir

theorem wirUpdate (h : Carries s t) {code} : Carries s (t.wirUpdate code) := by
  unfold State.wirUpdate
  extract_lets s1
  have h1 : Carries s s1 := h.drivePorts
  exact .ite h1.loadWir.takePorts (.ite h1.intestUpdate (.ite h1.ijtagUpdate h1.loadWir))

theorem execTpReset (h : Carries s t) : CarriesOut s (execTpReset t) := h.drivePorts.loadWir
theorem execWsBypass (h : Carries s t) : CarriesOut s (execWsBypass t) := h.wirUpdate
theorem execWsExtest (h : Carries s t) : CarriesOut s (execWsExtest t) := h.wirUpdate
theorem execWsPreload (h : Carries s t) : CarriesOut s (execWsPreload t) := h.wirUpdate
theorem execWsClamp (h : Carries s t) : CarriesOut s (execWsClamp t) := h.wirUpdate
theorem execWsSafe (h : Carries s t) : CarriesOut s (execWsSafe t) := h.wirUpdate
theorem execWsIntestScan (h : Carries s t) : CarriesOut s (execWsIntestScan t) := h.wirUpdate
theorem execMxId (h : Carries s t) : CarriesOut s (execMxId t) := h.wirUpdate
theorem execMxIjtag (h : Carries s t) : CarriesOut s (execMxIjtag t) := h.wirUpdate

theorem freeBits (h : Carries s t) {n} : Carries s (t.freeBits n).1 := by
  induction n generalizing t with
  | zero => exact h
  | succ n ih => exact ih h.freeWord

theorem ijtagShift (h : Carries s t) {bits} : Carries s (t.ijtagShift bits) := by
  unfold State.ijtagShift
  have hout : Carries s { (t.freeBits bits.length).1 with tp := { (t.freeBits bits.length).1.tp with shift := (t.freeBits bits.length).2 } } :=
    modTp h.freeBits
  exact .ite hout.hostWrite hout

theorem serialShift (h : Carries s t) {wir bits} : Carries s (t.serialShift wir bits) := by
  unfold State.serialShift
  dsimp only
  refine .ite h.of_parts.wirUpdate ?_
  refine .ite h.of_parts.drivePorts ?_
  refine .ite (of_parts (t := (t.freeBits bits.length).1) h.freeBits) ?_
  exact .ite h.of_parts (.ite h.ijtagShift h.of_parts)

theorem execWrapperSerialShift (h : Carries s t) {wir bits} : CarriesOut s (execWrapperSerialShift wir bits t) :=
  .ite (of_parts (t := t.serialShift wir bits) h.serialShift) h.serialShift

end Sys2Proof.Machine.Carries
end

section
/-!
PROOFS. What the invariants of O5 and O6 claim carries over: a step.
-/

namespace Sys2Proof.Machine

set_option Elab.async false

namespace Carries

variable {s t u : State}

/-! ### Long words -/

theorem cmdOf_carrying {ms bad c} : (cmdOf ms bad c).Carrying := by
  unfold cmdOf
  split
  exacts [sliSem_carrying, smovSem_carrying, saddSem_carrying, ssubSem_carrying, smulSem_carrying, sandSem_carrying, sorSem_carrying, sxorSem_carrying,
    sshlSem_carrying, sshrSem_carrying, sshraSem_carrying, scmpSem_carrying, splSem_carrying, sldSem_carrying, sstSem_carrying, loopSem_carrying,
    lexitSem_carrying, brSem_carrying, brpSem_carrying, brcSem_carrying, brkSem_carrying, haltSem_carrying, qpushSem_carrying, qpopSem_carrying,
    qwaitSem_carrying, dmapSem_carrying, dmardSem_carrying, cbeginSem_carrying, ccommitSem_carrying, cvoteSem_carrying, cabortSem_carrying,
    mwaitSem_carrying, marmSem_carrying, barrSem_carrying, postSem_carrying, ttfSem_carrying, mxpSem_carrying, vsetlSem_carrying, vchainSem_carrying,
    updfSem_carrying, orbSem_carrying, rngSem_carrying, ite_carrying stkSem_carrying vecSem_carrying]

theorem correctRows (h : Carries s t) {keys} : Carries s (t.correctRows keys) :=
  h.foldl fun hu => .ite (.ite hu.of_parts.setRf.raise hu.of_parts.setRf) hu

theorem noteRow (h : Carries s t) {st bank} : Carries s (t.noteRow st bank) := by
  unfold State.noteRow
  extract_lets rec' row s1
  have h1 : Carries s s1 := h.fault
  refine .ite ?_ h
  split
  · exact h1.markUnit
  · exact h1

theorem issueNext (h : Carries s t) {st} : Carries s (t.issueNext st) := by
  unfold State.issueNext
  dsimp only
  refine .ite h (noteRow (issueWord h.correctRows fun p hp => ?_))
  obtain ⟨c, -, rfl⟩ := List.mem_map.mp hp
  exact cmdOf_carrying

theorem execLongWordIssue (h : Carries s t) {st} : CarriesOut s (execLongWordIssue st t) := h.issueNext

/-! ### Receive -/

theorem onRs (h : Carries s t) {f} : Carries s (State.onRs f t) := by
  unfold State.onRs
  dsimp only
  split
  · exact h.onReadData
  · exact h.onWriteAck
  · exact h.onQmsgAck
  · exact h.onQmsgCredit

theorem onVi (h : Carries s t) {f} : Carries s (State.onVi f t) := by
  unfold State.onVi
  dsimp only
  split
  · exact h.onVote
  · exact h.onDecision
  · exact h.badTag

theorem onBi (h : Carries s t) {f} : Carries s (State.onBi f t) := by
  unfold State.onBi
  dsimp only
  split
  · exact h.onArrive
  · exact h.onRelease
  · exact h.badTag

theorem takeFlit (h : Carries s t) {ch f} : Carries s (t.takeFlit ch f) := by
  unfold State.takeFlit
  split
  · exact h.arrive fun hu => hu.onRs
  · split
    · exact h.freeRx
    · exact h.onQmsg
    · exact h.badTag.freeRx
  · exact h.arrive fun hv => hv.onVi
  · exact h.arrive fun hw => hw.onBi

theorem execLinkFlitReceive (h : Carries s t) {ch flit} : CarriesOut s (execLinkFlitReceive ch flit t) := by
  unfold Machine.execLinkFlitReceive
  extract_lets c f l good seqOk s1 s2
  have h1 : Carries s s1 := .ite h h.incRf
  have h2 : Carries s s2 := h1.modLink
  exact .ite (.ite h1.modLink.takeFlit (.ite h1 (.ite h2.fabDown h2))) h

/-! ### Dispatch -/

theorem exec (h : Carries s t) {i} : CarriesOut s (exec i t) := by
  cases i
  exacts [h.execLongWordIssue, h.execSli, h.execSmov, h.execSadd, h.execSsub, h.execSmul, h.execSand, h.execSor, h.execSxor, h.execSshl, h.execSshr,
    h.execSshra, h.execScmp, h.execSpl, h.execSld, h.execSst, h.execLoop, h.execLexit, h.execBr, h.execBrp, h.execBrc, h.execBrk, h.execHalt,
    h.execQpush, h.execQpop, h.execQwait, h.execDmap, h.execDmard, h.execTtf, h.execMxp, h.execVadd, h.execVsub, h.execVmul, h.execVmin, h.execVmax,
    h.execVabs, h.execVneg, h.execVand, h.execVor, h.execVxor, h.execVnot, h.execVshl, h.execVshr, h.execVshra, h.execVcmp, h.execVsel, h.execVcvt,
    h.execVmset, h.execVfma, h.execVexp2, h.execVlog2, h.execVrcp, h.execVrsq, h.execVq, h.execVdq, h.execVlxadd, h.execVlxcvt, h.execVlxf,
    h.execVcprs, h.execVexpd, h.execVsetl, h.execVchain, h.execRedsum, h.execRedmax, h.execRedmin, h.execRedarg, h.execRedcnt, h.execStkbind,
    h.execStkfree, h.execStkadv, h.execStkmrg, h.execStkset, h.execStkrd, h.execStkclr, h.execStkMergesDone, h.execCbegin, h.execCcommit,
    h.execCvote, h.execCabort, h.execMwait, h.execMarm, h.execBarr, h.execPost, h.execUpdf, h.execUpdfBlockDone, h.execOrbLoad, h.execOrbStep,
    h.execOrbMult, h.execOrbBias1, h.execOrbBias2, h.execOrbRdstep, h.execOrbSetstep, h.execRngkKey, h.execRngkGen, h.execRngkSeq, h.execPassBegin,
    h.execTileReady, h.execFtqEntryVisible, h.execVeBeat, h.execRedResultWrite, h.execCtPushQuota, h.execQueueHeadServe, h.execPushQuotaProceed,
    h.execPostResume, h.execQueueWaitLong, h.execFabOutSend, h.execBarrierEntryCount, h.execDmaDescriptorStart, h.execDmaDescriptorComplete,
    h.execImemLoadComplete, h.execSpmEccWriteback, h.execImemEccWriteback, h.execReadData, h.execWriteAck, h.execFabricRequestTimeout,
    h.execLinkFlitReceive, h.execLinkAck, h.execLinkNak, h.execLinkCredit, h.execQmsg, h.execQmsgAck (place := 0), h.execQmsgCredit (place := 0),
    h.execVote, h.execDecision, h.execArrive, h.execRelease, h.execVoteSend, h.execCommitPoint, h.execDeadline, h.execRootGuardDecide,
    h.execDecisionApply, h.execConsistVoteLost, h.execCkptStall, h.execRollbackComplete, h.execTime, h.execHoldoverTimeout, h.execSlewEnd,
    h.execMerSlotFire, h.execMwaitDue, h.execStreamTakesSwitch, h.execCkptResume (io := ()), h.execCkptBlockCopy (io := ()), h.execCkptDone,
    h.execRestore, h.execRestoreDone (trailer := ()) (records := ()), h.execAbandon, h.execOverride, h.execCkeConfigWrite, h.execCalSwap,
    h.execCalTrialEnd, h.execCalWindowRelease, h.execBistStart, h.execBistDone, h.execStrmStart, h.execStrmStop, h.execStopBoundary, h.execStrmHalt,
    h.execHostHalt, h.execStrmReset, h.execStreamResetDone, h.execCohalt, h.execImemSwitch, h.execImemHtagWrite, h.execImemHaddrWrite, h.execPostAck,
    h.execPostSlotRead, h.execQctxW0Write, h.execCsuShadowWrite, h.execCsuVgWrite, h.execBarWrite, h.execMerSlotCtrlWrite, h.execRepRecordWrite,
    h.execDbgModeWrite, h.execEvTestWrite, h.execPerfClear, h.execSpmEcccntWrite, h.execPerfCounterWrap, h.execRegisterWrite, h.execCsrRd,
    h.execCsrWr, h.execRingForward, h.execEvent, h.execTrace, h.execBypassClose, h.execBypassOpen, h.execBypassCsrRequest (data := 0),
    h.execKeyDelivery, h.execUnlockTimeout, h.execLcProvision, h.execLcSecure, h.execLcUnlock, h.execLcRetire, h.execIdResetKey,
    h.execColdResetAssert, h.execColdResetRelease, h.execAclkLock, h.execWarmResetAssert, h.execWarmResetRelease, h.execWipeComplete,
    h.execPwrGntChange, h.execPwrReqStep, h.execVddcReqStep, h.execDroopTrip, h.execCanaryStretch, h.execLockstepEnter, h.execLockstepExit,
    h.execTpReset, h.execWsBypass, h.execWsExtest, h.execWsPreload, h.execWsClamp, h.execWsSafe, h.execWsIntestScan, h.execMxId, h.execMxIjtag,
    h.execScratchpadScalarAccess, h.execBypassForward, h.execWrapperSerialShift, h.execDroopTripEnd]

/-! ### Tick -/

theorem merTick (h : Carries s t) : Carries s t.merTick := .ite h (.ite h.modMer.modMer h.of_parts)
theorem waitTick (h : Carries s t) {st} : Carries s (t.waitTick st) := .ite h.modStr.perf h
theorem rollTick (h : Carries s t) {st} : Carries s (t.rollTick st) := .ite h h.modCsu

theorem countTick (h : Carries s t) : Carries s t.countTick := by
  unfold State.countTick
  extract_lets s1 s2
  have h1 : Carries s s1 := h.perf.merTick.waitTick.waitTick
  have h2 : Carries s s2 := h1.rollTick.rollTick.stretchTick
  exact .ite h2.perf h2

theorem tick (h : Carries s t) : Carries s t.tick := .ite h.modPins.countTick.reqSlot.ckeRun.restoreRun h.modPins

/-! ### Step -/

/-- What a step answers carries on the invariants of O5 and O6. -/
theorem step (h : Carries s t) : CarriesOut s (step t) := by
  unfold Machine.step
  split
  exacts [h.tick, Carries.exec h.of_parts]

end Carries

/-! ### The two invariants -/

theorem State.boundsWf_iff (s : State) : s.boundsWf ↔
    TicketsWf s.qsy ∧ s.sA.loops.length ≤ 4 ∧ s.sX.loops.length ≤ 4 ∧ TagsWf s.fab.reads ∧ TagsWf s.fab.writes := by
  constructor
  · rintro ⟨hrise, htickets, hloops, htags⟩
    exact ⟨⟨hrise, htickets⟩, hloops .a, hloops .x, htags _ (by simp), htags _ (by simp)⟩
  · rintro ⟨⟨hrise, htickets⟩, hloopsA, hloopsX, hreads, hwrites⟩
    refine ⟨hrise, htickets, fun st => ?_, fun l hl => ?_⟩
    · cases st
      exacts [hloopsA, hloopsX]
    · simp only [List.mem_cons, List.not_mem_nil, or_false] at hl
      obtain rfl | rfl := hl
      exacts [hreads, hwrites]

/-- The state after a step carries what the state before it had. -/
theorem Carries.of_step {s t : State} (h : Machine.step s = .next t) : Carries s t := by
  have hout := (Carries.refl s).step
  rwa [h] at hout

/-- Settles O5, through what every function of the model leaves of the two memories. -/
theorem stepKeepsMemoriesCanonical : Obligations.StepKeepsMemoriesCanonical := by
  unfold Obligations.StepKeepsMemoriesCanonical
  intro s t hs hstep
  have hcarry := Carries.of_step hstep
  rw [State.memWf, Bool.and_eq_true] at hs ⊢
  exact ⟨hcarry.mem hs.1, hcarry.rows hs.2⟩

/-- Settles O6, through what every function of the model leaves of the tickets, the loop levels and the request tags. -/
theorem stepKeepsTicketsLoopsAndTags : Obligations.StepKeepsTicketsLoopsAndTags := by
  unfold Obligations.StepKeepsTicketsLoopsAndTags
  intro s t hs hstep
  have hcarry := Carries.of_step hstep
  rw [State.boundsWf_iff] at hs ⊢
  obtain ⟨hqsy, hloopsA, hloopsX, hreads, hwrites⟩ := hs
  exact ⟨hcarry.qsy hqsy, hcarry.loopsA hloopsA, hcarry.loopsX hloopsX, hcarry.reads hreads, hcarry.writes hwrites⟩

end Sys2Proof.Machine
end

section
/-!
PROOFS. The rules of a context: what a change of it, a push and a taken entry leave, and O21.
-/

namespace Sys2Proof.Machine

/-! ### Contexts -/

@[simp] theorem State.ctx_modCtx_same (s : State) (n : Nat) (f : Ctx → Ctx) : (s.modCtx n f).ctx n = f (s.ctx n) := by
  simp [State.ctx, State.modCtx, tmod]

theorem State.ctx_modCtx_other (s : State) {n m : Nat} (f : Ctx → Ctx) (h : m ≠ n) : (s.modCtx n f).ctx m = s.ctx m := by
  simp [State.ctx, State.modCtx, tmod, tget_tset, Ne.symm h]

/-- The queues apart, a change of a context leaves the state as it was. -/
theorem State.modCtx_frame (s : State) (n : Nat) (f : Ctx → Ctx) : { s.modCtx n f with qsy := s.qsy } = s := rfl

/-! ### Pushes -/

/-- An entry is held where its ticket is new and less than half the space ahead of ET (06 R150). -/
theorem State.hold_new {s : State} {n : Nat} {e : Entry} (hahead : (e.tkt + 65536 - (s.ctx n).et) % 65536 < 32768)
    (hnew : ∀ x ∈ (s.ctx n).entries, x.tkt ≠ e.tkt) : s.hold n e = s.modCtx n fun c => { c with entries := c.entries ++ [e] } := by
  have hdrop : ¬ ((decide ((e.tkt + 65536 - (s.ctx n).et) % 65536 ≥ 32768) || (s.ctx n).entries.any fun x => x.tkt = e.tkt) = true) := by
    simp only [Bool.or_eq_true, decide_eq_true_eq, List.any_eq_true, not_or, not_exists, not_and]
    exact ⟨by omega, hnew⟩
  unfold State.hold
  exact if_neg hdrop

/-- Any other ticket is a fault (06 R150). -/
theorem State.hold_stale {s : State} {n : Nat} {e : Entry}
    (h : (e.tkt + 65536 - (s.ctx n).et) % 65536 ≥ 32768 ∨ ∃ x ∈ (s.ctx n).entries, x.tkt = e.tkt) : s.hold n e = s.ticketFault n e.tkt := by
  have hdrop : (decide ((e.tkt + 65536 - (s.ctx n).et) % 65536 ≥ 32768) || (s.ctx n).entries.any fun x => x.tkt = e.tkt) = true := by
    simpa only [Bool.or_eq_true, decide_eq_true_eq, List.any_eq_true] using h
  unfold State.hold
  exact if_pos hdrop

/-- Without a consumer, a ticket fault changes the context only. -/
theorem State.ticketFault_idle {s : State} {n t : Nat} (h : (s.ctx n).cons = []) :
    s.ticketFault n t = s.modCtx n fun c => { c with ordflt := true, badTkt := t, cons := [] } := by
  simp [State.ticketFault, h]

/-- A push with NT as its ticket. -/
theorem State.pushNow_next {s : State} {n : Nat} {e : Entry} (hahead : ((s.ctx n).nt + 65536 - (s.ctx n).et) % 65536 < 32768)
    (hnew : ∀ x ∈ (s.ctx n).entries, x.tkt ≠ (s.ctx n).nt) :
    s.pushNow n none e = (s.modCtx n fun c => { c with nt := (c.nt + 1) % 65536 }).modCtx n fun c =>
      { c with entries := c.entries ++ [{ e with tkt := (s.ctx n).nt }] } := by
  refine State.hold_new (s := s.modCtx n fun c => { c with nt := (c.nt + 1) % 65536 }) (e := { e with tkt := (s.ctx n).nt }) ?_ ?_
  · rw [State.ctx_modCtx_same]
    exact hahead
  · rw [State.ctx_modCtx_same]
    exact hnew

/-- An entry that came from no other core is taken from its context only. -/
theorem State.takeHead_own {s : State} {n : Nat} {e : Entry} (h : e.src = none) :
    s.takeHead n e = s.modCtx n fun c => { c with et := (c.et + 1) % 65536, entries := c.entries.filter fun x => x.tkt ≠ e.tkt } := by
  simp [State.takeHead, h]

/-- Settles O21, by the rules of a push and of a taken entry. -/
theorem ticketsOrderEntries : Obligations.TicketsOrderEntries := by
  unfold Obligations.TicketsOrderEntries
  refine fun s n e => ⟨fun hahead hnew => ?_, fun hsrc => ?_, fun t hcons hbad => ?_⟩
  · rw [State.pushNow_next hahead hnew]
    refine ⟨by simp, by simp, by simp, fun m hm => ?_, rfl⟩
    rw [State.ctx_modCtx_other _ _ hm, State.ctx_modCtx_other _ _ hm]
  · rw [State.takeHead_own hsrc]
    exact ⟨by simp, by simp, fun m hm => State.ctx_modCtx_other _ _ hm, rfl⟩
  · have hpush : s.pushNow n (some t) e = s.modCtx n fun c => { c with ordflt := true, badTkt := t, cons := [] } :=
      (State.hold_stale (e := { e with tkt := t }) hbad).trans (State.ticketFault_idle hcons)
    rw [hpush]
    simp

end Sys2Proof.Machine
end

section
/-!
PROOFS. A stream's push, and O20.
-/

namespace Sys2Proof.Machine

/-! ### The entry of a QPUSH -/

theorem qpushEntry_none (s : State) (st : Sid) {c : Slot} (h : c.f 30 25 = 0) : qpushEntry s st c = (s, ticketOnly) := by
  simp [qpushEntry, h]

theorem qpushEntry_reg (s : State) (st : Sid) {c : Slot} (hlow : 8 ≤ c.f 30 25) (hhigh : c.f 30 25 ≤ 15) :
    qpushEntry s st c = (s, mkEntry [⟨BitVec.ofNat 512 ((s.str st).rdN (c.f 30 25 - 8)).toNat, false, .good⟩]) := by
  have hsel : c.f 30 25 ≠ 0 := by omega
  simp [qpushEntry, hsel, isN, hlow, hhigh]

theorem Form.length_byteAddrs (f : Form) : f.byteAddrs.length = f.count * fmtBytes f.ty := by
  simp [Form.byteAddrs, upto, List.length_flatMap]

/-- Words of single bytes: each holds one of them. -/
theorem byte_of_mem_wordsOf {l : List Nat} {w : Nat} (h : w ∈ wordsOf (l.map fun a => (a, 1))) : ∃ a ∈ l, a / 8 = w := by
  simp only [wordsOf, List.mem_eraseDups, List.mem_flatMap, List.mem_map] at h
  obtain ⟨_, ⟨a, ha, rfl⟩, hw⟩ := h
  have hone : (a + 1 - 1) / 8 + 1 - a / 8 = 1 := by omega
  refine ⟨a, ha, ?_⟩
  simpa [hone, upto, eq_comm] using hw

/-- Reads in place of good words correct nothing. -/
theorem State.touchWords_inPlace {s : State} (hA : s.cA.log = []) (hX : s.cX.log = []) (viewer : Option Sid) {l : List Nat}
    (hgood : ∀ w ∈ l, s.spm.eccW w = .good) : s.touchWords viewer l = s := by
  induction l with
  | nil => rfl
  | cons w l ih =>
    have hword : s.touchView viewer (8 * w) 8 = s := State.touchView_good hA hX _ fun i hi => by
      rw [Spm.eccAt, show (8 * w + i) / 8 = w by omega]
      exact hgood w (by simp)
    rw [State.touchWords, List.foldl_cons, hword]
    exact ih fun w hw => hgood w (by simp [hw])

/-- The cars of bytes that fill them. -/
theorem carsOf_map {α : Type} (f : α → Byte) {l : List α} (h : l.length % 64 = 0) : carsOf (l.map f) =
    (upto (l.length / 64)).map fun i => ⟨BitVec.ofNat 512 (leNat (((l.drop (64 * i)).take 64).map f)), false, .good⟩ := by
  have hcars : ceilDiv l.length 64 = l.length / 64 := by
    simp only [ceilDiv]
    omega
  simp [carsOf, hcars, List.map_drop, List.map_take]

/-- The entry of a form whose words hold no error and belong to no consist. -/
theorem qpushEntry_form {s : State} {st : Sid} {c : Slot} (hform : isForm (c.f 30 25) = true) (hA : s.cA.log = []) (hX : s.cX.log = [])
    (hlen : (selForm (s.str st).regs c (c.f 30 25) 0).byteAddrs.length % 64 = 0)
    (hgood : ∀ a ∈ (selForm (s.str st).regs c (c.f 30 25) 0).byteAddrs, s.spm.eccAt a = .good) :
    qpushEntry s st c = (s, mkEntry (carsOf ((selForm (s.str st).regs c (c.f 30 25) 0).byteAddrs.map s.spm.byte))) := by
  have hsel : c.f 30 25 ≠ 0 ∧ isN (c.f 30 25) = false := by
    simp only [isForm, Bool.or_eq_true, decide_eq_true_eq] at hform
    obtain h | h := hform <;> simp [h, isN]
  simp only [qpushEntry, hsel, State.viewAddr_inPlace hA hX]
  generalize (selForm (s.str st).regs c (c.f 30 25) 0).byteAddrs = addrs at hlen hgood
  have htouch : s.touchWords (some st) (wordsOf (addrs.map fun a => (a, 1))) = s := by
    refine State.touchWords_inPlace hA hX _ fun w hw => ?_
    obtain ⟨a, ha, rfl⟩ := byte_of_mem_wordsOf hw
    exact hgood a ha
  have hnone : addrs.filter (fun a => s.spm.eccAt (s.viewAddr (some st) a) = .bad) = [] := by
    simp only [List.filter_eq_nil_iff, decide_eq_true_eq, State.viewAddr_inPlace hA hX]
    exact fun a ha => by rw [hgood a ha]; decide
  have hbad : ∀ i, (((addrs.drop (64 * i)).take 64).any fun a => decide (s.spm.eccAt a = .bad)) = false := by
    intro i
    simp only [List.any_eq_false, decide_eq_true_eq]
    exact fun a ha => by rw [hgood a (List.mem_of_mem_drop (List.mem_of_mem_take ha))]; decide
  simp [htouch, hnone, hbad, carsOf_map _ hlen]

/-! ### The push itself -/

/-- Outside a consist's held entries, a push proceeds or waits. -/
theorem pushStep_plain {s : State} {st : Sid} {n : Nat} (hclass : s.ctxClass n ≠ 5 ∨ ((s.csu st).st ≠ .opened ∧ (s.csu st).st ≠ .doomed))
    (tkt : Option Nat) (e : Entry) : pushStep s st n tkt e =
    if (s.ctx n).prod.isEmpty && s.canAlloc n e.cars.length then .ok (s.pushNow n tkt e) []
    else .wait (s.modCtx n fun c => { c with prod := c.prod ++ [⟨sidNat st, tkt, e⟩] }) (.push n) [] := by
  have hdoomed : ¬ (s.ctxClass n = 5 ∧ (s.csu st).st = .doomed) := fun h => hclass.elim (· h.1) (·.2 h.2)
  have hopened : ¬ (s.ctxClass n = 5 ∧ (s.csu st).st = .opened) := fun h => hclass.elim (· h.1) (·.1 h.2)
  simp [pushStep, hdoomed, hopened]

/-- A QPUSH whose stream's own writes are done pushes its entry, or waits. -/
theorem runQpush_step {s : State} {st : Sid} {c : Slot} {e : Entry}
    (hheld : s.pushHeld st (if isForm (c.f 30 25) then (selForm (s.str st).regs c (c.f 30 25) 0).byteAddrs else []) = false)
    (hentry : qpushEntry s st c = (s, e)) :
    runQpush s st c = pushStep s st (qctx (s.str st) c) (if bit c.base 34 then some (fld ((s.str st).rdN (c.f 33 31)) 15 0) else none) e := by
  simp [runQpush, hheld, hentry]

/-- A QPUSH of a form covers whole cars (08 R219). -/
theorem Clear.formLength {s : State} {st : Sid} {c : Slot} (h : Clear qpushSem s st c) (hform : isForm (c.f 30 25) = true) :
    (selForm (s.str st).regs c (c.f 30 25) 0).byteAddrs.length % 64 = 0 := by
  have hregs : ((s.began st).str st).regs = (s.str st).regs := by cases st <;> rfl
  have hmem : chk 5 (let n := (selForm (s.str st).regs c (c.f 30 25) 0).count * fmtBytes (selForm (s.str st).regs c (c.f 30 25) 0).ty
      decide (n < 64) || decide (n > 1024) || decide (n % 64 ≠ 0)) 6 ∈ chkQpush (s.began st) st c := by
    simp [chkQpush, hform, hregs]
  have hgood := firstFail_none h.sound.checks (List.mem_append_left _ hmem) (show 5 < 7 by decide)
  rw [Form.length_byteAddrs]
  simp only [chk, Bool.or_eq_false_iff, decide_eq_false_iff_not, ne_eq, not_not] at hgood
  exact hgood.2

/-- The entry that the statement of O20 names. -/
theorem Clear.entry {s : State} {st : Sid} {c : Slot} {e : Entry} (h : Clear qpushSem s st c)
    (hkind : (c.f 30 25 = 0 ∧ e = mkEntry [⟨0, false, .good⟩]) ∨
      (8 ≤ c.f 30 25 ∧ c.f 30 25 ≤ 15 ∧ e = mkEntry [⟨BitVec.ofNat 512 ((s.str st).rdN (c.f 30 25 - 8)).toNat, false, .good⟩]) ∨
      (isForm (c.f 30 25) = true ∧ s.cA.log = [] ∧ s.cX.log = [] ∧
        (∀ a ∈ (selForm (s.str st).regs c (c.f 30 25) 0).byteAddrs, s.spm.eccAt a = .good) ∧
        e = mkEntry (carsOf ((selForm (s.str st).regs c (c.f 30 25) 0).byteAddrs.map s.spm.byte)))) :
    qpushEntry (s.began st) st c = (s.began st, e) := by
  have hregs : ((s.began st).str st).regs = (s.str st).regs := by cases st <;> rfl
  obtain ⟨hsel, rfl⟩ | ⟨hlow, hhigh, rfl⟩ | ⟨hform, hA, hX, hgood, rfl⟩ := hkind
  · exact qpushEntry_none _ _ hsel
  · rw [qpushEntry_reg _ _ hlow hhigh]
    cases st <;> rfl
  · have hentry := qpushEntry_form (s := s.began st) (st := st) hform (by simpa using hA) (by simpa using hX)
      (by rw [hregs]; exact h.formLength hform) (by rw [hregs, State.began_spm]; exact hgood)
    rw [hentry, hregs, State.began_spm]

/-- Settles O20, by the entry of a QPUSH and what becomes of a push. -/
theorem qpushPushesOrWaits : Obligations.QpushPushesOrWaits := by
  unfold Obligations.QpushPushesOrWaits
  intro s st c0 e c hclear t n sel addrs tkt hkind held
  have hentry := hclear.entry hkind
  have hstep : held = false → qpushSem.run (s.began st) st c (s.loneLw st c) = pushStep (s.began st) st n tkt e := fun hheld => by
    refine (runQpush_step ?_ hentry).trans ?_
    · cases st <;> exact hheld
    · cases st <;> rfl
  have hplain : (s.ctxClass n ≠ 5 ∨ ((s.csu st).st ≠ .opened ∧ (s.csu st).st ≠ .doomed)) →
      (s.began st).ctxClass n ≠ 5 ∨ (((s.began st).csu st).st ≠ .opened ∧ ((s.began st).csu st).st ≠ .doomed) := by
    cases st <;> exact id
  have hmay : (((s.began st).ctx n).prod.isEmpty && (s.began st).canAlloc n e.cars.length) = ((s.ctx n).prod.isEmpty && s.canAlloc n e.cars.length) := by
    cases st <;> rfl
  refine ⟨fun hheld => issueRow_wait (l := []) hclear ?_, fun hheld hclass => ⟨fun hprod halloc => ?_, fun hwait => ?_⟩⟩
  · have hheldB : (s.began st).pushHeld st (if isForm (c.f 30 25) then (selForm ((s.began st).str st).regs c (c.f 30 25) 0).byteAddrs else []) = true := by
      cases st <;> exact hheld
    exact if_pos hheldB
  · have hrun : qpushSem.run (s.began st) st c (s.loneLw st c) = .ok ((s.began st).pushNow n tkt e) [] := by
      rw [hstep hheld, pushStep_plain (hplain hclass), hmay, hprod, halloc]
      rfl
    refine (issueRow_ok hclear hrun).trans ?_
    rw [CmdSem.left_nil]
  · refine issueRow_wait (l := []) hclear ?_
    rw [hstep hheld, pushStep_plain (hplain hclass), hmay, if_neg]
    simpa [imp_iff_not_or] using hwait

end Sys2Proof.Machine
end

section
/-!
PROOFS. What writes to the scratchpad and a taken entry leave alone, aborts and rollbacks included: both streams and the VE.
-/

namespace Sys2Proof.Machine

set_option Elab.async false

/-- From `s` to `t` neither stream changes, nor what the VE has to do. -/
structure Calm (s t : State) : Prop where
  sA : t.sA = s.sA
  sX : t.sX = s.sX
  vec : t.vec = s.vec

namespace Calm

variable {s t u : State}

theorem refl (s : State) : Calm s s := ⟨rfl, rfl, rfl⟩

theorem of_parts (h : Calm s t) (hA : u.sA = t.sA := by rfl) (hX : u.sX = t.sX := by rfl) (hvec : u.vec = t.vec := by rfl) : Calm s u :=
  ⟨hA.trans h.sA, hX.trans h.sX, hvec.trans h.vec⟩

theorem ite {c : Prop} [Decidable c] {t' : State} (h : Calm s t) (h' : Calm s t') : Calm s (if c then t else t') := by
  split
  exacts [h, h']

theorem pair {α : Type} {x : α} (h : Calm s t) : Calm s (t, x).1 := h

theorem foldl {α : Type} {f : State → α → State} {l : List α} (h : Calm s t) (hf : ∀ {u x}, Calm s u → Calm s (f u x)) : Calm s (l.foldl f t) := by
  induction l generalizing t with
  | nil => exact h
  | cons x l ih => exact ih (hf h)

theorem wr {off v} (h : Calm s t) : Calm s (t.wr off v) := h.of_parts
theorem setRf {off hi lo v} (h : Calm s t) : Calm s (t.setRf off hi lo v) := h.of_parts
theorem modLink {ch f} (h : Calm s t) : Calm s (t.modLink ch f) := h.of_parts
theorem modCtx {n f} (h : Calm s t) : Calm s (t.modCtx n f) := h.of_parts
theorem freeWord (h : Calm s t) : Calm s t.freeWord.1 := h.of_parts

theorem modCsu {st : Sid} {f : Csu → Csu} (h : Calm s t) : Calm s (t.modCsu st f) := by
  cases st <;> exact h.of_parts

theorem incRf (h : Calm s t) {off hi lo} : Calm s (t.incRf off hi lo) := h.setRf
theorem raise (h : Calm s t) {src} : Calm s (t.raise src) := .ite h.of_parts h.setRf
theorem raiseCause (h : Calm s t) {src cause} : Calm s (t.raiseCause src cause) := h.raise.setRf
theorem faultPut (h : Calm s t) {i w loc} : Calm s (t.faultPut i w loc) := h.wr.wr.wr.wr
theorem faultLog (h : Calm s t) {w loc} : Calm s (t.faultLog w loc) := .ite h.incRf h.faultPut.setRf.raise
theorem fault (h : Calm s t) {unit kind who loc} : Calm s (t.fault unit kind who loc) := h.faultLog
theorem noteAddr (h : Calm s t) {a} : Calm s (t.noteAddr a) := .ite h h.wr
theorem noteUncorr (h : Calm s t) {who a} : Calm s (t.noteUncorr who a) := h.noteAddr.fault
theorem dirty (h : Calm s t) {fab a n} : Calm s (t.dirty fab a n) := .ite h h.of_parts

theorem poke {a bs p} (h : Calm s t) : Calm s (t.poke a bs p) :=
  dirty (t := { t with spm := t.spm.poke a bs p }) h.of_parts

theorem bankCount (h : Calm s t) {w} : Calm s (t.bankCount w) := by
  unfold State.bankCount
  extract_lets bank off lo old s1 s2
  have h1 : Calm s s1 := h.setRf
  have h2 : Calm s s2 := h1.raise
  refine .ite ?_ h1
  split
  · exact .ite h2 h2.setRf.raiseCause
  · exact h2

theorem touch (h : Calm s t) {a n} : Calm s (t.touch a n) := h.foldl fun {x y} hu => .ite (of_parts (t := x.bankCount y) hu.bankCount) hu
theorem hurry (h : Calm s t) {p} : Calm s (t.hurry p) := .ite h h.of_parts
theorem stallOn (h : Calm s t) {who a p} : Calm s (t.stallOn who a p) := .ite h.hurry ((of_parts (t := t.hurry p) h.hurry).incRf)

theorem untagged (h : Calm s t) {side a bs poison} : Calm s (t.untagged side a bs poison) := by
  unfold State.untagged
  dsimp only
  split
  · split
    · exact h.poke.incRf.raise
    · exact h
  · split
    · refine .ite h.poke ?_
      refine .ite h.modCsu ?_
      split
      · exact h.poke.poke
      · exact h.poke
    · exact h.poke

theorem flushWaiting (h : Calm s t) {st} : Calm s (t.flushWaiting st) := by
  unfold State.flushWaiting
  dsimp only
  refine h.modCsu.foldl ?_
  intro x y hu
  split
  · exact hu.stallOn.modCsu
  · exact hu.untagged

theorem restoreLog (h : Calm s t) {st} : Calm s (t.restoreLog st) := by
  unfold State.restoreLog
  extract_lets log base s1
  have h1 : Calm s s1 := by
    refine h.foldl ?_
    intro x y hu
    dsimp only
    split
    · exact hu.noteUncorr.poke
    · exact hu.touch.poke
  exact h1.modCsu

theorem lastAbort (h : Calm s t) {st} : Calm s (t.lastAbort st) := h.wr
theorem abortChans (h : Calm s t) {id} : Calm s (t.abortChans id) := h.of_parts
theorem dropHeld (h : Calm s t) {st} : Calm s (t.dropHeld st) := .ite h.modCsu.abortChans h.modCsu
theorem replaceVote (h : Calm s t) {vg tick code} : Calm s (t.replaceVote vg tick code) := h.of_parts
theorem rollBack (h : Calm s t) {st next} : Calm s (t.rollBack st next) := h.dropHeld.restoreLog.lastAbort.modCsu.flushWaiting
theorem rollBackDue (h : Calm s t) {st next} : Calm s (t.rollBackDue st next) := .ite h.modCsu h.rollBack

theorem latchAbort (h : Calm s t) {st code detail} : Calm s (t.latchAbort st code detail) := by
  unfold State.latchAbort
  extract_lets c latched
  have h1 : Calm s latched := h.modCsu.raise
  refine .ite h ?_
  split
  · exact h1.rollBackDue
  · exact .ite (.ite h1.replaceVote h1) h1.rollBackDue
  · exact h

theorem abort (h : Calm s t) {st code detail} : Calm s (t.abort st code detail) := .ite (.ite h.modCsu h) h.latchAbort

theorem endBeat (h : Calm s t) {st} : Calm s (t.endBeat st) := by
  unfold State.endBeat
  extract_lets m s1
  have h1 : Calm s s1 := h.modCsu
  clear_value m s1
  split
  · exact h1.latchAbort
  · exact h1

theorem asBeat {f : State → State} (h : Calm s t) (hf : ∀ {u}, Calm s u → Calm s (f u)) : Calm s (t.asBeat f) :=
  (hf h.modCsu.modCsu).endBeat.endBeat

theorem dirCheck (h : Calm s t) {st} : Calm s (t.dirCheck st) := .ite h h.modCsu.freeWord.fault.abort

theorem logWord (h : Calm s t) {st w} : Calm s (t.logWord st w).1 := by
  unfold State.logWord
  dsimp only
  split
  · exact h
  · split
    · exact h.abort
    · split
      · exact h.noteUncorr.abort
      · exact h.touch.poke.modCsu.pair

theorem writeWord (h : Calm s t) {side cs a bs poison} : Calm s (t.writeWord side cs a bs poison) := by
  unfold State.writeWord
  dsimp only
  refine .ite h ?_
  split
  · exact .ite h.abort (.ite h.logWord.poke h.logWord)
  · exact h.untagged

theorem write (h : Calm s t) {side cs a bs poison} : Calm s (t.write side cs a bs poison) := h.dirCheck.dirCheck.foldl fun hu => hu.writeWord
theorem writePairs (h : Calm s t) {side cs l poison} : Calm s (t.writePairs side cs l poison) := h.foldl fun hu => hu.write
theorem pumpLink (h : Calm s t) {ch} : Calm s (t.pumpLink ch) := .ite h.modLink h
theorem send (h : Calm s t) {ch body} : Calm s (t.send ch body) := .ite h.modLink.pumpLink h

theorem takeHead (h : Calm s t) {n e} : Calm s (t.takeHead n e) := by
  unfold State.takeHead
  extract_lets s1
  have h1 : Calm s s1 := h.modCtx
  split
  · exact h1.send
  · exact h1

/-- What is under way to a stream's registers stays so. -/
theorem pendRegs (h : Calm s t) (st : Sid) : t.pendRegs st = s.pendRegs st := by
  cases st <;> simp [State.pendRegs, State.str, h.sA, h.sX, h.vec]

end Calm
end Sys2Proof.Machine
end


section
/-!
PROOFS. A stream's pop, and O22.
-/

namespace Sys2Proof.Machine

/-! ### Entries without an error -/

/-- An entry with its cars corrected. -/
def Entry.corrected (e : Entry) : Entry := { e with cars := e.cars.map fun c => { c with ecc := .good } }

/-- No car is poisoned, and none fails its check. -/
def Entry.sound (e : Entry) : Prop := e.cars.any (fun k => k.poison || decide (k.ecc = .bad)) = false

theorem Entry.sound_car {e : Entry} (h : e.sound) {k : Car} (hk : k ∈ e.cars) : k.poison = false ∧ k.ecc ≠ .bad := by
  have hcar := List.any_eq_false.mp h k hk
  simpa using hcar

theorem State.readCars_sound {e : Entry} (s : State) (who : Option (Sid × W16)) (h : e.sound) : s.readCars who e = (s, e.corrected, none) := by
  have hnone : (e.cars.filter fun c => decide (c.ecc = .bad)) = [] := by
    simp only [List.filter_eq_nil_iff, decide_eq_true_eq]
    exact fun k hk => (e.sound_car h hk).2
  have hfind : (e.cars.find? fun c => c.poison || decide (c.ecc = .bad)) = none := by
    rw [List.find?_eq_none]
    exact fun k hk => by simp [e.sound_car h hk]
  have hcars : (e.cars.map fun c => { c with poison := c.poison || decide (c.ecc = .bad), ecc := .good }) = e.corrected.cars :=
    List.map_congr_left fun k hk => by simp [e.sound_car h hk]
  simp only [State.readCars, hnone, hfind, hcars]
  rfl

theorem Entry.corrected_poisoned {e : Entry} (h : e.sound) : e.corrected.poisoned = false := by
  simp only [Entry.poisoned, Entry.corrected, List.any_map, List.any_eq_false, Function.comp_apply]
  exact fun k hk => by simp [e.sound_car h hk]

theorem Entry.corrected_bytes (e : Entry) : e.corrected.bytes = e.bytes := by
  simp [Entry.bytes, Entry.corrected, List.flatMap_map]

theorem State.takeHead_corrected (s : State) (n : Nat) (e : Entry) : s.takeHead n e.corrected = s.takeHead n e := by
  have hlen : e.corrected.cars.length = e.cars.length := List.length_map _
  unfold State.takeHead
  rw [hlen]
  rfl

theorem State.takeHead_csu (s : State) (n : Nat) (e : Entry) (st : Sid) : (s.takeHead n e).csu st = s.csu st := by
  unfold State.takeHead State.send State.pumpLink
  dsimp only
  split
  · split
    · split <;> cases st <;> rfl
    · cases st <;> rfl
  · cases st <;> rfl

theorem State.csu_began (s : State) (st st' : Sid) : (s.began st).csu st' = s.csu st' := by cases st <;> cases st' <;> rfl

/-- The tag of a stream's consist as a beat's writes see it. -/
theorem State.asBeat_tagNow (s : State) (st : Sid) (l : List (Nat × Byte)) :
    (s.asBeat fun u => u.writePairs (some st) (u.csu st).tagNow l) = s.asBeat fun u => u.writePairs (some st) (s.csu st).tagNow l := by
  cases st <;> rfl

/-! ### Delivery -/

/-- The write of an entry's length. -/
def lenWr (k : Cons) (e : Entry) : List RegWr := match k.lenReg with | some r => [⟨0, r, e.cars.length⟩] | none => []

/-- The first 32 bits of an entry. -/
def Entry.firstWord (e : Entry) : Nat := match e.cars with | c :: _ => fld c.data 31 0 | [] => 0

theorem Entry.corrected_firstWord (e : Entry) : e.corrected.firstWord = e.firstWord := by
  unfold Entry.firstWord Entry.corrected
  cases e.cars <;> rfl

section
variable {s : State} {n : Nat} {k : Cons} {e : Entry} (h : e.sound)
include h

/-- A register takes the first word. -/
theorem State.deliver_reg {r : Nat} (hdst : k.dst = .reg r) : s.deliver n k e = (s.takeHead n e, lenWr k e ++ [⟨0, r, e.firstWord⟩]) := by
  simp only [State.deliver, s.readCars_sound _ h, e.corrected_poisoned h, State.takeHead_corrected, hdst, Bool.false_eq_true, if_false]
  rw [← e.corrected_firstWord]
  rfl

theorem State.deliver_mem {addrs : List Nat} (hdst : k.dst = .mem addrs) :
    s.deliver n k e = ((s.takeHead n e).asBeat fun s => s.writePairs (some (natSid k.agent)) k.cs (addrs.zip e.bytes), lenWr k e) := by
  simp only [State.deliver, s.readCars_sound _ h, e.corrected_poisoned h, State.takeHead_corrected, e.corrected_bytes, hdst, Bool.false_eq_true, if_false]
  rfl

theorem State.deliver_drop (hdst : k.dst = .drop) : s.deliver n k e = (s.takeHead n e, lenWr k e) := by
  simp only [State.deliver, s.readCars_sound _ h, e.corrected_poisoned h, State.takeHead_corrected, hdst, Bool.false_eq_true, if_false]
  rfl

end

/-! ### The consumer's turn -/

/-- The consumer at the head takes the entry that is due. -/
theorem State.consumerTurn_due {s : State} {n : Nat} {k : Cons} {e : Entry} (hord : (s.ctx n).ordflt = false) (hhead : (s.ctx n).headEntry = some e)
    (hexpect : k.expect.getD (s.ctx n).et = (s.ctx n).et) (hblock : s.popBlock n k = none) : s.consumerTurn n k = some (s.deliver n k e) := by
  cases hk : k.expect with
  | none => simp [State.consumerTurn, hord, hk, hblock, hhead]
  | some t =>
    rw [hk, Option.getD_some] at hexpect
    simp [State.consumerTurn, hord, hk, hexpect, hhead]

theorem State.consumerTurn_missing {s : State} {n : Nat} {k : Cons} (hhead : (s.ctx n).headEntry = none)
    (hexpect : k.expect.getD (s.ctx n).et = (s.ctx n).et) : s.consumerTurn n k = none := by
  cases hk : k.expect with
  | none => simp [State.consumerTurn, hk, hhead]
  | some t =>
    rw [hk, Option.getD_some] at hexpect
    simp [State.consumerTurn, hk, hexpect, hhead]

theorem popStep_taken {s t : State} {n : Nat} {k : Cons} {ws : List RegWr} (hcons : (s.ctx n).cons = []) (hturn : s.consumerTurn n k = some (t, ws)) :
    popStep s n k = .ok t ws := by simp [popStep, hcons, hturn]

/-- Behind other consumers, or where the entry that is due is not there, a consumer is queued last. -/
theorem popStep_queued {s : State} {n : Nat} {k : Cons}
    (h : (s.ctx n).cons ≠ [] ∨ ((s.ctx n).headEntry = none ∧ k.expect.getD (s.ctx n).et = (s.ctx n).et)) :
    popStep s n k = .wait (s.modCtx n fun c => { c with cons := c.cons ++ [k] }) (.pop n) [] := by
  by_cases hcons : (s.ctx n).cons = []
  · obtain ⟨hhead, hexpect⟩ := h.resolve_left (not_not.mpr hcons)
    have hblock : s.popBlock n k = none := by
      unfold State.popBlock
      rw [hhead]
      split
      · contradiction
      · rfl
    simp [popStep, hcons, State.consumerTurn_missing hhead hexpect, State.stallPop, hblock]
  · simp [popStep, hcons]

/-! ### QPOP and QWAIT at issue -/

/-- The consumer of a QPOP, and of a QWAIT. -/
def popCons (s : State) (st : Sid) (c : Slot) : Cons :=
  { agent := sidNat st, dst := if isN (c.f 30 25) then .reg (c.f 30 25 - 8) else .mem (selForm (s.str st).regs c (c.f 30 25) 0).byteAddrs, expect := none,
    lenReg := if bit c.base 24 then some (c.f 23 21) else none, cs := (s.csu st).tagNow, tag := c.tag, lw := s.here st, slot := c.kind }
def waitCons (s : State) (st : Sid) (c : Slot) : Cons :=
  { agent := sidNat st, dst := .drop, expect := if bit c.base 34 then some (fld ((s.str st).rdN (c.f 33 31)) 15 0) else none,
    lenReg := none, cs := (s.csu st).tagNow, tag := c.tag, lw := s.here st, slot := c.kind }

theorem runQpop_began (s : State) (st : Sid) (c : Slot) :
    qpopSem.run (s.began st) st c (s.loneLw st c) = popStep (s.began st) (qctx (s.str st) c) (popCons s st c) := by cases st <;> rfl
theorem runQwait_began (s : State) (st : Sid) (c : Slot) :
    qwaitSem.run (s.began st) st c (s.loneLw st c) = popStep (s.began st) (qctx (s.str st) c) (waitCons s st c) := by cases st <;> rfl

theorem natSid_sidNat (st : Sid) : natSid (sidNat st) = st := by cases st <;> rfl

section
variable {s t : State} {st : Sid} {c : Slot} {m : CmdSem} (h : Clear m s st c)
include h

/-- What a command leaves where it goes on, where nothing but its own registers is to be written. -/
theorem Clear.left_calm {ws : List RegWr} (hcalm : Calm (s.began st) t) (hkeys : ∀ w ∈ ws, (w.kind, w.idx) ∈ m.dst c) : m.left st c t ws = t := by
  have hpend : t.pendRegs st = s.pendRegs st := (hcalm.pendRegs st).trans (by cases st <;> rfl)
  have hsettled := h.sound.settled
  unfold CmdSem.left
  split
  · refine supersede_settled ?_
    rw [hpend]
    simp only [hazard, List.any_eq_false, List.mem_append, List.mem_map] at hsettled ⊢
    rintro _ ⟨w, hw, rfl⟩
    exact hsettled _ (.inr (hkeys w hw))
  · rfl

/-- A context in whose service a pop may issue. -/
theorem Clear.inService (hchk : ordfltChk (s.began st) st c ∈ m.chk (s.began st) st c (s.loneLw st c)) :
    ((s.began st).ctx (qctx (s.str st) c)).ordflt = false := by
  have hqctx : qctx ((s.began st).str st) c = qctx (s.str st) c := by cases st <;> rfl
  have hgood := firstFail_none h.sound.checks (List.mem_append_left _ hchk) (show 6 < 7 by decide)
  rwa [ordfltChk, hqctx] at hgood

end

/-- The registers that a QPOP's writes name are those that it is to write. -/
theorem lenWr_mem_dst {s : State} {st : Sid} {c : Slot} {e : Entry} {w : RegWr} (hw : w ∈ lenWr (popCons s st c) e) : (w.kind, w.idx) ∈ qpopDst c := by
  unfold lenWr popCons at hw
  unfold qpopDst
  by_cases hlen : bit c.base 24 = true
  · rw [if_pos hlen] at hw
    simp_all
  · rw [if_neg hlen] at hw
    cases hw

/-- Settles O22, by the consumer's turn at an entry that is sound, and by its place in the queue. -/
theorem qpopAndQwaitTakeTheHead : Obligations.QpopAndQwaitTakeTheHead := by
  unfold Obligations.QpopAndQwaitTakeTheHead
  intro s st c0
  refine ⟨?_, ?_⟩
  · intro c hclear t n sel addrs lenReg late
    have hord := hclear.inService (by simp [qpopSem, chkQpop])
    have hctx : (s.began st).ctx n = s.ctx n := by cases st <;> rfl
    refine ⟨fun e hcons hhead hsound => ⟨fun hreg => ?_, fun hmem hblock => ?_⟩, fun hwait => ?_⟩
    · have hrun : qpopSem.run (s.began st) st c (s.loneLw st c) =
          .ok ((s.began st).takeHead n e) (lenWr (popCons s st c) e ++ [⟨0, sel - 8, e.firstWord⟩]) := by
        have hdst : (popCons s st c).dst = .reg (sel - 8) := if_pos hreg
        have hblock : (s.began st).popBlock n (popCons s st c) = none := by simp [State.popBlock, hdst]
        rw [runQpop_began]
        exact popStep_taken (hctx ▸ hcons) ((State.consumerTurn_due hord (hctx ▸ hhead) rfl hblock).trans (congrArg some (State.deliver_reg hsound hdst)))
      refine (issueRow_ok hclear hrun).trans ?_
      rw [hclear.left_calm (Calm.refl _).takeHead fun w hw => ?_]
      · rfl
      · obtain hlen | hlast := List.mem_append.mp hw
        · exact lenWr_mem_dst hlen
        · rw [List.mem_singleton.mp hlast]
          exact List.mem_append_right _ (by rw [if_pos hreg]; exact List.mem_singleton_self _)
    · have hrun : qpopSem.run (s.began st) st c (s.loneLw st c) = .ok
          (((s.began st).takeHead n e).asBeat fun s' => s'.writePairs (some st) (s.csu st).tagNow (addrs.zip e.bytes)) (lenWr (popCons s st c) e) := by
        have hdst : (popCons s st c).dst = .mem addrs := if_neg (by simpa using hmem)
        have hblockB : (s.began st).popBlock n (popCons s st c) = none := by
          unfold State.popBlock
          rw [hdst, hctx, hhead]
          cases st <;> exact hblock
        rw [runQpop_began]
        refine popStep_taken (hctx ▸ hcons) ((State.consumerTurn_due hord (hctx ▸ hhead) rfl hblockB).trans (congrArg some ?_))
        rw [State.deliver_mem hsound hdst, show natSid (popCons s st c).agent = st from natSid_sidNat st]
        rfl
      have hcalm : Calm (s.began st) (((s.began st).takeHead n e).asBeat fun s' => s'.writePairs (some st) (s.csu st).tagNow (addrs.zip e.bytes)) :=
        (Calm.refl _).takeHead.asBeat fun h => h.writePairs
      refine (issueRow_ok hclear hrun).trans ?_
      rw [hclear.left_calm hcalm fun w hw => lenWr_mem_dst hw, State.asBeat_tagNow, State.takeHead_csu, State.csu_began]
      rfl
    · refine issueRow_wait (l := []) hclear ?_
      rw [runQpop_began]
      exact popStep_queued (hctx ▸ hwait.imp_right fun hhead => ⟨hhead, rfl⟩)
  · intro c hclear t n expect
    have hord := hclear.inService (by simp [qwaitSem, chkQwait])
    have hctx : (s.began st).ctx n = s.ctx n := by cases st <;> rfl
    refine ⟨fun e hcons hhead hsound hexpect => ?_, fun hwait => ?_⟩
    · have hrun : qwaitSem.run (s.began st) st c (s.loneLw st c) = .ok ((s.began st).takeHead n e) [] := by
        rw [runQwait_began]
        exact popStep_taken (hctx ▸ hcons) ((State.consumerTurn_due hord (hctx ▸ hhead) (hctx ▸ hexpect) (by simp [State.popBlock, waitCons])).trans
          (congrArg some (State.deliver_drop hsound rfl)))
      refine (issueRow_ok hclear hrun).trans ?_
      rw [CmdSem.left_nil]
    · refine issueRow_wait (l := []) hclear ?_
      rw [runQwait_began]
      exact popStep_queued (hctx ▸ hwait)

end Sys2Proof.Machine
end

section
/-!
PROOFS. A waiting push whose ticket has gone stale, and O24.
-/

namespace Sys2Proof.Machine

/-- The entry of the waiting push: one car. -/
def staleEntry : Entry := mkEntry [⟨7, false, .good⟩]

/-- A context bound in memory whose due ticket is 0: stream A's push waits first, with ticket 40,000, which lies behind it, and stream X waits
for the entry that is due. -/
def staleCtx : Ctx :=
  { Ctx.zero with w0 := BitVec.ofNat 64 (2 ^ 60 + 8 * 2 ^ 28)
                  prod := [⟨0, some 40000, staleEntry⟩]
                  cons := [⟨1, .drop, none, none, none, 0, 0, 0⟩] }

/-- Stream A's wait for its push, in the one-row word at address 0. -/
def pushWait : Wait := ⟨.push 100, ⟨0, 0, 0, []⟩, 0, 16, none, [], []⟩

/-- Stream X's wait for the entry, in a word whose other command has written 7 to register N1: a result held back until the word is left. -/
def popWait : Wait := ⟨.pop 100, ⟨0, 0, 0, []⟩, 0, 16, none, [⟨0, 1, 7⟩], []⟩

/-- Both streams run and wait at context 100. -/
def stalePush : State :=
  { (State.reset.modStr .a fun t => { t with st := .running, wait := some pushWait }).modStr .x
      (fun t => { t with st := .running, wait := some popWait }) with qsy := [(100, staleCtx)] }

/-- The push is a ticket fault: it halts stream X, whose word's held-back result then stands. -/
theorem stalePush_haltsConsumer : ∃ u, exec (.pushQuotaProceed 100) stalePush = .next u ∧
    (u.ctx 100).ordflt = true ∧ (u.str .x).st = .halted ∧ (u.str .x).n ≠ (stalePush.str .x).n :=
  ⟨_, rfl, by decide +kernel, by decide +kernel, by decide +kernel⟩

/-- Refutes O24: the waiting push that is first and has room may carry a ticket that has gone stale. Its turn is then a ticket fault, which
halts the consumer that waits at the context, and the results of that consumer's word are written: registers change. -/
theorem not_queueEventsEndWaits : ¬ Obligations.QueueEventsEndWaits := by
  unfold Obligations.QueueEventsEndWaits
  intro h
  obtain ⟨hpush, -⟩ := h stalePush .a pushWait 100 (by decide +kernel)
  obtain ⟨t, ht, -, hregs, -⟩ := hpush (some 40000) staleEntry []
    (by decide +kernel) (by decide +kernel) (by decide +kernel) (by decide +kernel)
  obtain ⟨u, hu, -, -, hn⟩ := stalePush_haltsConsumer
  cases hu.symm.trans ht
  obtain ⟨-, hsame, -⟩ := hregs .x
  exact hn hsame

end Sys2Proof.Machine
end

section
/-!
PROOFS. The barriers, the fabric side and the pins stand through the end of a stream's wait (07 R170, R197).
-/

namespace Sys2Proof.Machine

/-- What a stream's own words and halts do not reach: the barriers, the fabric side and the pins. -/
def State.outside (s : State) : Bars × Fab × Pins := (s.bars, s.fab, s.pins)

theorem State.outside_eq {s t : State} : t.outside = s.outside ↔ t.bars = s.bars ∧ t.fab = s.fab ∧ t.pins = s.pins := by
  simp [State.outside]

@[simp] theorem State.modStr_outside (s : State) (st : Sid) (f : Stream → Stream) : (s.modStr st f).outside = s.outside := by cases st <;> rfl
@[simp] theorem State.wrRegs_outside (s : State) (st : Sid) (ws : List RegWr) : (s.wrRegs st ws).outside = s.outside := s.modStr_outside ..
@[simp] theorem State.bumpCc_outside (s : State) (st : Sid) : (s.bumpCc st).outside = s.outside := s.modStr_outside ..
@[simp] theorem State.wr_outside (s : State) (off : Nat) (v : W64) : (s.wr off v).outside = s.outside := rfl
@[simp] theorem State.setRf_outside (s : State) (off hi lo v : Nat) : (s.setRf off hi lo v).outside = s.outside := rfl
@[simp] theorem State.settleSwitch_outside (s : State) : s.settleSwitch.outside = s.outside := rfl
@[simp] theorem State.raise_outside (s : State) (src : Nat) : (s.raise src).outside = s.outside := by simp [State.outside]

@[simp] theorem State.withdraw_outside (s : State) (st : Sid) : (s.withdraw st).outside = s.outside := by
  unfold State.withdraw
  split
  · exact (State.modStr_outside ..).trans (State.wrRegs_outside ..)
  · exact State.modStr_outside ..

@[simp] theorem State.haltInStop_outside (s : State) (deferred : Bool) : (s.haltInStop deferred).outside = s.outside := by
  unfold State.haltInStop
  split <;> rfl

@[simp] theorem State.takeHalt_outside (s : State) (st : Sid) (h : HaltRec) : (s.takeHalt st h).outside = s.outside := by
  unfold State.takeHalt
  extract_lets s1 s2 hb s3 s4 s5 s6 b s7 s8 s9 s10 s11 o ost
  have h2 : s2.outside = s.outside := (modStr_outside ..).trans ((haltInStop_outside ..).trans (withdraw_outside ..))
  have h3 : s3.outside = s.outside := (wr_outside ..).trans h2
  have h4 : s4.outside = s.outside := (wr_outside ..).trans h3
  have h5 : s5.outside = s.outside := (wr_outside ..).trans h4
  have h6 : s6.outside = s.outside := (wr_outside ..).trans h5
  have h7 : s7.outside = s.outside := (setRf_outside ..).trans h6
  have h8 : s8.outside = s.outside := (setRf_outside ..).trans h7
  have h9 : s9.outside = s.outside := (setRf_outside ..).trans h8
  have h10 : s10.outside = s.outside := (settleSwitch_outside _).trans ((modStr_outside ..).trans h9)
  have h11 : s11.outside = s.outside := (raise_outside ..).trans h10
  split
  · exact (s11.modStr_outside ..).trans h11
  · exact h11

@[simp] theorem State.takeNoted_outside (s : State) (st : Sid) : (s.takeNoted st).outside = s.outside := by
  unfold State.takeNoted
  split
  · exact s.takeHalt_outside ..
  · rfl

@[simp] theorem State.haltAtIssue_outside (s : State) (st : Sid) (f : Chk) (c : Option Slot) : (s.haltAtIssue st f c).outside = s.outside := by
  unfold State.haltAtIssue
  dsimp only
  split
  · exact s.takeHalt_outside ..
  · exact s.takeHalt_outside ..

@[simp] theorem State.supersede_outside (s : State) (st : Sid) (keys : List (Nat × Nat)) : (s.supersede st keys).outside = s.outside := by
  unfold State.supersede
  split
  · rfl
  · cases st <;> rfl

@[simp] theorem State.finishWord_outside (s : State) (st : Sid) (lw : LwInfo) (jump : Option Nat) (late : List RegWr) :
    (s.finishWord st lw jump late).outside = s.outside := by
  simp [State.finishWord]

/-- A control command goes on or jumps, and changes its stream alone. -/
theorem ctlSem_outside (o : Nat) (s : State) (st : Sid) (c : Slot) (lw : LwInfo) :
    (∃ t l, (ctlSem o).run s st c lw = .ok t l ∧ t.outside = s.outside) ∨
    ∃ t a, (ctlSem o).run s st c lw = .jump t a ∧ t.outside = s.outside := by
  unfold ctlSem
  split
  case isTrue =>
    simp only [loopSem, runLoop]
    generalize (if bit c.base 47 = true then _ else _ : W32) = cnt
    split
    · exact .inr ⟨_, _, rfl, rfl⟩
    · exact .inr ⟨_, _, rfl, s.modStr_outside ..⟩
  split
  case isTrue =>
    simp only [lexitSem, runLexit]
    split
    · exact .inr ⟨_, _, rfl, s.modStr_outside ..⟩
    · exact .inl ⟨_, _, rfl, rfl⟩
  split
  case isTrue => exact .inr ⟨_, _, rfl, rfl⟩
  split
  case isTrue => exact .inr ⟨_, _, rfl, rfl⟩
  case isFalse =>
    simp only [brcSem, runBrc]
    split
    · exact .inr ⟨_, _, rfl, rfl⟩
    · exact .inl ⟨_, _, rfl, rfl⟩

/-- So does the walk over the control slot of a word whose wait has ended. -/
theorem walkSlot_ctl_outside {st : Sid} {lw : LwInfo} {w k : Walk} {c : Slot} {o : Nat} (hw : w.wait = none)
    (e : walkSlot st lw w c (ctlSem o) = .go k) : k.s.outside = w.s.outside := by
  have hs : ∀ p : Prop, ∀ _ : Decidable p, ∀ l, (if p then w.s.wrRegs st l else w.s).outside = w.s.outside := fun p _ l => by
    split <;> simp
  unfold walkSlot at e
  split at e
  · cases e
    simp
  rw [hw, if_neg (by simp)] at e
  dsimp only at e
  replace hs := hs (c.kind = 7) inferInstance w.lateW
  generalize (if c.kind = 7 then w.s.wrRegs st w.lateW else w.s) = s at e hs
  split at e
  · cases e
  split at e
  · split at e
    · cases e
    · cases e
      simpa using hs
  split at e
  · cases e
  split at e
  · cases e
  have hu : (if (ctlSem o).isW c = true then s else s.supersede st ((ctlSem o).dst c)).outside = w.s.outside := by
    split
    · exact hs
    · exact (State.supersede_outside ..).trans hs
  generalize (if (ctlSem o).isW c = true then s else s.supersede st ((ctlSem o).dst c)) = u at e hu
  obtain ⟨t, l, hrun, ht⟩ | ⟨t, a, hrun, ht⟩ := ctlSem_outside o u st c lw
  · rw [hrun] at e
    dsimp only at e
    split at e
    · cases e
      simpa using ht.trans hu
    · cases e
      simpa using ht.trans hu
  · rw [hrun] at e
    cases e
    simpa using ht.trans hu

@[simp] theorem State.runCtl_outside (s : State) (st : Sid) (w : Wait) (c : Slot) : (s.runCtl st w c).outside = s.outside := by
  unfold State.runCtl
  dsimp only
  split
  next k hk => simpa using walkSlot_ctl_outside rfl hk
  next => rfl
  next => exact s.haltAtIssue_outside ..

@[simp] theorem State.finishWait_outside (s : State) (st : Sid) (ws : List RegWr) : (s.finishWait st ws).outside = s.outside := by
  unfold State.finishWait
  split
  · rfl
  · dsimp only
    split <;> simp

end Sys2Proof.Machine
end

section
/-!
PROOFS. BARR, the rounds of a barrier, and O27.
-/

namespace Sys2Proof.Machine

/-! ### BARR (08 R233) -/

/-- The barrier that a stream's entry leaves. -/
def BarCtx.entered (b : BarCtx) (st : Sid) (g serial : Nat) : BarCtx :=
  match st with
  | .a => { b with ents := b.ents ++ [⟨.a, g, serial, false⟩], ga := (g + 1) % 256, lastA := some g }
  | .x => { b with ents := b.ents ++ [⟨.x, g, serial, false⟩], gx := (g + 1) % 256, lastX := some g }

theorem BarCtx.entered_o (b : BarCtx) (st : Sid) (g serial : Nat) : (b.entered st g serial).o = b.o := by cases st <;> rfl

@[simp] theorem State.bar_modBar_same (s : State) (n : Nat) (f : BarCtx → BarCtx) : (s.modBar n f).bar n = f (s.bar n) := tget_tset_same ..
theorem State.bar_modBar_other (s : State) {n k : Nat} (f : BarCtx → BarCtx) (h : k ≠ n) : (s.modBar n f).bar k = s.bar k :=
  tget_tset_other _ _ _ h.symm

theorem runBarr_enter (s : State) (st : Sid) {c : Slot} (h : bit c.base 43 = true) :
    let n := c.f 47 44
    let g := (s.bar n).next st
    runBarr s st c =
      let t := s.modBar n fun b => b.entered st g s.fab.serial
      if bit c.base 42 then barrWait t n g else .ok t [] := by
  cases st <;> simp [runBarr, h, BarCtx.entered]

theorem runBarr_last {s : State} {st : Sid} {c : Slot} {g : Nat} (h : bit c.base 43 = false) (hg : (s.bar (c.f 47 44)).last st = some g) :
    runBarr s st c = barrWait s (c.f 47 44) g := by
  simp [runBarr, h, hg]

theorem runBarr_noEntry {s : State} {st : Sid} {c : Slot} (h : bit c.base 43 = false) (hg : (s.bar (c.f 47 44)).last st = none) :
    runBarr s st c = .ok s [] := by
  simp [runBarr, h, hg]

theorem barrWait_ahead {s : State} {n g : Nat} (h : genAhead g (s.bar n).o < 128) : barrWait s n g = .wait s (.barrier n g) [] :=
  if_neg (by omega)

theorem barrWait_behind {s : State} {n g : Nat} (h : ¬ genAhead g (s.bar n).o < 128) : barrWait s n g = .ok s [] :=
  if_pos (by omega)

/-- A BARR that goes on writes no register. -/
theorem barr_goesOn {s t : State} {st : Sid} {c : Slot} (h : Clear barrSem s st c) (hrun : runBarr (s.began st) st c = .ok t []) :
    issueRow barrSem st c s = .next (s.retired st c t none []) := by
  rw [issueRow_ok h hrun, CmdSem.left_nil]

/-! ### Messages to the parent and the children -/

/-- A channel's queue behind one more message. -/
def sentOn (up : Bool) (ch : Nat) (links : Tbl Link) (body : Nat) : Tbl Link :=
  if up then tmod Link.zero (tmod Link.zero links ch fun l => { l with sendq := l.sendq ++ [body] }) ch fun l => Link.pump ch 64 l else links

theorem State.send_eq (s : State) (ch body : Nat) :
    s.send ch body = { s with fab := { s.fab with links := sentOn s.pins.fpUp ch s.fab.links body } } := by
  unfold State.send sentOn
  split
  next h => exact if_pos h
  next => rfl

theorem State.foldl_send (s : State) (ch : Nat) (l : List Nat) :
    l.foldl (fun s b => s.send ch b) s = { s with fab := { s.fab with links := l.foldl (sentOn s.pins.fpUp ch) s.fab.links } } := by
  induction l generalizing s with
  | nil => rfl
  | cons b l ih => rw [List.foldl_cons, ih, State.send_eq, List.foldl_cons]

theorem State.send_bars (s : State) (ch body : Nat) : (s.send ch body).bars = s.bars := by rw [send_eq]

/-- The RELEASE of a barrier's open round to the child of entry i of its range, where that is valid (06 R161). -/
def childMsg (child : Tbl W64) (b : BarCtx) (i : Nat) : Option Nat :=
  let e := tget 0 child ((fld b.w0 52 47 + i) % 64)
  if bit e 36 then some (boMsg true { place := BitVec.ofNat 24 (fld e 35 12), bar := BitVec.ofNat 4 (fld e 3 0), gen := BitVec.ofNat 8 b.o }) else none

/-- Those to all its children. -/
def State.children (s : State) (b : BarCtx) : List Nat :=
  if bit b.w0 62 = false then [] else (List.range (fld b.w0 46 40)).filterMap (childMsg s.bars.child b)

/-- A barrier whose open round ends. -/
def BarCtx.nextRound (b : BarCtx) : BarCtx :=
  { b with o := (b.o + 1) % 256, sent := false, ents := b.ents.filter (fun e => e.gen ≠ b.o), arrs := b.arrs.filter (· ≠ b.o) }

theorem State.foldl_tellChild (s : State) (b : BarCtx) (l : List Nat) :
    (l.foldl (fun s i =>
      let e := tget 0 s.bars.child ((fld b.w0 52 47 + i) % 64)
      if bit e 36 then
        s.send 7 (boMsg true { place := BitVec.ofNat 24 (fld e 35 12), bar := BitVec.ofNat 4 (fld e 3 0), gen := BitVec.ofNat 8 b.o })
      else s) s) =
    (l.filterMap (childMsg s.bars.child b)).foldl (fun s m => s.send 7 m) s := by
  induction l generalizing s with
  | nil => rfl
  | cons i l ih =>
    rw [List.foldl_cons, ih]
    dsimp only
    cases he : bit (tget 0 s.bars.child ((fld b.w0 52 47 + i) % 64)) 36 with
    | true =>
      rw [if_pos rfl, State.send_bars, List.filterMap_cons_some (f := childMsg s.bars.child b) (if_pos he), List.foldl_cons]
    | false =>
      rw [if_neg Bool.false_ne_true, List.filterMap_cons_none (f := childMsg s.bars.child b) (if_neg (by rw [he]; exact Bool.false_ne_true))]

theorem State.releaseRound_eq (s : State) (n : Nat) :
    s.releaseRound n = (((s.children (s.bar n)).foldl (fun s m => s.send 7 m) s).modBar n BarCtx.nextRound).barrierEnds := by
  unfold State.releaseRound
  dsimp only
  rw [State.foldl_tellChild]
  unfold State.children
  cases bit (s.bar n).w0 62 <;> rfl

/-! ### The waits that a release ends -/

/-- What the end of a round does for one stream. -/
def State.barrierEnd (s : State) (st : Sid) : State :=
  match (s.str st).wait with
  | some w => match w.kind with
    | .barrier n g => if genAhead g (s.bar n).o ≥ 128 then s.finishWait st [] else s
    | _ => s
  | none => s

theorem State.barrierEnds_eq (s : State) (h : s.cstate ≠ 1) : s.barrierEnds = (s.barrierEnd .a).barrierEnd .x := if_neg h

theorem State.barrierEnds_stopped (s : State) (h : s.cstate = 1) : s.barrierEnds = s := if_pos h

/-- A stream that waits at no barrier. -/
def State.NoBarrier (s : State) (st : Sid) : Prop := ∀ w k g, (s.str st).wait = some w → w.kind ≠ .barrier k g

theorem State.barrierEnd_noBarrier {s : State} {st : Sid} (h : s.NoBarrier st) : s.barrierEnd st = s := by
  unfold State.barrierEnd
  split
  next w hw =>
    split
    next k g hk => exact absurd hk (h w k g hw)
    next => rfl
  next => rfl

@[simp] theorem State.barrierEnd_outside (s : State) (st : Sid) : (s.barrierEnd st).outside = s.outside := by
  unfold State.barrierEnd
  split
  · split
    · split
      · exact s.finishWait_outside ..
      · rfl
    · rfl
  · rfl

@[simp] theorem State.barrierEnds_outside (s : State) : s.barrierEnds.outside = s.outside := by
  by_cases h : s.cstate = 1
  · rw [s.barrierEnds_stopped h]
  · rw [s.barrierEnds_eq h, barrierEnd_outside, barrierEnd_outside]

theorem State.barrierEnds_quiet {s : State} (ha : s.NoBarrier .a) (hx : s.NoBarrier .x) : s.barrierEnds = s := by
  by_cases h : s.cstate = 1
  · exact s.barrierEnds_stopped h
  · rw [s.barrierEnds_eq h, barrierEnd_noBarrier ha, barrierEnd_noBarrier hx]

/-- The end of a wait whose word has nothing else left to do: the stream goes on at the next word. -/
theorem State.finishWait_goesOn {s : State} {st : Sid} {w : Wait} (hwait : (s.str st).wait = some w) (hctl : w.ctl = none) (hlate : w.late = [])
    (hhalt : (s.str st).pendHalt = none) (hloops : (s.str st).loops = []) :
    ∃ scal, s.finishWait st [] = s.modStr st fun t => { t with
      scal := scal, pc := BitVec.ofNat 17 (w.addr + w.len), wait := none, waited := 0, waitTold := false, stall := none } := by
  have hword : s.finishWait st [] = (s.modStr st fun t => { t with wait := none }).finishWord st ⟨w.addr, w.len, 0, 0⟩ none [] := by
    unfold State.finishWait
    rw [hwait]
    cases st <;> simp [hctl, hlate, State.supersede, State.wrRegs] <;> rfl
  have hend : ∀ t : Stream, t.loops = [] → loopEnd w.addr (w.addr + w.len) 4 t = (t, w.addr + w.len) := fun t ht => by simp [loopEnd, ht]
  rw [hword]
  refine ⟨((s.str st).carrySteps (s.str st)).scal, ?_⟩
  cases st with
  | a =>
    have hl := hend { s.sA with wait := none } hloops
    simp only [State.finishWord, State.wrRegs, List.foldl_nil, State.modStr, State.str, hl]
    exact State.takeNoted_none _ _ hhalt
  | x =>
    have hl := hend { s.sX with wait := none } hloops
    simp only [State.finishWord, State.wrRegs, List.foldl_nil, State.modStr, State.str, hl]
    exact State.takeNoted_none _ _ hhalt

/-- Where one stream alone waits at a barrier, for a generation that has been released, that stream goes on. -/
theorem State.barrierEnds_goesOn {s : State} {st : Sid} {w : Wait} {n g : Nat} (hstop : s.cstate ≠ 1) (hother : s.NoBarrier (otherSid st))
    (hwait : (s.str st).wait = some w) (hkind : w.kind = .barrier n g) (hg : 128 ≤ genAhead g (s.bar n).o) (hctl : w.ctl = none)
    (hlate : w.late = []) (hhalt : (s.str st).pendHalt = none) (hloops : (s.str st).loops = []) :
    (s.barrierEnds.str st).wait = none ∧ (s.barrierEnds.str st).pc = BitVec.ofNat 17 (w.addr + w.len) := by
  obtain ⟨scal, hfin⟩ := finishWait_goesOn hwait hctl hlate hhalt hloops
  have hend : s.barrierEnd st = s.finishWait st [] := by
    unfold State.barrierEnd
    rw [hwait]
    dsimp only
    rw [hkind]
    exact if_pos hg
  rw [hfin] at hend
  rw [s.barrierEnds_eq hstop]
  cases st with
  | a =>
    rw [hend, barrierEnd_noBarrier (st := .x)]
    · exact ⟨rfl, rfl⟩
    · exact hother
  | x =>
    rw [barrierEnd_noBarrier (st := .a) hother, hend]
    exact ⟨rfl, rfl⟩

/-! ### The open round -/

/-- A barrier whose count cannot be full at 0, and whose entries and arrivals are all of the open generation. -/
def BarCtx.Apart (b : BarCtx) : Prop := 0 < fld b.w0 59 53 ∧ (∀ g ∈ b.arrs, g = b.o) ∧ ∀ x ∈ b.ents, x.gen = b.o

theorem BarCtx.Apart.nextRound {b : BarCtx} (h : b.Apart) : b.nextRound = { b with o := (b.o + 1) % 256, sent := false, ents := [], arrs := [] } := by
  obtain ⟨-, harrs, hents⟩ := h
  have hg : b.arrs.filter (· ≠ b.o) = [] := List.filter_eq_nil_iff.2 fun g hg => by simp [harrs g hg]
  have hx : b.ents.filter (fun e => e.gen ≠ b.o) = [] := List.filter_eq_nil_iff.2 fun x hx => by simp [hents x hx]
  rw [BarCtx.nextRound, hg, hx]

theorem State.barFull_open {s : State} {n : Nat} (h : (s.bar n).count < fld (s.bar n).w0 59 53) : s.barFull n = s := by
  unfold State.barFull barCheck
  exact if_pos (by simp [h])

/-- The one ARRIVE of the open generation to the parent (06 R161). -/
def BarCtx.toParent (b : BarCtx) : Nat :=
  boMsg false { place := BitVec.ofNat 24 (fld b.w1 35 12), bar := BitVec.ofNat 4 (fld b.w1 3 0), gen := BitVec.ofNat 8 b.o }

theorem State.barFull_tells {s : State} {n : Nat} (hcount : (s.bar n).count = fld (s.bar n).w0 59 53) (hsent : (s.bar n).sent = false)
    (hfab : bit (s.bar n).w0 62 = true) (hparent : bit (s.bar n).w1 63 = true) :
    s.barFull n = (s.modBar n fun b => { b with sent := true }).send 7 (s.bar n).toParent := by
  unfold State.barFull barCheck
  simp [hcount, hsent, hfab, hparent, BarCtx.toParent]

/-- A state that differs from another in its barrier n, but in neither its open generation nor its configuration, and in no message. -/
structure State.SameRound (s t : State) (n : Nat) : Prop where
  o : (t.bar n).o = (s.bar n).o
  w0 : (t.bar n).w0 = (s.bar n).w0
  others : ∀ k, k ≠ n → t.bar k = s.bar k
  child : t.bars.child = s.bars.child
  fab : t.fab = s.fab
  pins : t.pins = s.pins

theorem State.SameRound.refl (s : State) (n : Nat) : s.SameRound s n := ⟨rfl, rfl, fun _ _ => rfl, rfl, rfl, rfl⟩

theorem State.SameRound.modBar {s : State} {n : Nat} {f : BarCtx → BarCtx} (ho : (f (s.bar n)).o = (s.bar n).o)
    (hw : (f (s.bar n)).w0 = (s.bar n).w0) : s.SameRound (s.modBar n f) n :=
  ⟨by rw [bar_modBar_same, ho], by rw [bar_modBar_same, hw], fun _ hk => s.bar_modBar_other f hk, rfl, rfl, rfl⟩

/-- The next generation of a barrier has opened: the last one's entries and arrivals are gone, and its children are told. -/
def State.Opened (s t : State) (n : Nat) : Prop :=
  (t.bar n).o = ((s.bar n).o + 1) % 256 ∧ (t.bar n).ents = [] ∧ (t.bar n).arrs = [] ∧ (t.bar n).sent = false ∧
    (∀ k, k ≠ n → t.bar k = s.bar k) ∧ leaves s t 7 (s.children (s.bar n))

/-- The state in which a release ends the waits. -/
def State.opening (s : State) (n : Nat) : State := ((s.children (s.bar n)).foldl (fun s m => s.send 7 m) s).modBar n BarCtx.nextRound

theorem State.opening_eq (s : State) (n : Nat) :
    s.opening n = { s with bars := (s.modBar n BarCtx.nextRound).bars
                           fab := { s.fab with links := (s.children (s.bar n)).foldl (sentOn s.pins.fpUp 7) s.fab.links } } := by
  rw [State.opening, State.foldl_send]
  rfl

theorem State.opening_bar (s : State) (n : Nat) : (s.opening n).bar n = (s.bar n).nextRound := by
  rw [State.opening_eq]
  exact s.bar_modBar_same n _

theorem State.opened_of_opening {s t u : State} {n : Nat} (h : s.SameRound t n) (hb : (t.bar n).Apart)
    (hu : u.outside = (t.opening n).outside) : s.Opened u n := by
  obtain ⟨hbars, hfab, -⟩ := State.outside_eq.1 hu
  have hbar : ∀ k, u.bar k = (t.opening n).bar k := fun k => by rw [State.bar, hbars]; rfl
  have hn : u.bar n = { t.bar n with o := ((t.bar n).o + 1) % 256, sent := false, ents := [], arrs := [] } := by
    rw [hbar, State.opening_bar, hb.nextRound]
  have hchildren : t.children (t.bar n) = s.children (s.bar n) := by
    have hmsg : childMsg t.bars.child (t.bar n) = childMsg s.bars.child (s.bar n) := by
      funext i
      rw [childMsg, childMsg, h.o, h.w0, h.child]
    rw [State.children, State.children, h.w0, hmsg]
  refine ⟨?_, ?_, ?_, ?_, fun k hk => ?_, ?_⟩
  · rw [hn, ← h.o]
  · rw [hn]
  · rw [hn]
  · rw [hn]
  · rw [hbar, State.opening_eq]
    exact (t.bar_modBar_other _ hk).trans (h.others k hk)
  · rw [leaves, State.link, State.link, State.foldl_send, hfab, State.opening_eq, hchildren, h.fab, h.pins]

/-- The round that a release opens is not full. -/
theorem State.released_count {t : State} {n : Nat} (hb : (t.bar n).Apart) :
    ((t.releaseRound n).bar n).count < fld ((t.releaseRound n).bar n).w0 59 53 := by
  have hu : (t.releaseRound n).outside = (t.opening n).outside := by
    rw [State.releaseRound_eq, State.barrierEnds_outside]
    rfl
  obtain ⟨hbars, -, -⟩ := State.outside_eq.1 hu
  have hn : (t.releaseRound n).bar n = (t.bar n).nextRound := by
    rw [State.bar, hbars]
    exact t.opening_bar n
  rw [hn, hb.nextRound]
  simpa [BarCtx.count] using hb.1

theorem State.barFull_released {t : State} {n : Nat} (hb : (t.bar n).Apart) : (t.releaseRound n).barFull n = t.releaseRound n :=
  State.barFull_open (State.released_count hb)

theorem State.releaseRound_opens {s t : State} {n : Nat} (h : s.SameRound t n) (hb : (t.bar n).Apart) : s.Opened (t.releaseRound n) n :=
  State.opened_of_opening h hb (by rw [State.releaseRound_eq, State.barrierEnds_outside]; rfl)

theorem State.barFull_releases {t : State} {n : Nat} (hcount : (t.bar n).count = fld (t.bar n).w0 59 53) (hsent : (t.bar n).sent = false)
    (hlocal : bit (t.bar n).w0 62 = false ∨ bit (t.bar n).w1 63 = false) (hb : (t.bar n).Apart) : t.barFull n = t.releaseRound n := by
  have hnext : barCheck n 1 (t.releaseRound n) = t.releaseRound n := by
    unfold barCheck
    exact if_pos (by simp [State.released_count hb])
  have hno : (bit (t.bar n).w0 62 && bit (t.bar n).w1 63) = false := Bool.and_eq_false_iff.2 hlocal
  unfold State.barFull barCheck
  simp [hcount, hsent, hno, hnext]

/-! ### Events and messages -/

theorem tdel_tdel {α : Type} (t : Tbl α) (k : Nat) : tdel (tdel t k) k = tdel t k := by
  induction t with
  | nil => rfl
  | cons p t ih =>
    rw [tdel]
    split
    next => exact ih
    next h => rw [tdel, if_neg h, ih]

theorem tdel_tins {α : Type} (t : Tbl α) (k : Nat) (v : α) : tdel (tins t k v) k = tdel t k := by
  induction t with
  | nil => simp [tins, tdel]
  | cons p t ih =>
    rw [tins]
    split
    next => simp [tdel]
    next => rw [tdel, tdel, ih]

theorem tset_tset {α : Type} [DecidableEq α] (d : α) (t : Tbl α) (k : Nat) (v v' : α) : tset d (tset d t k v) k v' = tset d t k v' := by
  have h : tdel (tset d t k v) k = tdel t k := by
    unfold tset
    split
    · exact tdel_tdel ..
    · rw [tdel_tins, tdel_tdel]
  rw [tset, h, tset]

theorem State.modBar_modBar (s : State) (n : Nat) (f g : BarCtx → BarCtx) : (s.modBar n f).modBar n g = s.modBar n fun b => g (f b) := by
  simp only [State.modBar, tmod, tget_tset_same, tset_tset]

/-- The barrier in which an entry has counted. -/
def BarCtx.mark (b : BarCtx) (e : BarEnt) : BarCtx := { b with ents := b.ents.map fun x => if x = e then { x with counted := true } else x }

theorem BarCtx.Apart.mark {b : BarCtx} (h : b.Apart) (e : BarEnt) : (b.mark e).Apart := by
  obtain ⟨hexpect, harrs, hents⟩ := h
  refine ⟨hexpect, harrs, fun x hx => ?_⟩
  obtain ⟨y, hy, rfl⟩ := List.mem_map.1 hx
  split <;> exact hents y hy

/-- Can an entry of the open round count (06 R160)? -/
def State.entryCounts (s : State) (b : BarCtx) (e : BarEnt) : Bool := !e.counted && e.gen = b.o && s.fenceMet e.fence

theorem barrierEntryCount_none {s : State} {n : BitVec 4} (h : (s.bar n.toNat).ents.find? (s.entryCounts (s.bar n.toNat)) = none) :
    execBarrierEntryCount n s = .next s := by
  unfold execBarrierEntryCount
  dsimp only
  unfold State.entryCounts at h
  rw [h]

theorem barrierEntryCount_some {s : State} {n : BitVec 4} {e : BarEnt}
    (h : (s.bar n.toNat).ents.find? (s.entryCounts (s.bar n.toNat)) = some e) :
    execBarrierEntryCount n s = .next ((s.modBar n.toNat fun _ => (s.bar n.toNat).mark e).barFull n.toNat) := by
  unfold execBarrierEntryCount
  dsimp only
  unfold State.entryCounts at h
  rw [h]
  rfl

/-- The barrier at which one more ARRIVE has arrived. -/
def BarCtx.arrived (b : BarCtx) (g : Nat) : BarCtx := { b with arrs := b.arrs ++ [g] }

theorem BarCtx.count_arrived (b : BarCtx) (g : Nat) : (b.arrived g).count = b.count + if g = b.o then 1 else 0 := by
  by_cases hg : g = b.o
  · simp [BarCtx.count, BarCtx.arrived, hg, Nat.add_assoc]
  · simp [BarCtx.count, BarCtx.arrived, hg]
    rfl

theorem BarCtx.Apart.arrived {b : BarCtx} (h : b.Apart) : (b.arrived b.o).Apart := by
  obtain ⟨hexpect, harrs, hents⟩ := h
  refine ⟨hexpect, fun g hg => ?_, hents⟩
  obtain hg | hg := List.mem_append.1 hg
  · exact harrs g hg
  · exact List.mem_singleton.1 hg

section
variable {s : State} {m : BarMsg}

/-- A message is taken with its receive-buffer entry given back. -/
theorem State.arrive_up {f : State → State} (hup : s.pins.fpUp = true) (hpins : (f s).pins = s.pins) : s.arrive 8 f = (f s).freeRx 8 := by
  simp [State.arrive, hup, hpins]

@[simp] theorem State.barFault_pins (s : State) : s.barFault.pins = s.pins := by simp [State.barFault]

@[simp] theorem State.send_pins (s : State) (ch body : Nat) : (s.send ch body).pins = s.pins := by rw [State.send_eq]

@[simp] theorem State.releaseRound_pins (s : State) (n : Nat) : (s.releaseRound n).pins = s.pins := by
  have hu : (s.releaseRound n).outside = (s.opening n).outside := by
    rw [State.releaseRound_eq, State.barrierEnds_outside]
    rfl
  obtain ⟨-, -, hpins⟩ := State.outside_eq.1 hu
  rw [hpins, State.opening_eq]

theorem State.onArrive_elsewhere (hup : s.pins.fpUp = true) (h : m.place.toNat ≠ s.place) : s.onArrive m = s.incRf 0x398 15 0 := by
  simp [State.onArrive, hup, h]

theorem State.onRelease_elsewhere (hup : s.pins.fpUp = true) (h : m.place.toNat ≠ s.place) : s.onRelease m = s.incRf 0x398 15 0 := by
  simp [State.onRelease, hup, h]

theorem State.onArrive_late (hup : s.pins.fpUp = true) (h : m.place.toNat = s.place) (hd : 2 ≤ genAhead m.gen.toNat (s.bar m.bar.toNat).o) :
    s.onArrive m = s.barFault := by
  simp [State.onArrive, hup, h, show ¬ genAhead m.gen.toNat (s.bar m.bar.toNat).o < 2 by omega]

theorem State.onRelease_late (hup : s.pins.fpUp = true) (h : m.place.toNat = s.place) (hd : genAhead m.gen.toNat (s.bar m.bar.toNat).o ≠ 0) :
    s.onRelease m = s.barFault := by
  simp [State.onRelease, hup, h, hd]

theorem State.onArrive_counts (hup : s.pins.fpUp = true) (h : m.place.toNat = s.place) (hvalid : bit (s.bar m.bar.toNat).w0 63 = true)
    (hfab : bit (s.bar m.bar.toNat).w0 62 = true) (hd : genAhead m.gen.toNat (s.bar m.bar.toNat).o < 2) :
    s.onArrive m = (s.modBar m.bar.toNat fun _ => (s.bar m.bar.toNat).arrived m.gen.toNat).barFull m.bar.toNat := by
  simp [State.onArrive, hup, h, hvalid, hfab, hd]
  rfl

theorem State.onRelease_opens (hup : s.pins.fpUp = true) (h : m.place.toNat = s.place) (hvalid : bit (s.bar m.bar.toNat).w0 63 = true)
    (hfab : bit (s.bar m.bar.toNat).w0 62 = true) (hd : genAhead m.gen.toNat (s.bar m.bar.toNat).o = 0) :
    s.onRelease m = (s.releaseRound m.bar.toNat).barFull m.bar.toNat := by
  simp [State.onRelease, hup, h, hvalid, hfab, hd]

theorem State.onArrive_partial (hup : s.pins.fpUp = true) (h : m.place.toNat = s.place) (hvalid : bit (s.bar m.bar.toNat).w0 63 = true)
    (hfab : bit (s.bar m.bar.toNat).w0 62 = true) (hd : genAhead m.gen.toNat (s.bar m.bar.toNat).o < 2)
    (hcount : (s.bar m.bar.toNat).count + 1 < fld (s.bar m.bar.toNat).w0 59 53) :
    s.onArrive m = s.modBar m.bar.toNat fun _ => (s.bar m.bar.toNat).arrived m.gen.toNat := by
  rw [State.onArrive_counts hup h hvalid hfab hd, State.barFull_open]
  rw [State.bar_modBar_same, BarCtx.count_arrived]
  refine lt_of_le_of_lt (Nat.add_le_add_left ?_ _) hcount
  split <;> omega

/-- The arrival that makes the round full. -/
theorem State.count_lastArrival (hg : m.gen.toNat = (s.bar m.bar.toNat).o)
    (hcount : (s.bar m.bar.toNat).count + 1 = fld (s.bar m.bar.toNat).w0 59 53) :
    ((s.bar m.bar.toNat).arrived m.gen.toNat).count = fld ((s.bar m.bar.toNat).arrived m.gen.toNat).w0 59 53 := by
  rw [BarCtx.count_arrived, if_pos hg]
  exact hcount

theorem State.onArrive_tells (hup : s.pins.fpUp = true) (h : m.place.toNat = s.place) (hvalid : bit (s.bar m.bar.toNat).w0 63 = true)
    (hfab : bit (s.bar m.bar.toNat).w0 62 = true) (hd : genAhead m.gen.toNat (s.bar m.bar.toNat).o = 0)
    (hg : m.gen.toNat = (s.bar m.bar.toNat).o) (hcount : (s.bar m.bar.toNat).count + 1 = fld (s.bar m.bar.toNat).w0 59 53)
    (hsent : (s.bar m.bar.toNat).sent = false) (hparent : bit (s.bar m.bar.toNat).w1 63 = true) :
    s.onArrive m = (s.modBar m.bar.toNat fun _ => { (s.bar m.bar.toNat).arrived m.gen.toNat with sent := true }).send 7
      (s.bar m.bar.toNat).toParent := by
  rw [State.onArrive_counts hup h hvalid hfab (hd.trans_lt Nat.two_pos), State.barFull_tells, State.modBar_modBar, State.bar_modBar_same]
  · rfl
  · rw [State.bar_modBar_same]
    exact State.count_lastArrival hg hcount
  · rwa [State.bar_modBar_same]
  · rwa [State.bar_modBar_same]
  · rwa [State.bar_modBar_same]

theorem State.onArrive_releases (hup : s.pins.fpUp = true) (h : m.place.toNat = s.place) (hvalid : bit (s.bar m.bar.toNat).w0 63 = true)
    (hfab : bit (s.bar m.bar.toNat).w0 62 = true) (hd : genAhead m.gen.toNat (s.bar m.bar.toNat).o = 0)
    (hg : m.gen.toNat = (s.bar m.bar.toNat).o) (hcount : (s.bar m.bar.toNat).count + 1 = fld (s.bar m.bar.toNat).w0 59 53)
    (hsent : (s.bar m.bar.toNat).sent = false) (hlocal : bit (s.bar m.bar.toNat).w1 63 = false) (hb : (s.bar m.bar.toNat).Apart) :
    s.onArrive m = (s.modBar m.bar.toNat fun _ => (s.bar m.bar.toNat).arrived m.gen.toNat).releaseRound m.bar.toNat := by
  rw [State.onArrive_counts hup h hvalid hfab (hd.trans_lt Nat.two_pos), State.barFull_releases]
  · rw [State.bar_modBar_same]
    exact State.count_lastArrival hg hcount
  · rwa [State.bar_modBar_same]
  · rw [State.bar_modBar_same]
    exact .inr hlocal
  · rw [State.bar_modBar_same, hg]
    exact hb.arrived

theorem State.Opened.freeRx {t : State} {n : Nat} (h : s.Opened t n) : s.Opened (t.freeRx 8) n := by
  obtain ⟨ho, hents, harrs, hsent, hothers, hmsgs⟩ := h
  refine ⟨ho, hents, harrs, hsent, hothers, ?_⟩
  rw [leaves, ← hmsgs]
  exact tget_tset_other _ _ _ (by decide)

end

/-- A message whose effect is known. -/
theorem State.arrive_eq {s t : State} {f : State → State} (hup : s.pins.fpUp = true) (h : f s = t) (hpins : t.pins = s.pins) :
    (.next (s.arrive 8 f) : Host.Outcome State Fault Refusal) = .next (t.freeRx 8) := by
  subst h
  rw [State.arrive_up hup hpins]

/-- The release of a generation leaves it behind the open one. -/
theorem genAhead_released (o : Nat) : 128 ≤ genAhead o ((o + 1) % 256) := by
  unfold genAhead
  omega

/-- A stream's first words at a barrier: it enters, or waits for the generation that it entered last. -/
theorem barrRules (s : State) (st : Sid) (c0 : Slot) : let c := asOpc 0x2E c0
    Clear barrSem s st c →
    let n := c.f 47 44
    let b := s.bar n
    let g := b.next st
    let entered := (s.began st).modBar n fun b => b.entered st g s.fab.serial
    (bit c.base 43 = true → bit c.base 42 = false → exec (.barr st c0) s = .next (s.retired st c entered none [])) ∧
    (bit c.base 43 = true → bit c.base 42 = true → genAhead g b.o < 128 → exec (.barr st c0) s = .next (s.waits st c entered (.barrier n g))) ∧
    (bit c.base 43 = false → ∀ l, b.last st = some l →
      (genAhead l b.o < 128 → exec (.barr st c0) s = .next (s.waits st c (s.began st) (.barrier n l))) ∧
      (¬ genAhead l b.o < 128 → exec (.barr st c0) s = .next (s.retired st c (s.began st) none []))) ∧
    (bit c.base 43 = false → b.last st = none → exec (.barr st c0) s = .next (s.retired st c (s.began st) none [])) := by
  intro c h n b g entered
  have hbar : (s.began st).bar n = b := by rw [State.bar, State.began_bars]; rfl
  have hfab : (s.began st).fab.serial = s.fab.serial := by rw [State.began_fab]
  have henter : bit c.base 43 = true →
      runBarr (s.began st) st c = if bit c.base 42 then barrWait entered n g else .ok entered [] := fun h43 => by
    rw [runBarr_enter _ st h43, hbar, hfab]
  have ho : (entered.bar n).o = b.o := by rw [State.bar_modBar_same, BarCtx.entered_o, hbar]
  refine ⟨fun h43 h42 => ?_, fun h43 h42 hg => ?_, fun h43 l hl => ⟨fun hg => ?_, fun hg => ?_⟩, fun h43 hl => ?_⟩
  · exact barr_goesOn h ((henter h43).trans (by rw [h42]; rfl))
  · exact issueRow_wait h ((henter h43).trans (by rw [h42, if_pos rfl, barrWait_ahead (by rwa [ho])]))
  · exact issueRow_wait h ((runBarr_last h43 (by rwa [hbar])).trans (barrWait_ahead (by rwa [hbar])))
  · exact barr_goesOn h ((runBarr_last h43 (by rwa [hbar])).trans (barrWait_behind (by rwa [hbar])))
  · exact barr_goesOn h (runBarr_noEntry h43 (by rwa [hbar]))

/-- What the last entry of a round that a local barrier releases leaves. -/
theorem entry_releases {s : State} {n : Nat} {b : BarCtx} (hr : s.SameRound (s.modBar n fun _ => b) n) (hb : b.Apart) :
    let t := (s.modBar n fun _ => b).releaseRound n
    s.Opened t n ∧
    (s.NoBarrier .a → s.NoBarrier .x → t.qsy = s.qsy ∧ sameRegs s t ∧ sameSpm s t ∧ ∀ st, (t.str st).pc = (s.str st).pc) ∧
    ∀ st w, s.NoBarrier (otherSid st) → (s.str st).wait = some w → w.kind = .barrier n (s.bar n).o →
      (s.cstate = 1 → (t.str st).wait = some w) ∧
      (s.cstate ≠ 1 → w.ctl = none → w.late = [] → (s.str st).chain = 0 → (s.str st).pendHalt = none → (s.str st).loops = [] →
        (t.str st).wait = none ∧ (t.str st).pc = BitVec.ofNat 17 (w.addr + w.len)) := by
  have hb' : ((s.modBar n fun _ => b).bar n).Apart := by rwa [State.bar_modBar_same]
  have ht : (s.modBar n fun _ => b).releaseRound n = ((s.modBar n fun _ => b).opening n).barrierEnds := State.releaseRound_eq ..
  have hstr : ∀ st, ((s.modBar n fun _ => b).opening n).str st = s.str st := fun st => by rw [State.opening_eq]; cases st <;> rfl
  have hno : ∀ st, s.NoBarrier st → ((s.modBar n fun _ => b).opening n).NoBarrier st := fun st h w k g hw => h w k g (by rwa [← hstr])
  refine ⟨State.releaseRound_opens hr hb', fun ha hx => ?_, fun st w hother hwait hkind => ⟨fun hstop => ?_, fun hstop hctl hlate _ hhalt hloops => ?_⟩⟩
  · rw [ht, State.barrierEnds_quiet (hno _ ha) (hno _ hx), State.opening_eq]
    exact ⟨rfl, fun st => by cases st <;> exact ⟨rfl, rfl, rfl⟩, rfl, fun st => by cases st <;> rfl⟩
  · rw [ht, State.barrierEnds_stopped _ (by rw [State.opening_eq]; exact hstop), hstr, hwait]
  · have ho : (((s.modBar n fun _ => b).opening n).bar n).o = ((s.bar n).o + 1) % 256 := by
      rw [State.opening_bar, BarCtx.nextRound, hr.o]
    rw [ht]
    refine State.barrierEnds_goesOn (by rw [State.opening_eq]; exact hstop) (hno _ hother) ((hstr st).symm ▸ hwait) hkind ?_ hctl hlate
      ((hstr st).symm ▸ hhalt) ((hstr st).symm ▸ hloops)
    rw [ho]
    exact genAhead_released _

/-- Settles O27: a command at a barrier, an entry that counts, and the messages, each by its rule. -/
theorem barriersEnterCountAndRelease : Obligations.BarriersEnterCountAndRelease := by
  unfold Obligations.BarriersEnterCountAndRelease
  refine ⟨fun s st c0 => ?_, fun s n m => ?_⟩
  · intro c h n b g entered ahead
    cases st <;> exact barrRules s _ c0 h
  intro told children apart noWait opened b counts mark
  refine ⟨barrierEntryCount_none, fun e he hcount => ?_, fun e he hcount hsent => ⟨fun hfab hparent => ?_, fun hlocal hb => ?_⟩, ?_⟩
  · refine (barrierEntryCount_some he).trans ?_
    rw [State.barFull_open (by rwa [State.bar_modBar_same])]
    rfl
  · refine (barrierEntryCount_some he).trans ?_
    rw [State.barFull_tells (by rwa [State.bar_modBar_same]) (by rwa [State.bar_modBar_same]) (by rwa [State.bar_modBar_same])
      (by rwa [State.bar_modBar_same]), State.modBar_modBar, State.bar_modBar_same]
    rfl
  · have hb' : (b.mark e).Apart := BarCtx.Apart.mark hb e
    refine ⟨_, (barrierEntryCount_some he).trans ?_, entry_releases (b := b.mark e) (.modBar rfl rfl) hb'⟩
    rw [State.barFull_releases (by rwa [State.bar_modBar_same]) (by rwa [State.bar_modBar_same]) (by rwa [State.bar_modBar_same])
      (by rwa [State.bar_modBar_same])]
  intro k b d fault more hup
  refine ⟨fun hplace => ⟨?_, ?_⟩, fun hplace hd => ?_, fun hplace hd => ?_, fun hplace hvalid hfab =>
    ⟨fun hd hcount => ?_, fun hd hg hcount hsent hparent => ?_, fun hd hg hcount hsent hlocal hb => ?_, fun hd hb => ?_⟩⟩
  · exact State.arrive_eq hup (State.onArrive_elsewhere hup hplace) (State.incRf_pins ..)
  · exact State.arrive_eq hup (State.onRelease_elsewhere hup hplace) (State.incRf_pins ..)
  · exact State.arrive_eq hup (State.onArrive_late hup hplace hd) (State.barFault_pins _)
  · exact State.arrive_eq hup (State.onRelease_late hup hplace hd) (State.barFault_pins _)
  · exact State.arrive_eq hup (State.onArrive_partial hup hplace hvalid hfab hd hcount) rfl
  · exact State.arrive_eq hup (State.onArrive_tells hup hplace hvalid hfab hd hg hcount hsent hparent) (State.send_pins ..)
  · exact ⟨_, State.arrive_eq hup (State.onArrive_releases hup hplace hvalid hfab hd hg hcount hsent hlocal hb) (State.releaseRound_pins ..),
      (State.releaseRound_opens (.modBar rfl rfl) (by rw [State.bar_modBar_same, hg]; exact BarCtx.Apart.arrived hb)).freeRx⟩
  · exact ⟨_, State.arrive_eq hup ((State.onRelease_opens hup hplace hvalid hfab hd).trans (State.barFull_released hb)) (State.releaseRound_pins ..),
      (State.releaseRound_opens (.refl s k) hb).freeRx⟩

end Sys2Proof.Machine
end

section
/-!
PROOFS. Descriptors that start and complete, loads of an instruction memory, and O41.
-/

namespace Sys2Proof.Machine

/-! ### The channels -/

/-- A descriptor behind those in flight in a channel. -/
def State.putChan (s : State) (n : Nat) (c : Chan) : State := { s with chans := tmod [] s.chans n fun l => l ++ [c] }

@[simp] theorem State.flight_putChan (s : State) (n : Nat) (c : Chan) : (s.putChan n c).flight n = s.flight n ++ [c] := tget_tset_same ..

theorem State.flight_modChan_one {s : State} {n : Nat} {c : Chan} (h : s.flight n = [c]) (f : Chan → Chan) :
    (s.modChan n c.tkt f).flight n = [f c] := by
  rw [State.flight, State.modChan, tmod, tget_tset_same, ← State.flight, h]
  simp

/-! ### A descriptor starts (06 R165) -/

section
variable {s : State} {ch : BitVec 4} {e : Entry}

/-- The descriptor in flight that an entry's bytes are. -/
def Entry.toChan (e : Entry) : Chan := ⟨e.bytes, e.tkt, none, 0, 0, 0, 0, false, false, false, false, [], [], false, false, []⟩

/-- What the start of a descriptor needs: an entry, without errors and of no consist, that is due in the ring of an empty channel. -/
structure Startable (s : State) (n : Nat) (e : Entry) : Prop where
  bound : s.ctxBound (16 + n) = true
  empty : s.flight n = []
  noStop : s.cstate ≠ 1
  head : (s.ctx (16 + n)).headEntry = some e
  own : e.src = none
  noConsist : e.cs = none
  inService : (s.ctx (16 + n)).ordflt = false
  sound : ∀ k ∈ e.cars, k.poison = false ∧ k.ecc = .good

theorem Startable.car_sound {n : Nat} (h : Startable s n e) : e.sound :=
  List.any_eq_false.2 fun k hk => by simp [h.sound k hk]

theorem Startable.chanFree {n : Nat} (h : Startable s n e) : s.chanFree n = true := by simp [State.chanFree, h.empty]

/-- The ring without the entry. -/
def State.ringTaken (s : State) (n : Nat) (e : Entry) : State :=
  s.modCtx (16 + n) fun c => { c with et := (c.et + 1) % 65536, entries := c.entries.filter fun x => x.tkt ≠ e.tkt }

theorem Startable.takes {n : Nat} (h : Startable s n e) : (s.readCars none e).1.takeHead (16 + n) e = s.ringTaken n e := by
  rw [State.readCars_sound _ _ h.car_sound, State.takeHead_own h.own]
  rfl

theorem dmaStart_bad (h : Startable s ch.toNat e) (hbad : s.dscBad e.bytes = true) :
    execDmaDescriptorStart ch [] s =
      .next ((s.ringTaken ch.toNat e).putChan ch.toNat { e.toChan with status := 1, ended := true, loaded := true }) := by
  have hany : (e.cars.any fun k => k.poison || decide (k.ecc = .bad)) = false := h.car_sound
  have hbad' : (s.ringTaken ch.toNat e).dscBad e.bytes = true := hbad
  simp [execDmaDescriptorStart, h.bound, h.chanFree, h.noStop, h.inService, h.head, hany, hbad, hbad', h.takes, h.noConsist]
  rfl

theorem dmaStart_fill (h : Startable s ch.toNat e) (hbad : s.dscBad e.bytes = false) (hfill : Dsc.op e.bytes = 4) :
    execDmaDescriptorStart ch [] s = .next (((s.ringTaken ch.toNat e).putChan ch.toNat e.toChan).chanRun ch.toNat) := by
  have hany : (e.cars.any fun k => k.poison || decide (k.ecc = .bad)) = false := h.car_sound
  have hbad' : (s.ringTaken ch.toNat e).dscBad e.bytes = false := hbad
  simp [execDmaDescriptorStart, h.bound, h.chanFree, h.noStop, h.inService, h.head, hany, hfill, hbad', h.takes, h.noConsist]
  rfl

/-! ### A fill runs (06 R163) -/

/-- The bytes of a fill of one row. -/
def Entry.fillBytes (e : Entry) : List Byte := (upto (Dsc.rowLen e.bytes)).map fun i => Dsc.pattern e.bytes i

theorem State.untagged_none_inPlace (h : InPlace s) (a : Nat) (bs : List Byte) (p : Bool) : s.untagged none a bs p = s.poke a bs p := by
  obtain ⟨hA, hX⟩ := h.owns (a / 128)
  simp [State.untagged, hA, hX]

/-- A write of no stream and no consist. -/
theorem State.stores_write_none (h : InPlace s) (a : Nat) (bs : List Byte) (p : Bool) : Stores s (s.write none none a bs p) (pairsAt a bs) := by
  rw [State.write, State.dirCheck_inPlace h, ← chunk128_pairs (fuel := bs.length / 128 + 2) (a := a) (bs := bs) (by omega)]
  refine Stores.foldl (fun s q hs => ?_) _ h
  change Stores s (s.untagged none q.1 q.2 p) _
  rw [State.untagged_none_inPlace hs]
  exact State.stores_poke hs.gone ..

/-- A sound descriptor that fills one row of at most 128 bytes of the scratchpad. -/
structure RowFill (d : Dsc) : Prop where
  op : d.op = 4
  dstSp : d.dstSp = 0
  rows : d.rows = 1
  pos : 0 < d.rowLen
  short : d.rowLen ≤ 128
  srcSp : d.srcSp = 0

theorem RowFill.of_sound {d : Dsc} (hbad : s.dscBad d = false) (hfill : d.fill = true) (hdst : d.dstSp = 0) (hrows : d.rows = 1)
    (hshort : d.rowLen ≤ 128) : RowFill d := by
  have hop : d.op = 4 := of_decide_eq_true hfill
  refine ⟨hop, hdst, hrows, Nat.pos_of_ne_zero fun hzero => ?_, hshort, by_contra fun hsp => ?_⟩
  · exact absurd hbad (by simp [State.dscBad, hzero])
  · exact absurd hbad (by simp [State.dscBad, hfill, hsp])

theorem RowFill.fill {d : Dsc} (h : RowFill d) : d.fill = true := decide_eq_true h.op

/-- It is one piece. -/
theorem RowFill.total {d : Dsc} (h : RowFill d) : d.total = 1 := by
  have hper : d.perRow = 1 := by
    have hpos := h.pos
    have hshort := h.short
    simp only [Dsc.perRow, Dsc.pieceLen, ceilDiv, h.srcSp, h.dstSp]
    norm_num
    omega
  rw [Dsc.total, h.rows, hper]

theorem Dsc.dstAt_zero (d : Dsc) : d.dstAt 0 = d.dst := by simp [Dsc.dstAt, Dsc.pRow, Dsc.pOff]
theorem Dsc.pOff_zero (d : Dsc) : d.pOff 0 = 0 := by simp [Dsc.pOff]
theorem RowFill.pLen {d : Dsc} (h : RowFill d) : d.pLen 0 = d.rowLen := by
  have hshort := h.short
  simp [Dsc.pLen, Dsc.pOff, Dsc.pieceLen, h.srcSp, h.dstSp, hshort]

theorem State.chanStep_fill {n : Nat} (hflight : s.flight n = [e.toChan]) (hd : RowFill e.bytes) (hstop : s.cstate ≠ 1) (hblocks : s.cke.blocks = []) :
    s.chanStep n = (((s.write none none (Dsc.dst e.bytes) e.fillBytes).modChan n e.tkt fun c => { c with moved := c.moved + e.fillBytes.length }).modChan n e.tkt
      fun c => { c with unit := c.unit + 1 }, true) := by
  have hissued : e.toChan.allIssued = false := by simp [Chan.allIssued, Entry.toChan, hd.total]
  have hlocal : s.getLocal n e.toChan 0 = (s, e.fillBytes, false) := by
    have hf : Dsc.fill e.toChan.desc = true := hd.fill
    have hl : Dsc.pLen e.toChan.desc 0 = Dsc.rowLen e.bytes := hd.pLen
    simp only [State.getLocal, hf, if_true, hl, Dsc.pOff_zero, Nat.zero_add]
    rfl
  have hput : s.putPiece n e.toChan 0 e.fillBytes false =
      ((s.write none none (Dsc.dst e.bytes) e.fillBytes).modChan n e.tkt fun c => { c with moved := c.moved + e.fillBytes.length }, true) := by
    have hsp : Dsc.dstSp e.toChan.desc = 0 := hd.dstSp
    have ha : Dsc.dstAt e.toChan.desc 0 = Dsc.dst e.bytes := Dsc.dstAt_zero _
    simp only [State.putPiece, hsp, ha, State.putSpm, State.writeBlock, hblocks]
    rfl
  have hs : Dsc.srcSp e.toChan.desc = 0 := hd.srcSp
  unfold State.chanStep
  rw [hflight]
  simp only [List.getLast?_singleton, hissued, hs]
  rw [if_neg (by simp [Entry.toChan, hstop]), if_neg (by simp), if_neg (by simp)]
  rw [show e.toChan.unit = 0 from rfl, hlocal]
  dsimp only
  rw [hput]
  rfl

/-- The fill at its end. -/
def Entry.filled (e : Entry) : Chan := { e.toChan with unit := 1, moved := Dsc.rowLen e.bytes }

/-- The state in which a fill has put its piece. -/
def State.afterFill (s : State) (n : Nat) (e : Entry) : State :=
  ((s.write none none (Dsc.dst e.bytes) e.fillBytes).modChan n e.tkt fun c => { c with moved := c.moved + e.fillBytes.length }).modChan n e.tkt
    fun c => { c with unit := c.unit + 1 }

theorem State.flight_afterFill {n : Nat} (hs : InPlace s) (hflight : s.flight n = [e.toChan]) : (s.afterFill n e).flight n = [e.filled] := by
  have hwrite : (s.write none none (Dsc.dst e.bytes) e.fillBytes).flight n = [e.toChan] := by
    rw [(State.stores_write_none hs ..).only]
    exact hflight
  have hmoved := State.flight_modChan_one hwrite fun c => { c with moved := c.moved + e.fillBytes.length }
  have hlen : e.fillBytes.length = Dsc.rowLen e.bytes := by simp [Entry.fillBytes, upto]
  refine (State.flight_modChan_one hmoved fun c => { c with unit := c.unit + 1 }).trans ?_
  rw [hlen]
  simp [Entry.filled, Entry.toChan]

/-- Behind its only piece the fill is at its end. -/
theorem State.chanRun_fill {n : Nat} (hs : InPlace s) (hflight : s.flight n = [e.toChan]) (hd : RowFill e.bytes) (hstop : s.cstate ≠ 1)
    (hblocks : s.cke.blocks = []) : s.chanRun n = s.afterFill n e := by
  have hissued : e.filled.allIssued = true := by simp [Chan.allIssued, Entry.filled, Entry.toChan, hd.total]
  have hlast : (s.afterFill n e).chanStep n = (s.afterFill n e, false) := by
    simp [State.chanStep, State.flight_afterFill hs hflight, hissued]
  have hfirst : s.chanStep n = (s.afterFill n e, true) := State.chanStep_fill hflight hd hstop hblocks
  simp [State.chanRun, hflight, chanLoop, hfirst, hlast]

/-- A fill's bytes stand in its row, and no other byte changes. -/
theorem State.byte_afterFill {n : Nat} (hs : InPlace s) (a : Nat) :
    (s.afterFill n e).spm.byte a =
      if Dsc.dst e.bytes ≤ a ∧ a < Dsc.dst e.bytes + Dsc.rowLen e.bytes then Dsc.pattern e.bytes (a - Dsc.dst e.bytes) else s.spm.byte a := by
  have hlen : e.fillBytes.length = Dsc.rowLen e.bytes := by simp [Entry.fillBytes, upto]
  have hbytes : (s.afterFill n e).spm.byte = putBytes s.spm.byte (pairsAt (Dsc.dst e.bytes) e.fillBytes) := (State.stores_write_none hs ..).bytes
  rw [hbytes, putBytes_pairsAt, hlen]
  split
  next h =>
    have hin : a - Dsc.dst e.bytes < e.fillBytes.length := by omega
    rw [List.getD_eq_getElem _ _ hin]
    simp [Entry.fillBytes, upto]
  next => rfl

theorem State.afterFill_only {n : Nat} (hs : InPlace s) :
    (s.afterFill n e).qsy = s.qsy ∧ sameRegs s (s.afterFill n e) := by
  have honly := (State.stores_write_none hs (Dsc.dst e.bytes) e.fillBytes false).only
  rw [State.afterFill, honly]
  exact ⟨rfl, fun st => by cases st <;> exact ⟨rfl, rfl, rfl⟩⟩

end

/-! ### A descriptor completes (06 R166) -/

theorem State.rb_setRf_other (s : State) {off k : Nat} (h : off ≠ k) (hi lo v i : Nat) : (s.setRf off hi lo v).rb k i = s.rb k i := by
  rw [State.rb, State.rd_setRf_other _ h, State.rb]

/-- The counters leave the pending events. -/
theorem State.rb_perf {s : State} {i : Nat} (h : s.rb 0x100 i = true) (n k : Nat) : (s.perf n k).rb 0x100 i = true := by
  have hoff : ∀ m, 0x9100 + 8 * m ≠ 0x100 := fun m => by omega
  have hi : i < 64 := by
    by_contra hge
    rw [State.rb_eq_false _ _ (by omega)] at h
    cases h
  unfold State.perf
  split
  · exact h
  dsimp only
  split
  · rw [State.rb_raise _ _ hi, State.rb_setRf_other _ (by decide), State.incRf, State.rb_setRf_other _ (hoff n), State.rb_setRf_other _ (hoff n), h,
      Bool.or_true]
  · rw [State.rb_setRf_other _ (hoff n), h]

/-- The record of a descriptor that is done (06 Table 6-8). -/
def Chan.record (c : Chan) : Entry :=
  mkEntry [⟨BitVec.ofNat 512 (c.status + c.tkt * 2 ^ 8 + min c.moved 0xFFFFFFFF * 2 ^ 24), false, .good⟩]

/-- A record's push proceeds where no producer waits, the quota allows it, and its ticket is new. -/
theorem State.enginePushT_proceeds {s : State} {agent n tkt : Nat} {e : Entry} (hbound : s.ctxBound n = true) (hprod : (s.ctx n).prod = [])
    (hroom : s.canAlloc n e.cars.length = true) (hahead : (tkt + 65536 - (s.ctx n).et) % 65536 < 32768) (hnew : ∀ x ∈ (s.ctx n).entries, x.tkt ≠ tkt) :
    s.enginePushT agent n (some tkt) e = s.modCtx n fun c => { c with entries := c.entries ++ [{ e with tkt := tkt }] } := by
  have hhold : s.hold n { e with tkt := tkt } = s.modCtx n fun c => { c with entries := c.entries ++ [{ e with tkt := tkt }] } :=
    State.hold_new hahead hnew
  simp [State.enginePushT, hbound, hprod, hroom, State.pushNow, hhold]

/-- The events of a completion. -/
def State.completed (s : State) (c : Chan) : State :=
  let s := if c.status ≠ 0 then s.raise evDmaError else s
  let s := if Dsc.flags c.desc % 2 = 1 then s.raise evDmaDone else s
  s.perf 11 1

theorem State.completed_frame (s : State) (c : Chan) :
    (s.completed c).chans = s.chans ∧ (s.completed c).spm = s.spm ∧ (s.completed c).qsy = s.qsy ∧ ∀ st, (s.completed c).str st = s.str st := by
  unfold State.completed
  dsimp only
  split <;> split <;> simp

theorem State.completed_done (s : State) {c : Chan} (h : Dsc.flags c.desc % 2 = 1) : (s.completed c).rb 0x100 3 = true := by
  refine State.rb_perf ?_ ..
  rw [if_pos h]
  exact State.rb_raise_same _ (by decide)

theorem State.completed_error (s : State) {c : Chan} (h : c.status ≠ 0) : (s.completed c).rb 0x100 4 = true := by
  have herror : (s.raise evDmaError).rb 0x100 4 = true := State.rb_raise_same _ (by decide)
  refine State.rb_perf ?_ ..
  rw [if_pos h]
  split
  · rw [State.rb_raise _ _ (by decide), herror, Bool.or_true]
  · exact herror

/-- The descriptors that are left in flight in a channel. -/
def State.setFlight (s : State) (n : Nat) (l : List Chan) : State := { s with chans := tset [] s.chans n l }

/-- The first descriptor of a channel, all done and with nothing before it, leaves the channel and pushes its record. -/
theorem dmaComplete_pushes {s : State} {ch : BitVec 4} {c : Chan} {r : List Chan} {cc : Nat} (hflight : s.flight ch.toNat = c :: r)
    (hissued : c.allIssued = true) (hleft : c.left = 0) (hpark : c.park = []) (hheld : c.held = false) (htodo : s.fab.todo = [])
    (hbehind : ∀ p ∈ s.qsy, ∀ q ∈ p.2.prod, q.agent ≠ 40 + ch.toNat) (hop : Dsc.op c.desc ≠ 2)
    (hcc : (if Dsc.flags c.desc / 2 % 2 = 1 then 32 + ch.toNat else Dsc.cctx c.desc) = cc) (hbound : s.ctxBound cc = true) (hclass : s.ctxClass cc = 4)
    (hprod : (s.ctx cc).prod = []) (hroom : s.canAlloc cc 1 = true) (hahead : (Dsc.ctkt c.desc + 65536 - (s.ctx cc).et) % 65536 < 32768)
    (hnew : ∀ x ∈ (s.ctx cc).entries, x.tkt ≠ Dsc.ctkt c.desc) :
    execDmaDescriptorComplete ch s = .next (((s.setFlight ch.toNat r).modCtx cc fun q =>
      { q with entries := q.entries ++ [{ c.record with tkt := Dsc.ctkt c.desc }] }).completed c) := by
  have hfirst : (s.qsy.any fun p => p.2.prod.any fun p => p.agent = 40 + ch.toNat) = false := by
    simpa [List.any_eq_false] using hbehind
  have hpush : (s.setFlight ch.toNat r).enginePushT (40 + ch.toNat) cc (some (Dsc.ctkt c.desc)) c.record = _ :=
    State.enginePushT_proceeds (s := s.setFlight ch.toNat r) hbound hprod hroom hahead hnew
  have hb : (s.setFlight ch.toNat r).ctxBound cc = true := hbound
  have hc : (s.setFlight ch.toNat r).ctxClass cc = 4 := hclass
  unfold execDmaDescriptorComplete
  dsimp only
  rw [hflight]
  dsimp only
  rw [hfirst, htodo, hcc, if_pos (by simp [hissued, hleft, hpark, hheld, hop])]
  change Host.Outcome.next (State.completed (if ((s.setFlight ch.toNat r).ctxBound cc && decide ((s.setFlight ch.toNat r).ctxClass cc = 4)) = true then
    (s.setFlight ch.toNat r).enginePushT (40 + ch.toNat) cc (some (Dsc.ctkt c.desc)) c.record else _) c) = _
  rw [if_pos (by simp [hb, hc]), hpush]

/-! ### A load of an instruction memory completes (09 R242) -/

/-- A table after a run of consecutive writes. -/
theorem tget_foldl_tset {α : Type} [DecidableEq α] (d : α) (t : Tbl α) (base m : Nat) (v : Nat → α) (k : Nat) :
    tget d ((upto m).foldl (fun t r => tset d t (base + r) (v r)) t) k = if base ≤ k ∧ k < base + m then v (k - base) else tget d t k := by
  induction m with
  | zero => simp [upto]
  | succ m ih =>
    rw [upto, List.range_succ, List.foldl_append, List.foldl_cons, List.foldl_nil, tget_tset]
    split
    next h => rw [if_pos (by omega), show k - base = m by omega]
    next h =>
      rw [← upto, ih]
      by_cases hin : base ≤ k ∧ k < base + m
      · rw [if_pos hin, if_pos (by omega)]
      · rw [if_neg hin, if_neg (by omega)]

theorem State.rows_setBank (s : State) (bank : Nat) (row : Nat → BitVec 160) (k : Nat) :
    tget 0 (s.setBank bank row).imem.rows k = if bank * 8192 ≤ k ∧ k < bank * 8192 + 8192 then row (k - bank * 8192) else tget 0 s.imem.rows k := by
  unfold State.setBank
  dsimp only
  rw [tget_foldl_tset]

theorem State.ecc_setBank (s : State) (bank : Nat) (row : Nat → BitVec 160) (k : Nat) :
    tget .good (s.setBank bank row).imem.ecc k = if bank * 8192 ≤ k ∧ k < bank * 8192 + 8192 then .good else tget .good s.imem.ecc k := by
  unfold State.setBank
  dsimp only
  rw [tget_foldl_tset _ _ _ _ fun _ => Ecc.good]

theorem State.str_setBank (s : State) (bank : Nat) (row : Nat → BitVec 160) (st : Sid) : (s.setBank bank row).str st = s.str st := by
  unfold State.setBank
  cases st <;> simp only [State.str]

/-- Row r of a sound image. -/
def imageRow (b : List Byte) (r : Nat) : BitVec 160 :=
  if r < rdLe b 8 2 then BitVec.ofNat 160 (rdLe b (128 + 16 * r) 16 + rdLe b (128 + 16 * rdLe b 8 2 + 4 * r) 4 * 2 ^ 128) else 0

/-- The registers of a bank whose load ended with a sound image. -/
def State.noteImage (s : State) (b : List Byte) (info : Nat) : State :=
  let dig := sha384 (b.take (128 + 20 * rdLe b 8 2))
  let s := (upto 6).foldl (fun s i => s.wr (info + 0x20 + 8 * i) (BitVec.ofNat 64 (rdLe dig (8 * i) 8))) s
  let s := (((s.setRf info 61 59 0).setRf info 47 40 (rdLe b 5 1)).setRf info 39 32 (rdLe b 6 1)).setRf info 15 0 (rdLe b 8 2)
  let s := (s.setRf (info + 8) 28 16 (rdLe b 12 2)).setRf (info + 8) 12 0 (rdLe b 10 2)
  s.setRf info 63 63 1

theorem State.rf_setRf_disjoint (s : State) (off : Nat) {hi lo hi' lo' : Nat} (v : Nat) (h : lo ≤ hi) (h' : lo' ≤ hi') (h64 : hi' < 64)
    (hd : hi < lo' ∨ hi' < lo) : (s.setRf off hi lo v).rf off hi' lo' = s.rf off hi' lo' := by
  rw [State.rf, State.setRf, State.rd_wr, if_pos rfl, fld_putFld_other _ _ h h' h64 hd, State.rf]

theorem State.rf_setRf_other (s : State) {off k : Nat} (h : off ≠ k) (hi lo v hi' lo' : Nat) : (s.setRf off hi lo v).rf k hi' lo' = s.rf k hi' lo' := by
  rw [State.rf, State.rd_setRf_other _ h, State.rf]

theorem State.rb_setRf_same (s : State) (off i : Nat) (h : i < 64) : (s.setRf off i i 1).rb off i = true := by
  rw [State.rb, State.setRf, State.rd_wr, if_pos rfl, bit_putFld _ _ le_rfl h, if_pos ⟨le_rfl, le_rfl⟩, Nat.sub_self]
  rfl

theorem State.noteImage_valid (s : State) (b : List Byte) (info : Nat) : (s.noteImage b info).rb info 63 = true :=
  State.rb_setRf_same _ _ _ (by decide)

theorem State.noteImage_hdrErr (s : State) (b : List Byte) (info : Nat) : (s.noteImage b info).rf info 61 59 = 0 := by
  unfold State.noteImage
  dsimp only
  generalize (upto 6).foldl _ s = u
  rw [State.rf_setRf_disjoint _ _ _ (by decide) (by decide) (by decide) (by decide), State.rf_setRf_other _ (by omega), State.rf_setRf_other _ (by omega),
    State.rf_setRf_disjoint _ _ _ (by decide) (by decide) (by decide) (by decide), State.rf_setRf_disjoint _ _ _ (by decide) (by decide) (by decide) (by decide),
    State.rf_setRf_disjoint _ _ _ (by decide) (by decide) (by decide) (by decide), State.rf_setRf_same _ _ (by decide) (by decide)]
  rfl

theorem State.foldl_wr_onlyCsr {s t : State} (h : onlyCsr s t) (l : List Nat) (off : Nat → Nat) (v : Nat → W64) :
    onlyCsr s (l.foldl (fun s i => s.wr (off i) (v i)) t) := by
  induction l generalizing t with
  | nil => exact h
  | cons i l ih => exact ih (State.wr_onlyCsr h ..)

theorem State.setRf_onlyCsr {s t : State} (h : onlyCsr s t) (off hi lo v : Nat) : onlyCsr s (t.setRf off hi lo v) := State.wr_onlyCsr h ..

theorem State.noteImage_onlyCsr (s : State) (b : List Byte) (info : Nat) : onlyCsr s (s.noteImage b info) := by
  unfold State.noteImage
  dsimp only
  have hdig := State.foldl_wr_onlyCsr (t := s) rfl (upto 6) (fun i => info + 0x20 + 8 * i) fun i =>
    BitVec.ofNat 64 (rdLe (sha384 (b.take (128 + 20 * rdLe b 8 2))) (8 * i) 8)
  revert hdig
  generalize (upto 6).foldl _ s = u
  exact fun hdig => State.setRf_onlyCsr (State.setRf_onlyCsr (State.setRf_onlyCsr (State.setRf_onlyCsr (State.setRf_onlyCsr (State.setRf_onlyCsr
    (State.setRf_onlyCsr hdig ..) ..) ..) ..) ..) ..) ..

theorem hdrErr_lt (b : List Byte) (cap rowLen status : Nat) : hdrErr b cap rowLen status < 8 := by
  unfold hdrErr
  dsimp only
  repeat' split
  all_goals omega

/-- A load that is all done and ended well. -/
structure Loaded (s : State) (n : Nat) (c : Chan) : Prop where
  first : ((s.flight n).find? fun c => decide (Dsc.op c.desc = 2) && !c.loaded && c.allIssued && c.left = 0) = some c
  well : c.status = 0

/-- The state in which the load's descriptor is marked as loaded. -/
def State.markLoaded (s : State) (n : Nat) (c : Chan) : State := s.modChan n c.tkt fun c => { c with loaded := true }

section
variable {s : State} {ch : BitVec 4} {c : Chan} (h : Loaded s ch.toNat c)
include h

theorem imemLoad_sound (he : hdrErr c.rowBytes (s.rf (bankInfo (Dsc.dst c.desc)) 31 16) (Dsc.rowLen c.desc) 0 = 0) :
    execImemLoadComplete ch s =
      .next (((s.markLoaded ch.toNat c).setBank (Dsc.dst c.desc) (imageRow c.rowBytes)).noteImage c.rowBytes (bankInfo (Dsc.dst c.desc))) := by
  unfold execImemLoadComplete
  dsimp only
  rw [h.first]
  dsimp only
  rw [if_neg (by simp [h.well, he])]
  rfl

theorem imemLoad_bad (he : hdrErr c.rowBytes (s.rf (bankInfo (Dsc.dst c.desc)) 31 16) (Dsc.rowLen c.desc) 0 ≠ 0) :
    execImemLoadComplete ch s = .next (((s.markLoaded ch.toNat c).setBank (Dsc.dst c.desc) fun _ => 0).setRf (bankInfo (Dsc.dst c.desc)) 61 59
      (hdrErr c.rowBytes (s.rf (bankInfo (Dsc.dst c.desc)) 31 16) (Dsc.rowLen c.desc) 0)) := by
  unfold execImemLoadComplete
  dsimp only
  rw [h.first]
  dsimp only
  rw [h.well]
  simp only [ne_eq, not_true_eq_false, decide_false, Bool.false_and, Bool.false_eq_true, if_false]
  rw [if_pos he]
  rfl

end

/-- What a write of every row leaves of a bank and of the others. -/
theorem State.setBank_spec (s : State) (bank : Nat) (row : Nat → BitVec 160) :
    (∀ k, k / 8192 ≠ bank → tget 0 (s.setBank bank row).imem.rows k = tget 0 s.imem.rows k) ∧
    ∀ r, r < 8192 → tget .good (s.setBank bank row).imem.ecc (bank * 8192 + r) = .good ∧ tget 0 (s.setBank bank row).imem.rows (bank * 8192 + r) = row r := by
  refine ⟨fun k hk => ?_, fun r hr => ⟨?_, ?_⟩⟩
  · rw [State.rows_setBank, if_neg (by omega)]
  · rw [State.ecc_setBank, if_pos (by omega)]
  · rw [State.rows_setBank, if_pos (by omega), Nat.add_sub_cancel_left]

theorem onlyCsr.refl (s : State) : onlyCsr s s := rfl

theorem onlyCsr.frame {s t : State} (h : onlyCsr s t) : t.spm = s.spm ∧ t.imem = s.imem ∧ t.qsy = s.qsy ∧ t.bars = s.bars ∧ ∀ st, t.str st = s.str st := by
  rw [onlyCsr] at h
  rw [h]
  exact ⟨rfl, rfl, rfl, rfl, fun st => by cases st <;> rfl⟩

/-- Settles O41, by the start of a descriptor, its completion, and the end of an image's load. -/
theorem dmaDescriptorsRun : Obligations.DmaDescriptorsRun := by
  unfold Obligations.DmaDescriptorsRun
  refine ⟨fun s ch e => ?_, fun s ch c r => ?_, fun s ch c => ?_⟩
  · intro n d hbound hempty hstop hhead hown hcs hord hsound
    have hstart : Startable s n e := ⟨hbound, hempty, hstop, hhead, hown, hcs, hord, hsound⟩
    have hput : ∀ c : Chan, ((s.ringTaken n e).putChan n c).flight n = [c] := fun c => by
      rw [State.flight_putChan, show (s.ringTaken n e).flight n = [] from hempty]
      rfl
    intro c taken
    have htaken : ∀ t : State, t.qsy = (s.ringTaken n e).qsy → taken t := fun t ht => by
      have hctx : t.ctx (16 + n) = (s.ringTaken n e).ctx (16 + n) := by rw [State.ctx, ht]; rfl
      rw [State.ringTaken, State.ctx_modCtx_same] at hctx
      exact ⟨by rw [hctx], by rw [hctx]⟩
    refine ⟨fun hbad => ⟨_, dmaStart_bad hstart hbad, htaken _ rfl, rfl, fun st => by cases st <;> exact ⟨rfl, rfl, rfl⟩, hput _⟩, ?_⟩
    intro hbad hfill hdst hrows hshort hblocks hlogA hlogX hdirA hdirX hgone
    have hd : RowFill e.bytes := .of_sound hbad hfill hdst hrows hshort
    have hin : InPlace ((s.ringTaken n e).putChan n e.toChan) := ⟨hlogA, hlogX, hdirA, hdirX, hgone⟩
    obtain ⟨hqsy, hregs⟩ := State.afterFill_only (e := e) (n := n) hin
    refine ⟨_, (dmaStart_fill hstart hbad hd.op).trans (congrArg _ (State.chanRun_fill hin (hput _) hd hstop hblocks)), htaken _ hqsy,
      fun st => by cases st <;> exact hregs _, State.flight_afterFill hin (hput _), fun i hi => ?_, fun a ha => ?_⟩
    · rw [State.byte_afterFill hin, if_pos ⟨Nat.le_add_right .., Nat.add_lt_add_left hi _⟩]
      change Dsc.pattern d (d.dst + i - d.dst) = _
      rw [Nat.add_sub_cancel_left]
      rfl
    · rw [State.byte_afterFill hin, if_neg ha]
      rfl
  · intro n d cc hflight hissued hleft hpark hheld htodo hbehind hop _ _ hbound hclass hprod hroom hahead hnew
    obtain ⟨hchans, hspm, hqsy, hstr⟩ := State.completed_frame ((s.setFlight n r).modCtx cc fun q =>
      { q with entries := q.entries ++ [{ c.record with tkt := d.ctkt }] }) c
    refine ⟨_, dmaComplete_pushes hflight hissued hleft hpark hheld htodo hbehind hop rfl hbound hclass hprod hroom hahead hnew, ?_, hspm, fun st => ?_, ?_,
      fun hdone => State.completed_done _ hdone, fun herror => State.completed_error _ herror⟩
    · rw [State.flight, hchans]
      exact tget_tset_same ..
    · rw [hstr]
      cases st <;> exact ⟨rfl, rfl, rfl⟩
    · have hrecord : c.status + 256 * c.tkt + 2 ^ 24 * min c.moved 0xFFFFFFFF = c.status + c.tkt * 2 ^ 8 + min c.moved 0xFFFFFFFF * 2 ^ 24 := by omega
      rw [State.ctx, hqsy, ← State.ctx, State.ctx_modCtx_same, hrecord]
      rfl
  · intro n d b units hfirst hwell err
    have hload : Loaded s ch.toNat c := ⟨hfirst, hwell⟩
    have hregs : ∀ t : State, (∀ st, t.str st = (s.markLoaded n c).str st) → sameRegs s t := fun t ht st => by
      rw [ht]
      cases st <;> exact ⟨rfl, rfl, rfl⟩
    by_cases he : err = 0
    · obtain ⟨hspm, himem, -, -, hstr⟩ := (((s.markLoaded n c).setBank d.dst (imageRow b)).noteImage_onlyCsr b (bankInfo d.dst)).frame
      obtain ⟨hothers, hrows⟩ := (s.markLoaded n c).setBank_spec d.dst (imageRow b)
      refine ⟨_, imemLoad_sound hload he, hspm, hregs _ fun st => ?_, fun k hk => ?_, fun r hr => ?_, fun _ => State.noteImage_valid .., ?_⟩
      · rw [hstr, State.str_setBank]
      · rw [himem]
        exact hothers k hk
      · obtain ⟨hecc, hrow⟩ := hrows r hr
        rw [himem, hrow]
        refine ⟨hecc, ?_⟩
        simp only [he, true_and]
        rfl
      · rw [he]
        exact State.noteImage_hdrErr ..
    · obtain ⟨hothers, hrows⟩ := (s.markLoaded n c).setBank_spec d.dst fun _ => 0
      refine ⟨_, imemLoad_bad hload he, rfl, hregs _ fun st => ?_, hothers, fun r hr => ?_, fun h0 => absurd h0 he, ?_⟩
      · obtain ⟨-, -, -, -, hstr⟩ := (State.setRf_onlyCsr (onlyCsr.refl ((s.markLoaded n c).setBank d.dst fun _ => 0)) (bankInfo d.dst) 61 59 err).frame
        exact (hstr st).trans (State.str_setBank ..)
      · rw [if_neg fun hin => he hin.1]
        exact hrows r hr
      · exact (State.rf_setRf_same _ _ (by decide) (by decide) _).trans (Nat.mod_eq_of_lt (hdrErr_lt ..))

end Sys2Proof.Machine
end

section
/-!
PROOFS. Host writes of the registers with an effect of their own, and O51.
-/

namespace Sys2Proof.Machine

/-! ### A context's binding (06 R143 to R146) -/

/-- W0 as a write of a context without a fixed class stores it. -/
def storedW0 (v : W64) : W64 := putFld (putFld v 25 0 0) 63 61 (fld v 63 61)

theorem fld_storedW0 (v : W64) {hi lo : Nat} (hlo : 26 ≤ lo) (hle : lo ≤ hi) (hhi : hi < 61) : fld (storedW0 v) hi lo = fld v hi lo := by
  rw [storedW0, fld_putFld_other _ _ (by decide) hle (by omega) (by omega), fld_putFld_other _ _ (by decide) hle (by omega) (by omega)]

theorem fld_storedW0_class (v : W64) : fld (storedW0 v) 63 61 = fld v 63 61 := by
  rw [storedW0, fld_putFld_same _ _ (by decide) (by decide)]
  exact Nat.mod_eq_of_lt (Nat.mod_lt _ (by decide))

theorem bit_storedW0 (v : W64) : bit (storedW0 v) 60 = bit v 60 := by
  rw [storedW0, bit_putFld _ _ (by decide) (by decide), if_neg (by decide), bit_putFld _ _ (by decide) (by decide), if_neg (by decide)]

/-- Above bit 25 the stored word is the written one. -/
theorem fld_storedW0_config (v : W64) : fld (storedW0 v) 63 26 = fld v 63 26 := by
  apply Nat.eq_of_testBit_eq
  intro j
  rw [testBit_fld, testBit_fld]
  by_cases hj : j < 63 - 26 + 1
  · rw [storedW0, bit_putFld _ _ (by decide) (by omega), bit_putFld _ _ (by decide) (by omega), if_neg (by omega : ¬ (0 ≤ 26 + j ∧ 26 + j ≤ 25)), testBit_fld]
    split
    next h => rw [show 61 + (26 + j - 61) = 26 + j by omega, decide_eq_true (by omega : 26 + j - 61 < 63 - 61 + 1), Bool.true_and]
    next => rfl
  · simp [hj]

section
variable {s : State} {n : Nat} {v : W64} (hunus : ctxUnusable n = false) (hfree : ctxFixed n = none)
include hunus hfree

/-- A context without a fixed class is bound as its W0 says. -/
theorem State.ctxBound_free : s.ctxBound n = bit (s.ctx n).w0 60 := by
  have hrange : ¬ (16 ≤ n ∧ n ≤ 31) := fun h => by
    simp only [ctxFixed] at hfree
    split at hfree
    · cases hfree
    · split at hfree
      · cases hfree
      · rw [if_pos h.2] at hfree
        cases hfree
  have hr : (decide (16 ≤ n) && decide (n ≤ 31)) = false := by simpa using hrange
  rw [State.ctxBound, hunus, hr]
  simp

theorem State.writeW0_free (hclass : fld v 63 61 ∈ [0, 4, 5, 6]) (hquota : fld v 59 44 ≤ fld v 43 28)
    (hbusy : bit (s.ctx n).w0 60 = true → bit v 60 = false ∧ s.ctxInUse n = false)
    (hpool : bit v 60 = true → s.minSum + fld v 59 44 ≤ s.rf 0x2048 15 0) :
    s.writeW0 n v =
      if bit (s.ctx n).w0 60 then s.modCtx n fun c => { c with w0 := storedW0 v, entries := [] }
      else if bit v 60 then
        s.modCtx n fun c => { c with w0 := storedW0 v, nt := 0, et := 0, entries := [], credit := if fld v 63 61 = 5 then fld v 43 28 else c.credit }
      else s.modCtx n fun c => { c with w0 := storedW0 v } := by
  have hbit : bit (putFld v 25 0 0) 60 = bit v 60 := by rw [bit_putFld _ _ (by decide) (by decide), if_neg (by decide)]
  have hcls : fld (putFld v 25 0 0) 63 61 = fld v 63 61 := fld_putFld_other _ _ (by decide) (by decide) (by decide) (by decide)
  have hstored : putFld (putFld v 25 0 0) 63 61 (fld v 63 61) = storedW0 v := rfl
  have hminq : fld (storedW0 v) 59 44 = fld v 59 44 := fld_storedW0 v (by decide) (by decide) (by decide)
  have hmaxq : fld (storedW0 v) 43 28 = fld v 43 28 := fld_storedW0 v (by decide) (by decide) (by decide)
  have hok : (decide (fld v 63 61 = 0) || decide (fld v 63 61 = 4) || decide (fld v 63 61 = 5) || decide (fld v 63 61 = 6)) = true := by
    simpa [or_assoc] using hclass
  have hn : n ≠ 56 ∧ n ≠ 57 := ⟨by rintro rfl; simp [ctxFixed] at hfree, by rintro rfl; simp [ctxFixed] at hfree⟩
  have hmax : ¬ fld v 43 28 < fld v 59 44 := by omega
  simp only [State.writeW0, hunus, State.ctxBound_free hunus hfree, hfree, Option.getD_none, hbit, hcls, hstored, hminq, hmaxq, bit_storedW0, hok]
  cases hb : bit (s.ctx n).w0 60 with
  | true =>
    obtain ⟨hv, huse⟩ := hbusy hb
    simp [hv, huse, hn, hmax]
  | false =>
    cases hv : bit v 60 with
    | true =>
      have hroom : ¬ s.rf 0x2048 15 0 < s.minSum + fld v 59 44 := by
        have := hpool hv
        omega
      simp [hn, hmax, hroom]
    | false => simp [hn, hmax]

theorem State.writeW0_denied (hbound : bit (s.ctx n).w0 60 = true) (h : bit v 60 = true ∨ s.ctxInUse n = true) : s.writeW0 n v = s.qsyDeny 1 := by
  have hbit : bit (putFld v 25 0 0) 60 = bit v 60 := by rw [bit_putFld _ _ (by decide) (by decide), if_neg (by decide)]
  simp only [State.writeW0, hunus, State.ctxBound_free hunus hfree, hbound, hbit, Bool.true_and, Bool.false_eq_true, if_false]
  obtain hv | huse := h
  · rw [if_pos hv]
  · rw [if_pos huse, ite_self]

end

/-! ### Shadow regions and barriers (11 R301, 17 R429) -/

theorem State.shadowWrite_takes {s : State} {st : Sid} {v : W64} (hA : s.cA.st = .idle) (hX : s.cX.st = .idle)
    (htop : fld v 23 12 + fld v 44 32 ≤ 4096) (hsum : fld v 44 32 + s.rf (0x1400 + 8 * sidNat (otherSid st)) 44 32 ≤ 1024)
    (hapart : fld v 44 32 = 0 ∨ s.rf (0x1400 + 8 * sidNat (otherSid st)) 44 32 = 0 ∨
      fld v 23 12 + fld v 44 32 ≤ s.rf (0x1400 + 8 * sidNat (otherSid st)) 23 12 ∨
      s.rf (0x1400 + 8 * sidNat (otherSid st)) 23 12 + s.rf (0x1400 + 8 * sidNat (otherSid st)) 44 32 ≤ fld v 23 12) :
    s.shadowWrite st v = s.plainWrite (0x1400 + 8 * sidNat st) v := by
  refine if_neg ?_
  simp only [hA, hX, Bool.or_eq_true, Bool.and_eq_true, decide_eq_true_eq]
  simp
  omega

theorem State.shadowWrite_busy {s : State} {st : Sid} {v : W64} (h : s.cA.st ≠ .idle ∨ s.cX.st ≠ .idle) : s.shadowWrite st v = s.setRf 0x1418 11 11 1 := by
  refine if_pos ?_
  simp only [Bool.or_eq_true, decide_eq_true_eq]
  tauto

/-- A write of a shadow register's two fields. -/
theorem State.plainWrite_shadow (s : State) (st : Sid) (v : W64) :
    (s.plainWrite (0x1400 + 8 * sidNat st) v).rf (0x1400 + 8 * sidNat st) 23 12 = fld v 23 12 ∧
    (s.plainWrite (0x1400 + 8 * sidNat st) v).rf (0x1400 + 8 * sidNat st) 44 32 = fld v 44 32 := by
  have hfields : regFields (0x1400 + 8 * sidNat st) = [⟨44, 32, .rw, 0⟩, ⟨23, 12, .rw, 0⟩] := by cases st <;> decide +kernel
  have hrd : (s.plainWrite (0x1400 + 8 * sidNat st) v).rd (0x1400 + 8 * sidNat st) =
      putFld (putFld (s.rd (0x1400 + 8 * sidNat st)) 44 32 (fld v 44 32)) 23 12 (fld v 23 12) := by
    rw [State.rd_plainWrite_same, hfields]
    rfl
  constructor
  · rw [State.rf, hrd, fld_putFld_same _ _ (by decide) (by decide)]
    exact Nat.mod_eq_of_lt (Nat.mod_lt _ (by decide))
  · rw [State.rf, hrd, fld_putFld_other _ _ (by decide) (by decide) (by decide) (by decide), fld_putFld_same _ _ (by decide) (by decide)]
    exact Nat.mod_eq_of_lt (Nat.mod_lt _ (by decide))

section
variable {s : State} {v : W64} (hi : s.rf 0x150 6 0 < 16) (hfree : (s.bar (s.rf 0x150 6 0)).busy = false)
include hi hfree

theorem State.barWrite_w1 : s.barWrite true v = s.modBar (s.rf 0x150 6 0) fun b => { b with w1 := putFld (putFld v 62 36 0) 11 4 0 } := by
  simp [State.barWrite, hi, hfree]

theorem State.barWrite_w0 (hlo : 1 ≤ fld v 59 53) (hhi : fld v 59 53 ≤ 64) (hrange : fld v 52 47 + fld v 46 40 ≤ 64) :
    s.barWrite false v =
      if bit v 63 && !bit (s.bar (s.rf 0x150 6 0)).w0 63 then
        s.modBar (s.rf 0x150 6 0) fun b => { BarCtx.zero with w0 := putFld v 39 0 0, w1 := b.w1 }
      else s.modBar (s.rf 0x150 6 0) fun b => { b with w0 := putFld v 39 0 0 } := by
  have hwidth : (decide (fld v 59 53 = 0) || decide (fld v 59 53 > 64) || decide (fld v 52 47 + fld v 46 40 > 64)) = false := by
    simp only [Bool.or_eq_false_iff, decide_eq_false_iff_not]
    omega
  simp [State.barWrite, hi, hfree, hwidth]

theorem State.barWrite_refused (hzero : fld v 59 53 = 0) : s.barWrite false v = s.setRf 0x168 0 0 1 := by
  simp [State.barWrite, hi, hfree, hzero]

end

/-! ### Events and counters (17 R426, R428, R432) -/

/-- The events of a list whose bits are set are raised, and no other. -/
theorem State.rb_foldl_raise (s : State) (v : W64) (l : List Nat) {i : Nat} (hi : i < 64) :
    (l.foldl (fun s i => if bit v i then s.raise i else s) s).rb 0x100 i = (s.rb 0x100 i || (decide (i ∈ l) && bit v i)) := by
  induction l generalizing s with
  | nil => simp
  | cons j l ih =>
    rw [List.foldl_cons, ih]
    by_cases hj : i = j
    · subst hj
      cases bit v i <;> simp [State.rb_raise _ _ hi]
    · cases bit v j <;> simp [State.rb_raise _ _ hi, hj]

theorem onlyCsr.withRing {s t : State} (h : onlyCsr s t) : onlyCsrRing s t := by
  rw [onlyCsr] at h
  rw [onlyCsrRing, h]

theorem onlyCsrRing.raise {s t : State} (h : onlyCsrRing s t) (src : Nat) : onlyCsrRing s (t.raise src) := by
  have hraise : onlyCsrRing t (t.raise src) := by
    unfold State.raise
    dsimp only
    split <;> rfl
  rw [onlyCsrRing] at h hraise ⊢
  rw [hraise, h]

theorem State.testEvents_frame (s : State) (v : W64) (l : List Nat) {t : State} (ht : onlyCsrRing s t ∧ t.rd 0x118 = s.rd 0x118) :
    let u := l.foldl (fun s i => if bit v i then s.raise i else s) t
    onlyCsrRing s u ∧ u.rd 0x118 = s.rd 0x118 := by
  induction l generalizing t with
  | nil => exact ht
  | cons i l ih =>
    refine ih ?_
    dsimp only
    split
    · exact ⟨ht.1.raise i, by rw [State.rd_raise_other _ _ (by decide), ht.2]⟩
    · exact ht

/-- Counters that a clear has passed read 0. -/
theorem State.rd_foldl_clear (s : State) (m k : Nat) :
    ((upto m).foldl (fun s n => s.wr (0x9100 + 8 * n) 0) s).rd k = if ∃ n, n < m ∧ k = 0x9100 + 8 * n then 0 else s.rd k := by
  induction m with
  | zero => simp [upto]
  | succ m ih =>
    rw [upto, List.range_succ, List.foldl_append, List.foldl_cons, List.foldl_nil, State.rd_wr, ← upto, ih]
    by_cases hk : 0x9100 + 8 * m = k
    · rw [if_pos hk, if_pos ⟨m, by omega, hk.symm⟩]
    · rw [if_neg hk]
      refine if_congr ⟨fun ⟨n, hn, hkn⟩ => ⟨n, by omega, hkn⟩, fun ⟨n, hn, hkn⟩ => ⟨n, ?_, hkn⟩⟩ rfl rfl
      have : n ≠ m := fun h => hk (h ▸ hkn.symm)
      omega

theorem State.clearPerf_spec (s : State) :
    onlyCsr s s.clearPerf ∧ s.clearPerf.rd 0x9008 = 0 ∧ ∀ k, k < 16 → s.clearPerf.rd (0x9100 + 8 * k) = 0 := by
  unfold State.clearPerf
  refine ⟨State.foldl_wr_onlyCsr (State.wr_onlyCsr (onlyCsr.refl s) ..) (upto 16) (fun n => 0x9100 + 8 * n) fun _ => 0, ?_, fun k hk => ?_⟩
  · rw [State.rd_foldl_clear, if_neg (by omega), State.rd_wr, if_pos rfl]
  · rw [State.rd_foldl_clear, if_pos ⟨k, hk, rfl⟩]

theorem regFields_eccCnt : ∀ k, k < 16 → regFields (0x180 + 8 * k) = [⟨47, 32, .wzc, 0⟩, ⟨15, 0, .wzc, 0⟩] := by decide +kernel

/-- Each half of a count register clears where 0 is written to it. -/
theorem State.plainWrite_eccCnt (s : State) {k : Nat} (hk : k < 16) (v : W64) :
    (s.plainWrite (0x180 + 8 * k) v).rf (0x180 + 8 * k) 15 0 = (if fld v 15 0 = 0 then 0 else s.rf (0x180 + 8 * k) 15 0) ∧
    (s.plainWrite (0x180 + 8 * k) v).rf (0x180 + 8 * k) 47 32 = (if fld v 47 32 = 0 then 0 else s.rf (0x180 + 8 * k) 47 32) := by
  have hrd : (s.plainWrite (0x180 + 8 * k) v).rd (0x180 + 8 * k) =
      let w := if fld v 47 32 = 0 then putFld (s.rd (0x180 + 8 * k)) 47 32 0 else s.rd (0x180 + 8 * k)
      if fld v 15 0 = 0 then putFld w 15 0 0 else w := by
    rw [State.rd_plainWrite_same, regFields_eccCnt k hk]
    rfl
  simp only [State.rf, hrd]
  by_cases hlow : fld v 15 0 = 0 <;> by_cases hhigh : fld v 47 32 = 0 <;> simp [hlow, hhigh, fld_putFld_same, fld_putFld_other]

theorem State.eccCntWrite_spec (s : State) {k : Nat} (hk : k < 16) (v : W64) :
    onlyCsr s (s.eccCntWrite k v) ∧ (s.eccCntWrite k v).rd (0x180 + 8 * k) = (s.plainWrite (0x180 + 8 * k) v).rd (0x180 + 8 * k) := by
  unfold State.eccCntWrite
  dsimp only
  split
  · exact ⟨State.setRf_onlyCsr (s.plainWrite_onlyCsr ..) .., State.rd_setRf_other _ (by omega) ..⟩
  · exact ⟨s.plainWrite_onlyCsr .., rfl⟩

/-- A counter that counts past its last value goes on from 0; its wrap is counted and told. -/
theorem State.perf_wraps {s : State} (hon : s.rb 0x9000 1 = false) (n : Nat) :
    s.perf n (2 ^ 48 - s.rf (0x9100 + 8 * n) 47 0) =
      (((s.setRf (0x9100 + 8 * n) 47 0 (2 ^ 48)).incRf (0x9100 + 8 * n) 63 48).setRf 0x9008 n n 1).raise evPerfOvf := by
  have hlt := s.rf_counter_lt (0x9100 + 8 * n)
  have hsum : s.rf (0x9100 + 8 * n) 47 0 + (2 ^ 48 - s.rf (0x9100 + 8 * n) 47 0) = 2 ^ 48 := by omega
  simp only [State.perf, hon, hsum]
  simp

theorem State.wrapped_spec (s : State) {n : Nat} (hn : n < 16) :
    let t := (((s.setRf (0x9100 + 8 * n) 47 0 (2 ^ 48)).incRf (0x9100 + 8 * n) 63 48).setRf 0x9008 n n 1).raise evPerfOvf
    onlyCsrRing s t ∧ t.rf (0x9100 + 8 * n) 47 0 = 0 ∧ t.rf (0x9100 + 8 * n) 63 48 = satInc 16 (s.rf (0x9100 + 8 * n) 63 48) ∧
      t.rb 0x9008 n = true ∧ t.rb 0x100 31 = true := by
  intro t
  have hrf : ∀ hi lo, t.rf (0x9100 + 8 * n) hi lo = ((s.setRf (0x9100 + 8 * n) 47 0 (2 ^ 48)).incRf (0x9100 + 8 * n) 63 48).rf (0x9100 + 8 * n) hi lo :=
    fun hi lo => by rw [State.rf, State.rd_raise_other _ _ (by omega), ← State.rf, State.rf_setRf_other _ (by omega)]
  have hcounted : onlyCsr s ((s.setRf (0x9100 + 8 * n) 47 0 (2 ^ 48)).incRf (0x9100 + 8 * n) 63 48) :=
    State.setRf_onlyCsr (State.setRf_onlyCsr (onlyCsr.refl s) ..) ..
  refine ⟨(State.setRf_onlyCsr hcounted ..).withRing.raise _, ?_, ?_, ?_, ?_⟩
  · rw [hrf, State.incRf, State.rf_setRf_disjoint _ _ _ (by decide) (by decide) (by decide) (by decide), State.rf_setRf_same _ _ (by decide) (by decide)]
    exact Nat.mod_self (2 ^ 48)
  · rw [hrf, State.incRf, State.rf_setRf_same _ _ (by decide) (by decide), State.rf_setRf_disjoint _ _ _ (by decide) (by decide) (by decide) (by decide)]
    exact Nat.mod_eq_of_lt (lt_of_le_of_lt (min_le_left _ _) (by decide))
  · rw [State.rb, State.rd_raise_other _ _ (by decide), ← State.rb, State.rb_setRf_same _ _ _ (by omega)]
  · exact State.rb_raise_same _ (by decide)

/-! ### The writes -/

theorem State.sameRegs_modCtx (s : State) (n : Nat) (f : Ctx → Ctx) : sameRegs s (s.modCtx n f) := fun st => by cases st <;> exact ⟨rfl, rfl, rfl⟩

/-- A write of BAR.W0 that takes effect. -/
theorem State.barWrite_w0_spec {s : State} {v : W64} (hi : s.rf 0x150 6 0 < 16) (hfree : (s.bar (s.rf 0x150 6 0)).busy = false)
    (hlo : 1 ≤ fld v 59 53) (hhi : fld v 59 53 ≤ 64) (hrange : fld v 52 47 + fld v 46 40 ≤ 64) :
    let i := s.rf 0x150 6 0
    let t := s.barWrite false v
    fld (t.bar i).w0 63 40 = fld v 63 40 ∧ (t.bar i).w1 = (s.bar i).w1 ∧ t.csr = s.csr ∧ (∀ k, k ≠ i → t.bar k = s.bar k) ∧
      (bit v 63 = true → bit (s.bar i).w0 63 = false → (t.bar i).o = 0 ∧ (t.bar i).ga = 0 ∧ (t.bar i).gx = 0) := by
  intro i t
  have hcfg : fld (putFld v 39 0 0) 63 40 = fld v 63 40 := fld_putFld_other _ _ (by decide) (by decide) (by decide) (by decide)
  have ht : t = _ := State.barWrite_w0 hi hfree hlo hhi hrange
  rw [ht]
  split
  · rw [State.bar_modBar_same]
    exact ⟨hcfg, rfl, rfl, fun k hk => s.bar_modBar_other _ hk, fun _ _ => ⟨rfl, rfl, rfl⟩⟩
  next hold =>
    rw [State.bar_modBar_same]
    exact ⟨hcfg, rfl, rfl, fun k hk => s.bar_modBar_other _ hk, fun hv hb => absurd (by simp [hv, hb, i] at hold ⊢) hold⟩

theorem fld_storedW1_place (v : W64) : fld (putFld (putFld v 62 36 0) 11 4 0) 35 12 = fld v 35 12 := by
  rw [fld_putFld_other _ _ (by decide) (by decide) (by decide) (by decide), fld_putFld_other _ _ (by decide) (by decide) (by decide) (by decide)]

theorem fld_storedW1_bar (v : W64) : fld (putFld (putFld v 62 36 0) 11 4 0) 3 0 = fld v 3 0 := by
  rw [fld_putFld_other _ _ (by decide) (by decide) (by decide) (by decide), fld_putFld_other _ _ (by decide) (by decide) (by decide) (by decide)]

section
variable (s : State) (v : W64) {off : W16} (halign : off.toNat % 8 = 0)
include halign

theorem State.execCsuVgWrite_aligned (hlo : 0x1500 ≤ off.toNat) (hhi : off.toNat < 0x1600) :
    execCsuVgWrite off v s = .next (s.atHost off.toNat fun s => s.vgWrite off.toNat v) := by
  have hoff : off.toNat / 8 * 8 = off.toNat := Nat.div_mul_cancel (Nat.dvd_of_mod_eq_zero halign)
  have hvg : isVgReg off.toNat = true := by
    simp only [isVgReg, Bool.and_eq_true, decide_eq_true_eq]
    omega
  simp only [execCsuVgWrite, hoff, hvg, if_true]

theorem State.execRepRecordWrite_aligned (hrec : isRecord off.toNat = true) :
    execRepRecordWrite off v s = .next (s.atHost off.toNat fun s => s.recordWrite off.toNat v) := by
  have hoff : off.toNat / 8 * 8 = off.toNat := Nat.div_mul_cancel (Nat.dvd_of_mod_eq_zero halign)
  simp only [execRepRecordWrite, hoff, hrec, if_true]

end

theorem State.vgWrite_round {s : State} {off : Nat} (v : W64) (hhi : off < 0x1600) :
    s.vgWrite off v = if s.roundOpen ((off - 0x1500) / 16) then s.setRf 0x1418 11 11 1 else s.plainWrite off v := by
  unfold State.vgWrite
  dsimp only
  rw [if_pos hhi]

theorem State.modeWrite_denied {s : State} {v : W64} (h : s.lcs = 4 ∧ fld v 1 0 ≠ 0 ∨ s.lcs = 2 ∧ (fld v 1 0 = 1 ∨ fld v 1 0 = 2)) :
    s.modeWrite v = s.setRf 0x7008 0 0 1 := by
  refine if_pos ?_
  simp only [Bool.or_eq_true, Bool.and_eq_true, decide_eq_true_eq]
  tauto

theorem State.modeWrite_takes {s : State} {v : W64} (h4 : s.lcs = 4 → fld v 1 0 = 0) (h2 : s.lcs = 2 → fld v 1 0 ≠ 1 ∧ fld v 1 0 ≠ 2) :
    s.modeWrite v = s.setRf 0x8080 1 0 (fld v 1 0) := by
  refine if_neg ?_
  simp only [Bool.or_eq_true, Bool.and_eq_true, decide_eq_true_eq]
  tauto

/-- Settles O51: each write by the rule of its register. -/
theorem hostRegisterWrites : Obligations.HostRegisterWrites := by
  unfold Obligations.HostRegisterWrites
  intro s v hready hbypass hdone n
  have hopen : ∀ off f, (.next (s.atHost off f) : Host.Outcome State Fault Refusal) = .next (f s) := fun off f => by
    rw [State.atHost_open hready hbypass hdone]
  refine ⟨fun hunus hfree hclass hunbound hv hquota hpool => ?_, fun hunus hfree hbound => ⟨fun hv huse hclass hquota => ?_, fun hbusy => ?_⟩,
    fun st => ?_, fun off halign hlo hhi => ?_, ?_, fun off halign hrec => ?_, fun h4 h2 => ?_, fun h2 hm => ?_, fun h2 hm => ?_, fun h4 hm => ?_, ?_, ?_,
    fun k => ?_, fun k hon => ?_⟩
  · have hw := State.writeW0_free (s := s) hunus hfree hclass hquota (by simp [hunbound]) fun _ => hpool
    rw [hunbound, if_neg Bool.false_ne_true, if_pos hv] at hw
    refine ⟨_, (hopen ..).trans (congrArg _ hw), ?_, ?_, ?_, ?_, fun k hk => State.ctx_modCtx_other _ _ hk, rfl, rfl, s.sameRegs_modCtx _ _⟩
    · rw [State.ctx_modCtx_same]
    · rw [State.ctx_modCtx_same]
    · rw [State.ctx_modCtx_same]
    · rw [State.ctx_modCtx_same]
      exact fld_storedW0_config v
  · have hw := State.writeW0_free (s := s) hunus hfree hclass hquota (fun _ => ⟨hv, huse⟩) (by simp [hv])
    rw [hbound, if_pos rfl] at hw
    refine ⟨_, (hopen ..).trans (congrArg _ hw), ?_, ?_, ?_, fun k hk => State.ctx_modCtx_other _ _ hk, rfl, rfl, s.sameRegs_modCtx _ _⟩
    · rw [State.ctx_modCtx_same]
      exact (bit_storedW0 v).trans hv
    · rw [State.ctx_modCtx_same]
    · rw [State.ctx_modCtx_same]
      exact fld_storedW0_config v
  · exact (hopen ..).trans (congrArg _ (State.writeW0_denied hunus hfree hbound hbusy))
  · intro o p base size
    refine ⟨fun hA hX htop hsum hapart => ?_, fun hbusy => (hopen ..).trans (congrArg _ (State.shadowWrite_busy hbusy))⟩
    obtain ⟨hbase, hsize⟩ := s.plainWrite_shadow st v
    exact ⟨_, (hopen ..).trans (congrArg _ (State.shadowWrite_takes hA hX htop hsum hapart)), s.plainWrite_onlyCsr .., hbase, hsize⟩
  · exact (State.execCsuVgWrite_aligned s v halign hlo hhi).trans ((hopen ..).trans (by rw [State.vgWrite_round v hhi, apply_ite Host.Outcome.next]))
  · intro i hi hfree
    refine ⟨⟨_, (hopen ..).trans (congrArg _ (State.barWrite_w1 hi hfree)), ?_, ?_, ?_, ?_, rfl, fun k hk => s.bar_modBar_other _ hk⟩,
      fun hlo hhi hrange => ⟨_, hopen .., State.barWrite_w0_spec hi hfree hlo hhi hrange⟩,
      fun hzero => (hopen ..).trans (congrArg _ (State.barWrite_refused hi hfree hzero))⟩
    · rw [State.bar_modBar_same]
    · rw [State.bar_modBar_same]
      exact fld_storedW1_place v
    · rw [State.bar_modBar_same]
      exact fld_storedW1_bar v
    · rw [State.bar_modBar_same]
      exact fld_putFld_same _ _ (by decide) (by decide)
  · exact (State.execRepRecordWrite_aligned s v halign hrec).trans (hopen ..)
  · exact (hopen ..).trans (congrArg _ (State.modeWrite_takes (fun h => absurd h h4) fun h => absurd h h2))
  · exact (hopen ..).trans (congrArg _ (State.modeWrite_denied (.inr ⟨h2, hm⟩)))
  · refine (hopen ..).trans (congrArg _ (State.modeWrite_takes (fun h => absurd (h2.symm.trans h) (by decide)) fun _ => ?_))
    obtain hm | hm := hm
    · omega
    · omega
  · exact (hopen ..).trans (congrArg _ (State.modeWrite_denied (.inl ⟨h4, hm⟩)))
  · obtain ⟨honly, hcause⟩ := s.testEvents_frame v (upto 32) ⟨(onlyCsr.refl s).withRing, rfl⟩
    refine ⟨_, hopen .., honly, hcause, fun i hi => ?_⟩
    refine (s.rb_foldl_raise v (upto 32) (by omega)).trans ?_
    rw [decide_eq_true (by simpa [upto] using hi), Bool.true_and]
  · exact ⟨_, hopen .., s.clearPerf_spec⟩
  · obtain ⟨honly, hrd⟩ := s.eccCntWrite_spec k.isLt v
    obtain ⟨hlow, hhigh⟩ := s.plainWrite_eccCnt k.isLt v
    refine ⟨_, hopen .., honly, ?_, ?_⟩
    · rw [State.rf, hrd]
      exact hlow
    · rw [State.rf, hrd]
      exact hhigh
  · exact ⟨_, congrArg Host.Outcome.next (State.perf_wraps hon k.toNat), s.wrapped_spec k.isLt⟩

end Sys2Proof.Machine
end

section
/-!
PROOFS. O13, O14: what leaving a word of one command does to the state, in a loop's last word too (07 R169, R170, R182 to R185).
-/

namespace Sys2Proof.Machine

/-! ### Register writes -/

theorem Stream.wrReg_only (t : Stream) (w : RegWr) : t.wrReg w = { t with a := (t.wrReg w).a, n := (t.wrReg w).n, p := (t.wrReg w).p } := by
  unfold Stream.wrReg
  split
  · rfl
  · rfl
  · split <;> rfl

/-- Register writes change registers alone. -/
theorem Stream.foldl_wrReg_only (ws : List RegWr) (t : Stream) :
    ws.foldl Stream.wrReg t = { t with a := (ws.foldl Stream.wrReg t).a, n := (ws.foldl Stream.wrReg t).n, p := (ws.foldl Stream.wrReg t).p } := by
  induction ws generalizing t with
  | nil => rfl
  | cons w ws ih =>
    rw [List.foldl_cons, ih, t.wrReg_only w]

/-- The registers of a stream. -/
def Stream.scalars (t : Stream) : Tbl W48 × Tbl W32 × Tbl Bool := (t.a, t.n, t.p)

theorem Stream.scalars_eq {t u : Stream} : t.scalars = u.scalars ↔ t.a = u.a ∧ t.n = u.n ∧ t.p = u.p := by simp [Stream.scalars]

/-- What writes leave of the registers depends on the registers alone. -/
theorem Stream.foldl_wrReg_scalars (ws : List RegWr) {t u : Stream} (h : t.scalars = u.scalars) :
    (ws.foldl Stream.wrReg t).scalars = (ws.foldl Stream.wrReg u).scalars := by
  induction ws generalizing t u with
  | nil => exact h
  | cons w ws ih =>
    obtain ⟨ha, hn, hp⟩ := Stream.scalars_eq.mp h
    refine ih ?_
    unfold Stream.wrReg
    split
    · simp [Stream.scalars, ha, hn, hp]
    · simp [Stream.scalars, ha, hn, hp]
    · split <;> simp [Stream.scalars, ha, hn, hp]

@[simp] theorem Stream.foldl_wrReg_loops (ws : List RegWr) (t : Stream) : (ws.foldl Stream.wrReg t).loops = t.loops := by
  rw [Stream.foldl_wrReg_only]
@[simp] theorem Stream.foldl_wrReg_pendHalt (ws : List RegWr) (t : Stream) : (ws.foldl Stream.wrReg t).pendHalt = t.pendHalt := by
  rw [Stream.foldl_wrReg_only]

/-! ### The end of an iteration (07 R184, R185) -/

/-- What the steps of a level make of the A registers. -/
def LoopLvl.stepped (l : LoopLvl) (a : Tbl W48) : Tbl W48 :=
  l.steps.foldl (fun (a : Tbl W48) (p : Nat × Int) => tmod 0 a p.1 fun v => v + BitVec.ofInt 48 p.2) a

theorem ofInt_toNat_add (v : W48) (i : Int) : BitVec.ofInt 48 ((v.toNat : Int) + i) = v + BitVec.ofInt 48 i := by
  rw [BitVec.ofInt_add, BitVec.ofInt_natCast, BitVec.ofNat_toNat, BitVec.setWidth_eq]

theorem LoopLvl.stepped_eq (l : LoopLvl) (a : Tbl W48) :
    l.steps.foldl (fun (a : Tbl W48) (p : Nat × Int) => tmod 0 a p.1 fun v => BitVec.ofInt 48 ((v.toNat : Int) + p.2)) a = l.stepped a := by
  simp only [LoopLvl.stepped, ofInt_toNat_add]

section
variable {t : Stream} {addr : Nat} (next k : Nat)

/-- Where the innermost level does not end here, the word ends no iteration. -/
theorem loopEnd_inside (h : ∀ l, t.loops.getLast? = some l → l.fin ≠ addr) : loopEnd addr next k t = (t, next) := by
  cases k with
  | zero => rfl
  | succ k =>
    unfold loopEnd
    split
    next l hl => rw [if_neg (h l hl)]
    next => rfl

variable {outer : List LoopLvl} {l : LoopLvl} (hloops : t.loops = outer ++ [l]) (hfin : l.fin = addr)
include hloops hfin

theorem loopEnd_innermost : loopEnd addr next (k + 1) t =
    if l.lc = 1 then loopEnd addr next k { t with a := l.stepped t.a, loops := outer }
    else ({ t with a := l.stepped t.a, loops := outer ++ [{ l with lc := l.lc - 1 }] }, l.start) := by
  rw [loopEnd, hloops, List.getLast?_concat]
  dsimp only
  rw [if_pos hfin, LoopLvl.stepped_eq, List.dropLast_concat]

/-- Another iteration of the innermost level follows. -/
theorem loopEnd_back (hlc : l.lc ≠ 1) : loopEnd addr next (k + 1) t =
    ({ t with a := l.stepped t.a, loops := outer ++ [{ l with lc := l.lc - 1 }] }, l.start) := by
  rw [loopEnd_innermost next k hloops hfin, if_neg hlc]

/-- The last iteration of the innermost level is over, and no other level ends here. -/
theorem loopEnd_over (hlc : l.lc = 1) (houter : ∀ o, outer.getLast? = some o → o.fin ≠ addr) : loopEnd addr next (k + 1) t =
    ({ t with a := l.stepped t.a, loops := outer }, next) := by
  rw [loopEnd_innermost next k hloops hfin, if_pos hlc]
  exact loopEnd_inside next k houter

end

/-! ### The word is left -/

theorem Stream.carrySteps_self (t : Stream) : t.carrySteps t = t := by
  have hscal : (t.scal.map fun a => if a.isLoad && decide (a.kind = 1) then { a with add := a.add + (t.rdA a.idx - t.rdA a.idx) } else a) = t.scal := by
    conv_rhs => rw [← List.map_id t.scal]
    refine List.map_congr_left fun a _ => ?_
    rw [sub_self, add_zero]
    exact ite_self a
  rw [Stream.carrySteps, hscal]

/-- A stream at its next word. -/
def Stream.atWord (t : Stream) (next : Nat) : Stream :=
  { t with pc := BitVec.ofNat 17 next, wait := none, waited := 0, waitTold := false, stall := none }

/-- Without a noted halt, leaving a word touches the stream alone: a jump ends no iteration. -/
theorem State.finishWord_jump {s : State} {st : Sid} (lw : LwInfo) (a : Nat) (late : List RegWr) (hhalt : (s.str st).pendHalt = none) :
    s.finishWord st lw (some a) late = s.modStr st fun t => (late.foldl Stream.wrReg t).atWord a := by
  refine (State.takeNoted_none _ _ ?_).trans ?_
  · simp [State.wrRegs, hhalt]
  · cases st <;> rfl

theorem State.modStr_congr {s : State} {st : Sid} {f g : Stream → Stream} (h : f (s.str st) = g (s.str st)) : s.modStr st f = s.modStr st g := by
  cases st <;> simp only [State.str] at h <;> simp only [State.modStr, h]

theorem State.finishWord_next {s : State} {st : Sid} (lw : LwInfo) (late : List RegWr) (hhalt : (s.str st).pendHalt = none) {u : Stream} {next : Nat}
    (hend : loopEnd lw.addr (lw.addr + lw.len) 4 (late.foldl Stream.wrReg (s.str st)) = (u, next)) (hu : u.pendHalt = none) :
    s.finishWord st lw none late = s.modStr st fun t => ((late.foldl Stream.wrReg t).carrySteps u).atWord next := by
  have hstr : (s.wrRegs st late).str st = late.foldl Stream.wrReg (s.str st) := State.str_modStr_same ..
  simp only [State.finishWord, hstr, hend]
  refine (State.takeNoted_none _ _ ?_).trans ?_
  · simpa [Stream.carrySteps] using hu
  · cases st <;> rfl

/-- A word that ends no iteration. -/
theorem State.finishWord_inside {s : State} {st : Sid} (lw : LwInfo) (jump : Option Nat) (late : List RegWr) (hhalt : (s.str st).pendHalt = none)
    (hloops : ∀ l, (s.str st).loops.getLast? = some l → l.fin ≠ lw.addr) :
    s.finishWord st lw jump late = s.modStr st fun t => (late.foldl Stream.wrReg t).atWord (jump.getD (lw.addr + lw.len)) := by
  cases jump with
  | some a => exact State.finishWord_jump lw a late hhalt
  | none =>
    have hend := loopEnd_inside (t := late.foldl Stream.wrReg (s.str st)) (addr := lw.addr) (lw.addr + lw.len) 4 (by simpa using hloops)
    rw [State.finishWord_next lw late hhalt hend (by simpa using hhalt)]
    exact State.modStr_congr (congrArg (Stream.atWord · _) (Stream.carrySteps_self _))

/-- Counting a word changes registers of the window and the trace queue alone. -/
theorem State.counted_eq (s : State) (st : Sid) (tags : List W16) (s' : State) : ∃ csr ring, s.counted st tags s' = { s' with csr := csr, ring := ring } := by
  have hperf : ∀ n k, ∃ csr ring, s'.perf n k = { s' with csr := csr, ring := ring } := by
    intro n k
    unfold State.perf
    dsimp only
    split
    · exact ⟨_, _, rfl⟩
    · split
      · unfold State.raise
        dsimp only
        split <;> exact ⟨_, _, rfl⟩
      · exact ⟨_, _, rfl⟩
  obtain ⟨csr, ring, h⟩ := hperf (1 + sidNat st) 1
  unfold State.counted
  rw [h]
  dsimp only
  split
  · exact ⟨_, _, rfl⟩
  · split <;> exact ⟨_, _, rfl⟩

theorem loneLw_len (s : State) (st : Sid) (c : Slot) : (s.loneLw st c).len = 16 * ((c.xw + 3) / 2) := by
  show 16 * ((2 + c.xw + 2 - 1) / 2) = _
  rw [show 2 + c.xw + 2 - 1 = c.xw + 3 by omega]

/-- Register writes and the command count do not meet. -/
theorem Stream.foldl_wrReg_cc (ws : List RegWr) (t : Stream) (n : W64) :
    ws.foldl Stream.wrReg { t with cc := n } = { ws.foldl Stream.wrReg t with cc := n } := by
  obtain ⟨ha, hn, hp⟩ := Stream.scalars_eq.mp (Stream.foldl_wrReg_scalars ws (t := { t with cc := n }) (u := t) rfl)
  rw [Stream.foldl_wrReg_only ws { t with cc := n }, Stream.foldl_wrReg_only ws t, ha, hn, hp]

/-- A lone command's word that ends no iteration: its stream goes on, and nothing else changes but counts and the trace. -/
theorem State.retired_inside (s : State) {s' : State} {st : Sid} (c : Slot) (jump : Option Nat) (ws : List RegWr) (hhalt : (s'.str st).pendHalt = none)
    (hloops : ∀ l, (s'.str st).loops.getLast? = some l → l.fin ≠ (s.str st).pc.toNat) :
    ∃ csr ring, s.retired st c s' jump ws = { s'.modStr st fun t => Stream.atWord { ws.foldl Stream.wrReg t with cc := t.cc + 1 }
      (jump.getD ((s.str st).pc.toNat + 16 * ((c.xw + 3) / 2))) with csr := csr, ring := ring } := by
  obtain ⟨csr, ring, hcount⟩ := s.counted_eq st [c.tag] (s'.bumpCc st)
  have hstr : (s.counted st [c.tag] (s'.bumpCc st)).str st = { s'.str st with cc := (s'.str st).cc + 1 } := by
    rw [hcount]
    cases st <;> rfl
  have hword := State.finishWord_inside (s := s.counted st [c.tag] (s'.bumpCc st)) (st := st) (s.loneLw st c) jump ws
    (by rw [hstr]; exact hhalt) (by rw [hstr]; exact hloops)
  rw [loneLw_len] at hword
  refine ⟨csr, ring, hword.trans ?_⟩
  rw [hcount]
  cases st
  all_goals
    simp only [State.modStr, State.bumpCc, Stream.foldl_wrReg_cc]
    rfl

/-- Settles O13: where no iteration ends, the word's stream goes on at its next word. -/
theorem retiredWordMovesOnlyPcAndCounts : Obligations.RetiredWordMovesOnlyPcAndCounts := by
  unfold Obligations.RetiredWordMovesOnlyPcAndCounts
  intro s s' st c jump ws _ hhalt hloops
  obtain ⟨csr, ring, ht⟩ := s.retired_inside c jump ws hhalt hloops
  have hkeeps := Stream.foldl_wrReg_only ws (s'.str st)
  intro t
  have hstr : t.str st = Stream.atWord { ws.foldl Stream.wrReg (s'.str st) with cc := (s'.str st).cc + 1 }
      (jump.getD ((s.str st).pc.toNat + 16 * ((c.xw + 3) / 2))) := by
    show (State.retired ..).str st = _
    rw [ht]
    cases st <;> rfl
  have hother : t.str (otherSid st) = s'.str (otherSid st) := by
    show (State.retired ..).str _ = _
    rw [ht]
    cases st <;> rfl
  rw [hstr, hother]
  refine ⟨rfl, rfl, rfl, rfl, rfl, rfl, Stream.foldl_wrReg_loops .., (congrArg Stream.st hkeeps :), (congrArg Stream.scal hkeeps :), rfl, ?_⟩
  · simp only [t, ht, State.modStr_vec, State.modStr_spm, State.modStr_qsy, State.modStr_bars, State.modStr_chans, State.modStr_fab, State.modStr_imem,
      State.modStr_mer, State.modStr_cA, State.modStr_cX, State.modStr_rounds, State.modStr_trk, State.modStr_arr, State.modStr_orr, State.modStr_keys,
      State.modStr_cke, State.modStr_rep, State.modStr_cal, State.modStr_pins, State.modStr_pending, and_self]

/-- Settles O14: the innermost level ends at the word, and goes on or is over. -/
theorem loopEndStepsAndJumpsBack : Obligations.LoopEndStepsAndJumpsBack := by
  unfold Obligations.LoopEndStepsAndJumpsBack
  intro s s' st c ws outer l _ hhalt hloops hfin t stepped
  obtain ⟨csr, ring, hcount⟩ := s.counted_eq st [c.tag] (s'.bumpCc st)
  have hstr : (s.counted st [c.tag] (s'.bumpCc st)).str st = { s'.str st with cc := (s'.str st).cc + 1 } := by
    rw [hcount]
    cases st <;> rfl
  have hwritten : ws.foldl Stream.wrReg ((s.counted st [c.tag] (s'.bumpCc st)).str st) =
      { ws.foldl Stream.wrReg (s'.str st) with cc := (s'.str st).cc + 1 } := by rw [hstr, Stream.foldl_wrReg_cc]
  have hlevels : (ws.foldl Stream.wrReg (s'.str st)).loops = outer ++ [l] := (Stream.foldl_wrReg_loops ..).trans hloops
  have hnone : (ws.foldl Stream.wrReg (s'.str st)).pendHalt = none := (Stream.foldl_wrReg_pendHalt ..).trans hhalt
  have hleft : ∀ {u : Stream} {next : Nat}, loopEnd (s.str st).pc.toNat ((s.str st).pc.toNat + 16 * ((c.xw + 3) / 2)) 4
      { ws.foldl Stream.wrReg (s'.str st) with cc := (s'.str st).cc + 1 } = (u, next) → u.pendHalt = none →
      (t.str st).a = u.a ∧ (t.str st).loops = u.loops ∧ (t.str st).pc = BitVec.ofNat 17 next := by
    intro u next hend hu
    rw [← hwritten, ← loneLw_len s] at hend
    have ht : t = _ := State.finishWord_next (s.loneLw st c) ws (by rw [hstr]; exact hhalt) hend hu
    rw [ht, State.str_modStr_same]
    exact ⟨rfl, rfl, rfl⟩
  exact ⟨fun hlc => hleft (loopEnd_back _ 3 hlevels hfin hlc) hnone, fun hlc houter =>
    hleft (loopEnd_over _ 3 hlevels hfin hlc (by rwa [← hfin])) hnone⟩

end Sys2Proof.Machine
end

section
/-!
PROOFS. O11: each row of a command issues that command, and one whose guard is false passes (07 R174, 08 R206).
-/

namespace Sys2Proof.Machine

/-! ### The slot of a row -/

theorem putFld_fld_self (x : W64) {hi lo : Nat} (h : lo ≤ hi) : putFld x hi lo (fld x hi lo) = x := by
  refine BitVec.eq_of_getLsbD_eq fun i hi64 => ?_
  change bit _ i = bit x i
  rw [bit_putFld _ _ h hi64]
  split
  next hin => simp [testBit_fld, show i - lo < hi - lo + 1 by omega, show lo + (i - lo) = i by omega]
  next => rfl

/-- A well-formed slot has the extension words that XW says. -/
theorem Slot.wf_ext {c : Slot} (h : c.wf = true) : c.ext.length = c.xw := by
  simp only [Slot.wf, Bool.and_eq_true, decide_eq_true_eq] at h
  rw [h.2]
  rfl

theorem asOpc_self {c : Slot} {o : Nat} (hwf : c.wf = true) (hopc : c.opc = o) : asOpc o c = c := by
  have hbase : putFld c.base 63 57 o = c.base := by
    rw [← hopc]
    exact putFld_fld_self _ (by decide)
  have hext : (upto (fld c.base 51 48)).map (fun i => c.ext.getD i 0) = c.ext := by
    refine List.ext_getElem ?_ fun i _ hi => ?_
    · rw [List.length_map, upto, List.length_range, Slot.wf_ext hwf]
      rfl
    · simp [upto, hi]
  simp only [asOpc, hbase, hext]

theorem asSub_self {c : Slot} {o hi lo sub : Nat} (hwf : c.wf = true) (hopc : c.opc = o) (hsub : c.f hi lo = sub) (h : lo ≤ hi) :
    asSub o hi lo sub c = c := by
  rw [asSub, ← hsub, Slot.f, putFld_fld_self _ h]
  exact asOpc_self hwf hopc

/-- The row of a command issues the command by its opcode's meaning. -/
theorem exec_rowOf {st : Sid} {c : Slot} {i : Instr} (hwf : c.wf = true) (hrow : rowOf st c = some i) (s : State) :
    exec i s = issueRow (cmdOf [] [] c) st c s := by
  have hrowIs : ∀ {o : Nat} {m : CmdSem} {x : Host.Outcome State Fault Refusal}, c.opc = o → cmdOf [] [] c = m →
      x = issueRow m st (asOpc o c) s → x = issueRow (cmdOf [] [] c) st c s := fun hopc hm hx => by rw [hx, hm, asOpc_self hwf hopc]
  have hsubIs : ∀ {o hi lo sub : Nat} {m : CmdSem} {x : Host.Outcome State Fault Refusal}, c.opc = o → c.f hi lo = sub → lo ≤ hi →
      cmdOf [] [] c = m → x = issueRow m st (asSub o hi lo sub c) s → x = issueRow (cmdOf [] [] c) st c s :=
    fun hopc hsub hle hm hx => by rw [hx, hm, asSub_self hwf hopc hsub hle]
  unfold rowOf at hrow
  split at hrow
  case h_84 => cases hrow
  case h_82 hopc =>
    split at hrow
    case h_8 => cases hrow
    all_goals
      cases hrow
      refine hsubIs hopc ‹_› (by decide) ?_ rfl
      simp only [cmdOf, hopc]
  case h_83 hopc =>
    split at hrow
    case h_4 => cases hrow
    all_goals
      cases hrow
      refine hsubIs hopc ‹_› (by decide) ?_ rfl
      simp only [cmdOf, hopc]
  all_goals
    cases hrow
    refine hrowIs ‹_› ?_ rfl
    simp [cmdOf, ‹c.opc = _›]

/-! ### The guard and the checks of a lone slot -/

section
variable {s : State} {st : Sid} {c : Slot} (m : CmdSem) (h : MayIssue s st c)
include h

/-- A lone slot whose guard is false passes. -/
theorem walkSlot_unguarded (hguard : ¬ Guarded s st c) (hpred : c.gp = 0 ∨ hazard (s.pendRegs st) [(2, c.gp)] = false)
    (hchk : firstFail ((m.chk (s.began st) st c (s.loneLw st c) ++ headChks (s.began st) c).filter (·.cls = 1)) = none) :
    walkSlot st (s.loneLw st c) (s.walk0 st) c m = .go { s.walk0 st with s := (s.began st).bumpCc st } := by
  have hchain : ((s.began st).str st).chain = 0 := by cases st <;> exact h.noChain
  have hfalse : guardTrue ((s.began st).str st) c = false := by
    cases st <;> exact Bool.eq_false_iff.2 hguard
  have hwrites : (s.began st).wrRegs st [] = s.began st := by cases st <;> rfl
  have hread : ¬ (c.gp ≠ 0 ∧ hazard (s.pendRegs st) [(2, c.gp)] = true) := fun ⟨hne, hwait⟩ =>
    hpred.elim hne fun hp => Bool.false_ne_true (hp.symm.trans hwait)
  rw [List.filter_append] at hchk
  simp [walkSlot, State.walk0, hchain, hwrites, hread, hfalse, hchk]

/-- A lone slot that fails a check halts its word. -/
theorem walkSlot_fails {f : Chk} (hguard : Guarded s st c) (hread : hazard (s.pendRegs st) ((2, c.gp) :: m.regs c) = false)
    (hchk : firstFail (m.chk (s.began st) st c (s.loneLw st c) ++ headChks (s.began st) c) = some f) :
    walkSlot st (s.loneLw st c) (s.walk0 st) c m = .halt f c := by
  have hchain : ((s.began st).str st).chain = 0 := by cases st <;> exact h.noChain
  have htrue : guardTrue ((s.began st).str st) c = true := by cases st <;> exact hguard
  have hwrites : (s.began st).wrRegs st [] = s.began st := by cases st <;> rfl
  have hregs : hazard (s.pendRegs st) [(2, c.gp)] = false ∧ hazard (s.pendRegs st) (m.regs c) = false := by
    simpa only [hazard, List.any_cons, List.any_nil, Bool.or_false, Bool.or_eq_false_iff] using hread
  simp [walkSlot, State.walk0, hchain, hwrites, hregs, htrue, hchk]

/-- A command whose guard is false leaves its word without an effect of its own. -/
theorem issueRow_unguarded (hguard : ¬ Guarded s st c) (hpred : c.gp = 0 ∨ hazard (s.pendRegs st) [(2, c.gp)] = false)
    (hchk : firstFail ((m.chk (s.began st) st c (s.loneLw st c) ++ headChks (s.began st) c).filter (·.cls = 1)) = none) :
    issueRow m st c s = .next (s.retired st c (s.began st) none []) := by
  rw [issueRow, issueWord_open m h]
  simp only [walkSlots, walkSlot_unguarded m h hguard hpred hchk]
  rfl

/-- A command that fails a check halts its stream on the state before it. -/
theorem issueRow_fails {f : Chk} (hguard : Guarded s st c) (hread : hazard (s.pendRegs st) ((2, c.gp) :: m.regs c) = false)
    (hchk : firstFail (m.chk (s.began st) st c (s.loneLw st c) ++ headChks (s.began st) c) = some f) :
    issueRow m st c s = .next (s.haltAtIssue st f (some c)) := by
  rw [issueRow, issueWord_open m h]
  simp only [walkSlots, walkSlot_fails m h hguard hread hchk] <;> rfl

end

/-- Settles O11: the row issues its command, and one whose guard is false passes. -/
theorem falseGuardHasNoEffect : Obligations.FalseGuardHasNoEffect := by
  unfold Obligations.FalseGuardHasNoEffect
  intro s st c i hwf hrow hmay hguard hpred hchk
  exact (exec_rowOf hwf hrow s).trans (issueRow_unguarded _ hmay hguard hpred hchk)

end Sys2Proof.Machine
end

section
/-!
PROOFS. What a halt of either stream leaves: its record, its stream, and all that it does not touch (07 R196 to R198, 09 R257).
-/

namespace Sys2Proof.Machine

/-! ### The record -/

/-- The fields of a halt's first word. -/
theorem haltWord_fields (r : HaltRec) : fld (haltWord r) 63 56 = r.reason % 256 ∧ bit (haltWord r) 55 = true ∧ bit (haltWord r) 54 = r.deferred ∧
    bit (haltWord r) 53 = r.partner ∧ fld (haltWord r) 16 0 = r.addr % 2 ^ 17 := by
  have hbit : ∀ b : Bool, b2n b < 2 := fun b => by cases b <;> decide
  have hflag : ∀ b : Bool, decide (b2n b = 1) = b := fun b => by cases b <;> rfl
  have hslot : (if r.tv then r.slot % 8 else 0) < 8 := by split <;> omega
  have htag : (if r.tv then r.tag.toNat else 0) < 65536 := by
    split
    · exact r.tag.isLt
    · decide
  have hdeferred := hbit r.deferred
  have hpartner := hbit r.partner
  have htv := hbit r.tv
  have hword : (haltWord r).toNat = r.reason % 256 * 2 ^ 56 + 2 ^ 55 + b2n r.deferred * 2 ^ 54 + b2n r.partner * 2 ^ 53 + b2n r.tv * 2 ^ 52 +
      r.addr / 2 ^ 17 % 2 * 2 ^ 51 + (if r.tv then r.slot % 8 else 0) * 2 ^ 48 + (if r.tv then r.tag.toNat else 0) * 2 ^ 32 + r.addr % 2 ^ 17 := by
    rw [haltWord, BitVec.toNat_ofNat]
    omega
  rw [fld_eq_div_mod, fld_eq_div_mod, bit, bit, bit, BitVec.getLsbD, BitVec.getLsbD, BitVec.getLsbD, Nat.testBit_eq_decide_div_mod_eq,
    Nat.testBit_eq_decide_div_mod_eq, Nat.testBit_eq_decide_div_mod_eq, hword]
  refine ⟨by omega, ?_, ?_, ?_, by omega⟩
  · rw [decide_eq_true_eq]
    omega
  · refine Eq.trans ?_ (hflag r.deferred)
    congr 1
    rw [eq_iff_iff]
    omega
  · refine Eq.trans ?_ (hflag r.partner)
    congr 1
    rw [eq_iff_iff]
    omega

/-! ### The stages of a halt -/

/-- The results of a waiting word's issued commands land (07 R197). -/
def State.landed (s : State) (st : Sid) : State := match (s.str st).wait with | some w => s.wrRegs st w.late | none => s

theorem State.landed_eq (s : State) (st : Sid) : ∃ l, s.landed st = s.wrRegs st l := by
  unfold State.landed
  split
  · exact ⟨_, rfl⟩
  · exact ⟨[], by cases st <;> rfl⟩

theorem State.landed_none {s : State} {st : Sid} (h : (s.str st).wait = none) : s.landed st = s := by simp [State.landed, h]

/-- A stream whose wait is withdrawn. -/
def Stream.withdrawn (t : Stream) : Stream := { t with wait := none, waited := 0, waitTold := false, stall := none }

theorem State.withdraw_eq (s : State) (st : Sid) : ∃ qsy, s.withdraw st = { (s.landed st).modStr st Stream.withdrawn with qsy := qsy } := ⟨_, rfl⟩

/-- A stream HALTED. -/
def Stream.halted (t : Stream) : Stream :=
  { t.withdrawn with st := .halted, chain := 0, pendHalt := none, haltReq := false, coReq := false, fresh := false, swPend := false }

/-- The words of a halt's record, and the reason beside the stream's state. -/
def State.writeHalt (s : State) (st : Sid) (r : HaltRec) : State :=
  let s := s.wr (haltBase st) (haltWord r)
  let s := s.wr (haltBase st + 8) (s.str st).cc
  let s := s.wr (haltBase st + 16) (BitVec.ofNat 64 ((r.imm % 2 ^ 16) * 2 ^ 48 + r.detail % 2 ^ 48))
  let s := s.wr (haltBase st + 24) s.now
  ((s.setRf (strmBase st + 8) 15 8 r.reason).setRf (strmBase st + 8) 18 18 (b2n r.deferred)).setRf (strmBase st + 8) 19 19 (b2n r.partner)

/-- The stream HALTED with its record and its event; its partner is not asked yet. -/
def State.haltedBy (s : State) (st : Sid) (r : HaltRec) : State :=
  ((((((s.withdraw st).haltInStop r.deferred).modStr st fun t =>
    { t with st := .halted, chain := 0, pendHalt := none, haltReq := false, coReq := false, fresh := false }).writeHalt st r).modStr st fun t =>
      { t with swPend := false }).settleSwitch).raise (evHalt st)

/-- Does the partner of a stream that halts co-halt (07 R198)? -/
def State.asksPartner (s : State) (st : Sid) (partner : Bool) : Bool :=
  let o := otherSid st
  let ost := (s.str o).st
  s.rb (strmBase o) 8 && (ost = .running || ost = .stopping || ost = .stopped) && !partner

theorem State.takeHalt_eq (s : State) (st : Sid) (r : HaltRec) : s.takeHalt st r =
    if (s.haltedBy st r).asksPartner st r.partner then (s.haltedBy st r).modStr (otherSid st) fun t => { t with coReq := true } else s.haltedBy st r := rfl

theorem State.haltInStop_eq (s : State) (d : Bool) : ∃ cke, s.haltInStop d = { s with cke := cke } ∧ (d = false → cke = s.cke) := by
  unfold State.haltInStop
  split
  next h => exact ⟨_, rfl, fun hd => by simp [hd] at h⟩
  next => exact ⟨_, rfl, fun _ => rfl⟩

theorem State.writeHalt_onlyCsr (s : State) (st : Sid) (r : HaltRec) : onlyCsr s (s.writeHalt st r) := by
  have hwords := fun word cc detail now => State.wr_onlyCsr (State.wr_onlyCsr (State.wr_onlyCsr (State.wr_onlyCsr (onlyCsr.refl s) (haltBase st) word)
    (haltBase st + 8) cc) (haltBase st + 16) detail) (haltBase st + 24) now
  unfold State.writeHalt
  exact State.setRf_onlyCsr (State.setRf_onlyCsr (State.setRf_onlyCsr (hwords _ _ _ _) ..) ..) ..

/-- The halt, stage by stage, on all but the registers of the window. -/
theorem State.haltedBy_eq (s : State) (st : Sid) (r : HaltRec) : ∃ csr ring qsy cke, (r.deferred = false → cke = s.cke) ∧
    s.haltedBy st r = { (s.landed st).modStr st Stream.halted with csr := csr, ring := ring, qsy := qsy, cke := cke } := by
  obtain ⟨l, hl⟩ := s.landed_eq st
  obtain ⟨qsy, hw⟩ := s.withdraw_eq st
  obtain ⟨cke, hs, hcke⟩ := (s.withdraw st).haltInStop_eq r.deferred
  have hkeep : (s.withdraw st).cke = s.cke := by
    rw [hw, hl]
    simp
  rw [hkeep] at hcke
  rw [hw] at hs
  have hraise : ∀ (u : State) (src : Nat), ∃ csr ring, u.raise src = { u with csr := csr, ring := ring } := by
    intro u src
    unfold State.raise
    dsimp only
    split <;> exact ⟨_, _, rfl⟩
  unfold State.haltedBy
  rw [hw, hs]
  have h1 := State.writeHalt_onlyCsr (({ (s.landed st).modStr st Stream.withdrawn with qsy := qsy, cke := cke }).modStr st fun t =>
    { t with st := .halted, chain := 0, pendHalt := none, haltReq := false, coReq := false, fresh := false }) st r
  rw [onlyCsr] at h1
  generalize State.writeHalt _ _ _ = w at h1 ⊢
  rw [h1, State.settleSwitch, State.setRf, State.wr]
  obtain ⟨csr', ring, h2⟩ := hraise _ (evHalt st)
  rw [h2]
  refine ⟨csr', ring, qsy, cke, hcke, ?_⟩
  cases st <;> rfl

/-! ### The registers of a halt -/

/-- The registers of the window that a stream's halt writes. -/
def haltOffs (st : Sid) : List Nat := [haltBase st, haltBase st + 8, haltBase st + 16, haltBase st + 24, strmBase st + 8, 0x208, 0x100]

/-- The registers of `t` hold the halt `r` of a stream that had counted `cc`, and those that a halt does not write are as in `s`. -/
structure HaltShown (s t : State) (st : Sid) (r : HaltRec) : Prop where
  word : t.rd (haltBase st) = haltWord r
  count : t.rd (haltBase st + 8) = (s.str st).cc
  detail : t.rd (haltBase st + 16) = BitVec.ofNat 64 ((r.imm % 2 ^ 16) * 2 ^ 48 + r.detail % 2 ^ 48)
  reason : t.rf (strmBase st + 8) 15 8 = r.reason % 256
  others : ∀ off, off ∉ haltOffs st → t.rd off = s.rd off

theorem State.writeHalt_shown (s : State) (st : Sid) (r : HaltRec) : HaltShown s (s.writeHalt st r) st r := by
  have hoffs : strmBase st + 8 ≠ haltBase st ∧ strmBase st + 8 ≠ haltBase st + 8 ∧ strmBase st + 8 ≠ haltBase st + 16 := by cases st <;> decide
  obtain ⟨h0, h1, h2⟩ := hoffs
  unfold State.writeHalt
  refine ⟨?_, ?_, ?_, ?_, fun off hoff => ?_⟩
  · simp [State.rd_setRf_other _ h0, State.rd_wr]
  · simp [State.rd_setRf_other _ h1, State.rd_wr]
  · simp [State.rd_setRf_other _ h2, State.rd_wr]
  · rw [State.rf_setRf_disjoint _ _ _ (by decide) (by decide) (by decide) (.inr (by decide)),
      State.rf_setRf_disjoint _ _ _ (by decide) (by decide) (by decide) (.inr (by decide)), State.rf_setRf_same _ _ (by decide) (by decide)]
    rfl
  · simp only [haltOffs, List.mem_cons, not_or] at hoff
    obtain ⟨h0, h1, h2, h3, h4, -⟩ := hoff
    simp only [State.rd_setRf_other _ (Ne.symm h4), State.rd_wr, if_neg (Ne.symm h0), if_neg (Ne.symm h1), if_neg (Ne.symm h2), if_neg (Ne.symm h3)]

theorem State.withdraw_rd (s : State) (st : Sid) (off : Nat) : (s.withdraw st).rd off = s.rd off := by
  obtain ⟨l, hl⟩ := s.landed_eq st
  obtain ⟨qsy, hw⟩ := s.withdraw_eq st
  rw [hw, hl]
  cases st <;> rfl

theorem State.withdraw_cc (s : State) (st : Sid) : ((s.withdraw st).str st).cc = (s.str st).cc := by
  obtain ⟨l, hl⟩ := s.landed_eq st
  obtain ⟨qsy, hw⟩ := s.withdraw_eq st
  have hcc : (l.foldl Stream.wrReg (s.str st)).cc = (s.str st).cc := by rw [Stream.foldl_wrReg_only]
  rw [hw, hl]
  cases st <;> exact hcc

theorem State.haltedBy_shown (s : State) (st : Sid) (r : HaltRec) : HaltShown s (s.haltedBy st r) st r ∧ (s.haltedBy st r).rb 0x100 (evHalt st) = true := by
  obtain ⟨cke, hs, -⟩ := (s.withdraw st).haltInStop_eq r.deferred
  have hoffs : haltBase st ≠ 0x100 ∧ haltBase st + 8 ≠ 0x100 ∧ haltBase st + 16 ≠ 0x100 ∧ strmBase st + 8 ≠ 0x100 ∧
      0x208 ≠ haltBase st ∧ 0x208 ≠ haltBase st + 8 ∧ 0x208 ≠ haltBase st + 16 ∧ 0x208 ≠ strmBase st + 8 := by cases st <;> decide
  obtain ⟨e0, e1, e2, e3, w0, w1, w2, w3⟩ := hoffs
  unfold State.haltedBy
  rw [hs]
  obtain ⟨hword, hcount, hdetail, hreason, hothers⟩ := State.writeHalt_shown (({ s.withdraw st with cke := cke }).modStr st fun t =>
    { t with st := .halted, chain := 0, pendHalt := none, haltReq := false, coReq := false, fresh := false }) st r
  generalize hw : State.writeHalt _ _ _ = w at hword hcount hdetail hreason hothers
  refine ⟨⟨?_, ?_, ?_, ?_, fun off hoff => ?_⟩, State.rb_raise_same _ (by cases st <;> decide)⟩
  · rw [State.rd_raise_other _ _ e0, State.settleSwitch, State.rd_setRf_other _ w0, State.rd_modStr, hword]
  · rw [State.rd_raise_other _ _ e1, State.settleSwitch, State.rd_setRf_other _ w1, State.rd_modStr, hcount, State.str_modStr_same]
    exact s.withdraw_cc st
  · rw [State.rd_raise_other _ _ e2, State.settleSwitch, State.rd_setRf_other _ w2, State.rd_modStr, hdetail]
  · rw [State.rf, State.rd_raise_other _ _ e3, State.settleSwitch, State.rd_setRf_other _ w3, State.rd_modStr, ← State.rf, hreason]
  · have hne : off ≠ 0x100 ∧ 0x208 ≠ off := by
      simp only [haltOffs, List.mem_cons, not_or] at hoff
      obtain ⟨-, -, -, -, -, h5, h6, -⟩ := hoff
      exact ⟨h6, Ne.symm h5⟩
    rw [State.rd_raise_other _ _ hne.1, State.settleSwitch, State.rd_setRf_other _ hne.2, State.rd_modStr, hothers off hoff, State.rd_modStr]
    exact s.withdraw_rd st off

/-- The registers after a halt. -/
theorem State.takeHalt_shown (s : State) (st : Sid) (r : HaltRec) : HaltShown s (s.takeHalt st r) st r ∧ (s.takeHalt st r).rb 0x100 (evHalt st) = true := by
  obtain ⟨⟨hword, hcount, hdetail, hreason, hothers⟩, hevent⟩ := s.haltedBy_shown st r
  have hrd : ∀ off, (s.takeHalt st r).rd off = (s.haltedBy st r).rd off := by
    intro off
    rw [State.takeHalt_eq]
    split
    · exact State.rd_modStr ..
    · rfl
  exact ⟨⟨(hrd _).trans hword, (hrd _).trans hcount, (hrd _).trans hdetail, (congrArg (fld · 15 8) (hrd _)).trans hreason,
    fun off hoff => (hrd off).trans (hothers off hoff)⟩, (congrArg (bit · (evHalt st)) (hrd _)).trans hevent⟩

/-- A halt leaves its stream HALTED with what it had issued landed, may ask the partner to co-halt, and touches no other part than its
registers, the events, the queue system's waits and, where it is deferred, the marks of a stop. -/
theorem State.takeHalt_left (s : State) (st : Sid) (r : HaltRec) : ∃ csr ring qsy cke, (r.deferred = false → cke = s.cke) ∧
    s.takeHalt st r = { ((s.landed st).modStr st Stream.halted).modStr (otherSid st) (fun t => { t with coReq := t.coReq || s.asksPartner st r.partner }) with
      csr := csr, ring := ring, qsy := qsy, cke := cke } := by
  obtain ⟨csr, ring, qsy, cke, hcke, hby⟩ := s.haltedBy_eq st r
  have hother : ((s.haltedBy st r).str (otherSid st)).st = (s.str (otherSid st)).st := by
    obtain ⟨l, hl⟩ := s.landed_eq st
    rw [hby, hl]
    cases st <;> rfl
  have hbit : (s.haltedBy st r).rb (strmBase (otherSid st)) 8 = s.rb (strmBase (otherSid st)) 8 :=
    congrArg (bit · 8) ((s.haltedBy_shown st r).1.others _ (by cases st <;> decide))
  have hasks : (s.haltedBy st r).asksPartner st r.partner = s.asksPartner st r.partner := by
    simp only [State.asksPartner, hother, hbit]
  refine ⟨csr, ring, qsy, cke, hcke, ?_⟩
  rw [State.takeHalt_eq, hasks, hby]
  cases s.asksPartner st r.partner <;> cases st <;> simp [State.modStr, otherSid]

/-- The streams, the scratchpad and the schedules after a halt. -/
theorem State.takeHalt_streams (s : State) (st : Sid) (r : HaltRec) : (s.takeHalt st r).str st = Stream.halted ((s.landed st).str st) ∧
    (s.takeHalt st r).str (otherSid st) = { s.str (otherSid st) with coReq := (s.str (otherSid st)).coReq || s.asksPartner st r.partner } ∧
    sameSpm s (s.takeHalt st r) ∧ sameRegs (s.landed st) (s.takeHalt st r) ∧ (s.takeHalt st r).orr = s.orr := by
  obtain ⟨csr, ring, qsy, cke, -, hleft⟩ := s.takeHalt_left st r
  obtain ⟨l, hl⟩ := s.landed_eq st
  rw [hleft, hl]
  refine ⟨by cases st <;> rfl, by cases st <;> rfl, by cases st <;> rfl, fun o => ?_, by cases st <;> rfl⟩
  cases o <;> cases st <;> exact ⟨rfl, rfl, rfl⟩

/-- The fields of a halt's first word, in the registers. -/
theorem HaltShown.fields {s t : State} {st : Sid} {r : HaltRec} (h : HaltShown s t st r) : t.rf (haltBase st) 63 56 = r.reason % 256 ∧
    t.rb (haltBase st) 55 = true ∧ t.rb (haltBase st) 54 = r.deferred ∧ t.rb (haltBase st) 53 = r.partner ∧ t.rf (haltBase st) 16 0 = r.addr % 2 ^ 17 := by
  rw [State.rf, State.rb, State.rb, State.rb, State.rf, h.word]
  exact haltWord_fields r

/-- The address of a halt's record is where its stream stood. -/
theorem State.here_addr (s : State) (st : Sid) : s.here st % 2 ^ 17 = (s.str st).pc.toNat := by
  have := (s.str st).pc.isLt
  rw [State.here]
  omega

theorem State.canIssue_wait {s : State} {st : Sid} (h : s.canIssue st = true) : (s.str st).wait = none := by
  simp only [State.canIssue, Bool.and_eq_true, Option.isNone_iff_eq_none] at h
  tauto

end Sys2Proof.Machine
end

section
/-!
PROOFS. O12: a check that fails halts its stream at its word, and no command of the word has an effect (07 R171, R196, 09 R257).
-/

namespace Sys2Proof.Machine

/-- A check other than the fetch's halts with its reason, precise and not as a partner. -/
theorem State.haltAtIssue_eq (s : State) (st : Sid) {f : Chk} (c : Slot) (hrsn : f.rsn ≠ 0x0A) : ∃ kind tag imm det,
    s.haltAtIssue st f (some c) = s.takeHalt st ⟨f.rsn, false, false, true, kind, tag, s.here st, imm, det⟩ := by
  simp only [State.haltAtIssue, if_neg hrsn, Option.map_some]
  exact ⟨_, _, _, _, rfl⟩

/-- Settles O12: the word ends in the halt of its first failing check, on the state before the word. -/
theorem failingCheckHaltsPrecisely : Obligations.FailingCheckHaltsPrecisely := by
  unfold Obligations.FailingCheckHaltsPrecisely
  intro s st c i f hwf hrow hmay hguard hread hchk hrsn
  obtain ⟨kind, tag, imm, det, hhalt⟩ := s.haltAtIssue_eq st c hrsn
  have hexec := (exec_rowOf hwf hrow s).trans (issueRow_fails _ hmay hguard hread hchk)
  rw [hhalt] at hexec
  refine ⟨_, hexec, ?_⟩
  generalize hr : HaltRec.mk f.rsn false false true kind tag (s.here st) imm det = r
  obtain ⟨hshown, hevent⟩ := s.takeHalt_shown st r
  obtain ⟨hreason, hvalid, hdeferred, hpartner, haddr⟩ := hshown.fields
  obtain ⟨csr, ring, qsy, cke, hcke, hleft⟩ := s.takeHalt_left st r
  rw [State.landed_none (State.canIssue_wait hmay.issues)] at hleft
  subst hr
  rw [s.here_addr st] at haddr
  obtain rfl := hcke rfl
  have hregs : sameRegs s (s.takeHalt st ⟨f.rsn, false, false, true, kind, tag, s.here st, imm, det⟩) := by
    rw [hleft]
    intro o
    cases o <;> cases st <;> exact ⟨rfl, rfl, rfl⟩
  refine ⟨?_, ?_, hreason, haddr, hvalid, hdeferred, hpartner, hevent, hregs, ?_⟩
  all_goals
    rw [hleft]
    cases st
  all_goals simp [State.str, State.modStr, otherSid, Stream.halted, Stream.withdrawn, sameSpm]

end Sys2Proof.Machine
end

section
/-!
PROOFS. O16: the immediate, the moves between register kinds and the predicates (07 R173, R176, R177, Tables 7-1, 7-2).
-/

namespace Sys2Proof.Machine

/-- A check of a list without a failing one passes. -/
theorem chk_passes {l : List Chk} (h : firstFail l = none) {cls rsn : Nat} {bad : Bool} (hk : chk cls bad rsn ∈ l) (hcls : cls < 7) : bad = false :=
  firstFail_none h hk hcls

/-! ### Values as other registers take them -/

theorem fld_low (x : W64) : fld x 31 0 = (x.setWidth 32).toNat := by
  rw [fld_eq_div_mod, BitVec.toNat_setWidth, pow_zero, Nat.div_one]

theorem fld_high (x : W64) : fld x 63 32 = ((x >>> 32).setWidth 32).toNat := by
  rw [fld_eq_div_mod, BitVec.toNat_setWidth, BitVec.toNat_ushiftRight, Nat.shiftRight_eq_div_pow]

theorem sgn_toInt (x : W32) : sgn 32 x.toNat = x.toInt := by
  rw [sgn, BitVec.toInt_eq_toNat_cond]
  split <;> split <;> omega

/-- The sign extension of a 32-bit value, as a number. -/
theorem sgn_signExtend (x : W32) : (sgn 32 (x.toNat % 2 ^ 32) % 2 ^ 48).toNat = (x.signExtend 48).toNat := by
  rw [Nat.mod_eq_of_lt x.isLt, sgn_toInt, BitVec.signExtend, BitVec.toNat_ofInt]
  rfl

theorem b2n_ne_zero {w : Nat} (x : BitVec w) : b2n (decide (x.toNat ≠ 0)) = if x = 0 then 0 else 1 := by
  by_cases h : x = 0 <;> simp [b2n, h, ← BitVec.toNat_inj]

/-- The relations of SCMP and BRC. -/
theorem relHolds_eq (u : Bool) (rel : Nat) (x y : W32) : relHolds u rel x y =
    let lt := if u then x.ult y else x.slt y
    match rel with | 0 => x == y | 1 => x != y | 2 => lt | 3 => lt || x == y | 4 => !lt && x != y | _ => !lt := by
  match rel with
  | 0 => rfl
  | 1 => rfl
  | 2 => rfl
  | 3 => rfl
  | 4 => rfl
  | _ + 5 => rfl

/-- The second operand of a command on N registers. -/
theorem opT_n (t : Stream) (c : Slot) :
    BitVec.ofNat 32 (opT t c 0) = if bit c.base 35 then BitVec.ofNat 32 (fld (c.x 0) 31 0) else t.rdN (c.f 32 29) := by
  unfold opT
  cases bit c.base 35 <;> simp

/-! ### SMOV -/

/-- A command that is not of class W goes on with the state that its effect left. -/
theorem issueRow_done {s s' : State} {st : Sid} {c : Slot} {m : CmdSem} {l : List RegWr} (hm : m.isW = notW) (h : Clear m s st c)
    (hrun : m.run (s.began st) st c (s.loneLw st c) = .ok s' l) : issueRow m st c s = .next (s.retired st c s' none l) := by
  rw [issueRow_ok h hrun, CmdSem.left_notW hm]

/-- An SMOV writes its source's value as its destination takes it, and the latch as its source leaves it. -/
theorem exec_smov {s : State} {st : Sid} {c0 : Slot} (h : Clear smovSem s st (asOpc 0x02 c0)) {sk dk x : Nat} {latch : Option W32}
    (hsk : (asOpc 0x02 c0).f 41 40 = sk) (hdk : (asOpc 0x02 c0).f 47 46 = dk)
    (hread : smovSource s (s.str st) sk ((asOpc 0x02 c0).f 39 36) = (x, latch)) :
    exec (.smov st c0) s = .next (s.retired st (asOpc 0x02 c0)
      (((s.began st).modStr st fun t => { t with mhi := latch }).setReg st dk ((asOpc 0x02 c0).f 45 42) (smovConvert dk sk x)) none []) := by
  have hbegan : smovSource (s.began st) ((s.began st).str st) ((asOpc 0x02 c0).f 41 40) ((asOpc 0x02 c0).f 39 36) = (x, latch) := by
    rw [hsk, ← hread]
    cases st <;> rfl
  have hrun : smovSem.run (s.began st) st (asOpc 0x02 c0) (s.loneLw st (asOpc 0x02 c0)) = .ok
      (((s.began st).modStr st fun t => { t with mhi := latch }).setReg st dk ((asOpc 0x02 c0).f 45 42) (smovConvert dk sk x)) [] := by
    show runSmov _ _ _ = _
    rw [runSmov, hbegan, hsk, hdk]
  exact issueRow_done rfl h hrun

/-- What a read of the stream's counters and of the core's time gives. -/
theorem smovSource_counter (s : State) (t : Stream) (i : Nat) : smovSource s t 3 i =
    let q := if i < 4 then (t.lcn i, t.mhi) else if i = 4 then (t.cc.setWidth 32, t.mhi) else if i = 5 then ((t.cc >>> 32).setWidth 32, t.mhi)
      else if i = 6 then (s.now.setWidth 32, some ((s.now >>> 32).setWidth 32)) else (t.mhi.getD ((s.now >>> 32).setWidth 32), none)
    (q.1.toNat, q.2) := by
  have hhigh : BitVec.ofNat 32 (fld s.now 63 32) = (s.now >>> 32).setWidth 32 := by rw [fld_high, BitVec.ofNat_toNat, BitVec.setWidth_eq]
  simp only [smovSource, fld_low, hhigh]
  split
  · rfl
  split
  · rfl
  split
  · rw [fld_high]
  split
  · rfl
  cases t.mhi with
  | some v => rfl
  | none => rw [fld_high]; rfl

/-! ### Predicates -/

theorem State.setReg_p0 (s : State) (st : Sid) (v : Nat) : ((s.setReg st 2 0 v).str st).p = (s.str st).p := by cases st <;> rfl

theorem State.setReg_rdP (s : State) (st : Sid) {i : Nat} (v : Nat) (hi : i ≠ 0) : ((s.setReg st 2 i v).str st).rdP i = decide (v % 2 = 1) := by
  have hstr : (s.setReg st 2 i v).str st = { s.str st with p := tset false (s.str st).p i (decide (v % 2 = 1)) } := by
    refine (State.str_modStr_same ..).trans ?_
    show (s.str st).wrReg ⟨2, i, v⟩ = _
    exact if_neg hi
  rw [hstr, Stream.rdP, if_neg hi, tget_tset_same]

/-- Settles O16: each case by what the command reads and how the destination takes it. -/
theorem movesAndPredicates : Obligations.MovesAndPredicates := by
  unfold Obligations.MovesAndPredicates
  refine ⟨fun s st c0 => ⟨fun h => ⟨fun hdk => ?_, fun hdk => ?_⟩, fun h => ?_⟩,
    fun s st c0 => ⟨fun h => ?_, fun h => ?_, s.setReg_p0 st, fun i v hi => s.setReg_rdP st v hi⟩⟩
  · exact issueRow_done rfl h (by show runSli _ _ _ = _; rw [runSli, hdk]; rfl)
  · exact issueRow_done rfl h (by show runSli _ _ _ = _; rw [runSli, hdk]; rfl)
  · have hput := fun {sk dk x v : Nat} {latch : Option W32} (hsk : (asOpc 0x02 c0).f 41 40 = sk) (hdk : (asOpc 0x02 c0).f 47 46 = dk)
      (hread : smovSource s (s.str st) sk ((asOpc 0x02 c0).f 39 36) = (x, latch)) (hv : smovConvert dk sk x = v) => hv ▸ exec_smov h hsk hdk hread
    refine ⟨fun hsk hdk => hput hsk hdk rfl ?_, fun hsk hdk => hput hsk hdk rfl rfl, fun hsk hdk => hput hsk hdk rfl (sgn_signExtend _),
      fun hsk hdk => hput hsk hdk rfl (BitVec.toNat_setWidth ..).symm, fun hsk hdk => hput hsk hdk rfl ?_,
      fun hsk hdk => hput hsk hdk rfl (b2n_ne_zero _), fun hsk hdk => hput hsk hdk rfl ?_, fun hsk hdk => hput hsk hdk rfl (b2n_ne_zero _),
      fun hsk hdk => hput hsk hdk rfl rfl, fun hsk x latch hval => ?_⟩
    · exact Nat.mod_eq_of_lt (BitVec.isLt _)
    · cases (s.str st).rdP ((asOpc 0x02 c0).f 39 36) <;> rfl
    · cases (s.str st).rdP ((asOpc 0x02 c0).f 39 36) <;> rfl
    · have hread : smovSource s (s.str st) 3 ((asOpc 0x02 c0).f 39 36) = (x.toNat, latch) := by rw [smovSource_counter, ← hval]
      refine ⟨?_, fun hdk => hput hsk hdk hread (Nat.mod_eq_of_lt x.isLt), fun hdk => hput hsk hdk hread (sgn_signExtend x),
        fun hdk => hput hsk hdk hread (b2n_ne_zero x)⟩
      have hidx : (decide ((asOpc 0x02 c0).f 41 40 ≠ 1) && decide ((asOpc 0x02 c0).f 39 36 > 7)) = false :=
        chk_passes h.sound.checks (cls := 1) (rsn := 3) (by simp [smovSem, chkSmov]) (by decide)
      simp only [hsk, Bool.and_eq_false_iff, decide_eq_false_iff_not] at hidx
      omega
  · refine issueRow_done rfl h ?_
    have hstr : (s.began st).str st = { s.str st with fresh := false } := State.str_modStr_same ..
    show runScmp _ _ _ = _
    rw [runScmp, relHolds_eq, opT_n, hstr]
    rfl
  · refine issueRow_done rfl h ?_
    have hstr : (s.began st).str st = { s.str st with fresh := false } := State.str_modStr_same ..
    show runSpl _ _ _ = _
    rw [runSpl, hstr]
    rfl

end Sys2Proof.Machine
end

section
/-!
PROOFS. O18: LOOP, LEXIT and the branches: the levels and the next address that each leaves (07 R182, R186 to R189).
-/

namespace Sys2Proof.Machine

/-- The word after a bank address, read on the state as the word began. -/
theorem State.lwAfter_began (s : State) (st : Sid) (a : Nat) : (s.began st).lwAfter st a =
    a + 16 * (fld (tget 0 s.imem.rows (s.bankOf st * 8192 + a / 16)) 63 60 + 1) := by
  cases st <;> rfl

theorem began_loops (s : State) (st : Sid) : ((s.began st).str st).loops = (s.str st).loops := by cases st <;> rfl
theorem began_guard (s : State) (st : Sid) (c : Slot) : guardTrue ((s.began st).str st) c = guardTrue (s.str st) c := by cases st <;> rfl
theorem began_brcTaken (s : State) (st : Sid) (c : Slot) : brcTaken ((s.began st).str st) c = brcTaken (s.str st) c := by cases st <;> rfl

section
variable {s : State} {st : Sid} {c0 : Slot}

/-- A LEXIT that issues leaves no more levels than are active. -/
theorem lexit_levels (h : Clear lexitSem s st (asOpc 0x11 c0)) : (asOpc 0x11 c0).f 47 46 + 1 ≤ (s.str st).loops.length := by
  have hlevels : (guardTrue ((s.began st).str st) (asOpc 0x11 c0) && decide ((asOpc 0x11 c0).f 47 46 + 1 > ((s.began st).str st).loops.length)) = false :=
    chk_passes h.sound.checks (cls := 6) (rsn := 3) (by simp [lexitSem, chkLexit]) (by decide)
  rw [began_guard, began_loops, show guardTrue (s.str st) (asOpc 0x11 c0) = true from h.guard, Bool.true_and, decide_eq_false_iff_not] at hlevels
  omega

theorem exec_lexit (h : Clear lexitSem s st (asOpc 0x11 c0)) {l : LoopLvl}
    (hl : (s.str st).loops[(s.str st).loops.length - ((asOpc 0x11 c0).f 47 46 + 1)]? = some l) :
    exec (.lexit st c0) s = .next (s.retired st (asOpc 0x11 c0)
      ((s.began st).modStr st fun t => { t with loops := t.loops.take ((s.str st).loops.length - ((asOpc 0x11 c0).f 47 46 + 1)) })
      (some (l.fin + 16 * (fld (tget 0 s.imem.rows (s.bankOf st * 8192 + l.fin / 16)) 63 60 + 1))) []) := by
  refine issueRow_jump h ?_
  show runLexit _ _ _ = _
  rw [runLexit, began_loops, hl, ← s.lwAfter_began]

/-- A LOOP that issues finds room for its level. -/
theorem loop_room (h : Clear loopSem s st (asOpc 0x10 c0)) : (s.str st).loops.length < 4 := by
  have hroom : decide (((s.began st).str st).loops.length ≥ 4) = false :=
    chk_passes h.sound.checks (cls := 6) (rsn := 7) (by simp [loopSem, chkLoop]) (by decide)
  rw [began_loops, decide_eq_false_iff_not] at hroom
  omega

/-- The count that a LOOP latches. -/
def loopCount (t : Stream) (c : Slot) : W32 := if bit c.base 47 then t.rdN (c.f 46 44) else BitVec.ofNat 32 (c.f 43 28)

theorem began_loopCount (s : State) (st : Sid) (c : Slot) : loopCount ((s.began st).str st) c = loopCount (s.str st) c := by cases st <;> rfl

theorem runLoop_eq (s : State) (st : Sid) (c : Slot) (lw : LwInfo) : runLoop s st c lw =
    if loopCount (s.str st) c = 0 then .jump s (s.lwAfter st (lw.addr + 16 * c.f 24 9))
    else .jump (s.modStr st fun t => { t with loops := t.loops ++ [⟨lw.addr + lw.len, lw.addr + 16 * c.f 24 9, loopCount (s.str st) c, loopSteps c⟩] })
      (lw.addr + lw.len) := rfl

theorem exec_loop_skips (h : Clear loopSem s st (asOpc 0x10 c0)) (hcount : loopCount (s.str st) (asOpc 0x10 c0) = 0) :
    exec (.loop st c0) s = .next (s.retired st (asOpc 0x10 c0) (s.began st) (some ((s.began st).lwAfter st ((s.str st).pc.toNat + 16 * (asOpc 0x10 c0).f 24 9))) []) := by
  refine issueRow_jump h ?_
  show runLoop .. = _
  rw [runLoop_eq, began_loopCount, if_pos hcount]
  rfl

theorem exec_loop_enters (h : Clear loopSem s st (asOpc 0x10 c0)) (hcount : loopCount (s.str st) (asOpc 0x10 c0) ≠ 0) :
    exec (.loop st c0) s = .next (s.retired st (asOpc 0x10 c0) ((s.began st).modStr st fun t => { t with loops := t.loops ++
      [⟨(s.str st).pc.toNat + 16 * (((asOpc 0x10 c0).xw + 3) / 2), (s.str st).pc.toNat + 16 * (asOpc 0x10 c0).f 24 9,
        loopCount (s.str st) (asOpc 0x10 c0), loopSteps (asOpc 0x10 c0)⟩] }) (some ((s.str st).pc.toNat + 16 * (((asOpc 0x10 c0).xw + 3) / 2))) []) := by
  refine issueRow_jump h ?_
  show runLoop .. = _
  rw [runLoop_eq, began_loopCount, if_neg hcount, loneLw_len]
  rfl

/-- A BRC goes to its target where its relation holds. -/
theorem exec_brc (h : Clear brcSem s st (asOpc 0x14 c0)) : exec (.brc st c0) s = .next (s.retired st (asOpc 0x14 c0) (s.began st)
    (if brcTaken (s.str st) (asOpc 0x14 c0) then some (((s.str st).pc.toNat : Int) + sfld (asOpc 0x14 c0).base 47 24).toNat else none) []) := by
  by_cases htaken : brcTaken (s.str st) (asOpc 0x14 c0) = true
  · rw [if_pos htaken]
    refine issueRow_jump h ?_
    show runBrc .. = _
    rw [runBrc, began_brcTaken, if_pos htaken]
    rfl
  · rw [if_neg htaken]
    refine issueRow_done rfl h ?_
    show runBrc .. = _
    rw [runBrc, began_brcTaken, if_neg htaken]

end

/-- Settles O18: each command by the levels and the address that it leaves. -/
theorem loopsAndBranches : Obligations.LoopsAndBranches := by
  unfold Obligations.LoopsAndBranches
  refine ⟨fun s st c0 => ⟨fun h => ⟨lexit_levels h, fun l hl => exec_lexit h hl⟩, fun h => ⟨loop_room h, fun hcount => ?_, exec_loop_enters h⟩⟩,
    fun s st c0 => ⟨fun h => issueRow_jump h rfl, fun h => issueRow_jump h rfl, fun h => ?_, fun u x y => ?_⟩⟩
  · rw [exec_loop_skips h hcount, s.lwAfter_began]
  · exact exec_brc h
  · exact ⟨rfl, decide_not.symm, rfl, (Bool.not_or ..).symm, rfl, rfl⟩

end Sys2Proof.Machine
end

section
/-!
PROOFS. O25, O26: a POST's slot and its acknowledgement (07 R192 to R195).
-/

namespace Sys2Proof.Machine

/-! ### Fields of a register -/

theorem State.rb_setRf_bit (s : State) (off : Nat) {i : Nat} (h : i < 64) (v : Nat) : (s.setRf off i i v).rb off i = v.testBit 0 := by
  rw [State.rb, State.setRf, State.rd_wr, if_pos rfl, bit_putFld _ _ le_rfl h, if_pos ⟨le_rfl, le_rfl⟩, Nat.sub_self]

theorem State.rb_setRf_disjoint (s : State) (off : Nat) {hi lo i : Nat} (v : Nat) (h : lo ≤ hi) (hi64 : i < 64) (hd : hi < i ∨ i < lo) :
    (s.setRf off hi lo v).rb off i = s.rb off i := by
  rw [State.rb, State.setRf, State.rd_wr, if_pos rfl, bit_putFld _ _ h hi64, if_neg (by omega), State.rb]

/-! ### The acknowledgement -/

/-- An acknowledgement that names a slot's post frees the slot. -/
theorem State.postAckWrite_frees {s : State} {v : W64} (hvalid : s.rb (postOff (fld v 21 16)) 63 = true)
    (hseq : s.rf (postOff (fld v 21 16)) 47 32 = fld v 15 0) : s.postAckWrite v = s.setRf (postOff (fld v 21 16)) 63 63 0 := by
  simp [State.postAckWrite, hvalid, hseq]

theorem State.postAckWrite_bad {s : State} {v : W64}
    (h : ¬ (s.rb (postOff (fld v 21 16)) 63 = true ∧ s.rf (postOff (fld v 21 16)) 47 32 = fld v 15 0)) : s.postAckWrite v = s.incRf 0x4208 15 0 := by
  refine if_neg ?_
  rwa [Bool.and_eq_true, decide_eq_true_eq]

/-- Settles O26: the access reaches the register, which frees the slot or counts. -/
theorem postAckFreesItsSlot : Obligations.PostAckFreesItsSlot := by
  unfold Obligations.PostAckFreesItsSlot
  intro s v hs hb hd o
  refine ⟨s.postAckWrite v, congrArg Host.Outcome.next (State.atHost_open hs hb hd _ _), ?_, fun hvalid hseq => ?_, fun hbad => ?_⟩
  · unfold State.postAckWrite
    dsimp only
    split <;> exact State.setRf_onlyCsr (onlyCsr.refl s) ..
  · rw [State.postAckWrite_frees hvalid hseq]
    exact ⟨s.rb_setRf_bit _ (by decide) 0, s.rf_setRf_disjoint _ _ (by decide) (by decide) (by decide) (.inr (by decide)),
      s.rf_setRf_disjoint _ _ (by decide) (by decide) (by decide) (.inr (by decide)), fun off hoff => s.rd_setRf_other hoff.symm ..⟩
  · rw [State.postAckWrite_bad hbad, State.incRf]
    refine ⟨(s.rf_setRf_same _ (by decide) (by decide) _).trans ?_, fun off hoff => s.rd_setRf_other hoff.symm ..⟩
    simp only [satInc]
    omega

/-! ### A slot that the host reads (07 R195) -/

theorem onlyCsrRing.setRf {s t : State} (h : onlyCsrRing s t) (off hi lo v : Nat) : onlyCsrRing s (t.setRf off hi lo v) := by
  rw [onlyCsrRing] at h ⊢
  rw [State.setRf, State.wr, h]

/-- A fault record leaves the registers behind the log. -/
theorem State.rd_fault_behind (s : State) (unit kind : Nat) (who : Option (Sid × W16)) (loc : Nat) {off : Nat} (h : 0xB00 < off) :
    (s.fault unit kind who loc).rd off = s.rd off := by
  have h100 : off ≠ 0x100 := by omega
  have hlog : 0xB00 ≠ off := by omega
  rw [State.fault, State.faultLog]
  split
  · exact s.rd_setRf_other hlog ..
  · have hput : ∀ i, i < 16 → ∀ k, k ≤ 24 → 0x900 + 0x20 * i + k ≠ off := by omega
    have hi : s.rf 0xB00 4 0 % 16 < 16 := Nat.mod_lt _ (by decide)
    rw [State.rd_raise_other _ _ h100, State.rd_setRf_other _ hlog, State.faultPut]
    simp only [State.rd_wr, if_neg (hput _ hi 24 (by decide)), if_neg (hput _ hi 16 (by decide)), if_neg (hput _ hi 8 (by decide))]
    exact if_neg (hput _ hi 0 (by decide))

/-- The first record of an empty log. -/
theorem State.fault_first {s : State} (unit kind loc : Nat) (hwp : s.rf 0xB00 4 0 = 0) (hrp : s.rf 0xB00 12 8 = 0) :
    (s.fault unit kind none loc).rd 0x900 = s.faultWord unit kind none ∧ (s.fault unit kind none loc).rd 0x908 = BitVec.ofNat 64 loc ∧
      (s.fault unit kind none loc).rf 0xB00 4 0 = 1 := by
  have hlog : s.fault unit kind none loc = ((s.faultPut 0 (s.faultWord unit kind none) (BitVec.ofNat 64 loc)).setRf 0xB00 4 0 1).raise evFaultRecord := by
    simp [State.fault, State.faultLog, hwp, hrp]
  rw [hlog]
  refine ⟨?_, ?_, ?_⟩
  · rw [State.rd_raise_other _ _ (by decide), State.rd_setRf_other _ (by decide), State.faultPut]
    simp [State.rd_wr]
  · rw [State.rd_raise_other _ _ (by decide), State.rd_setRf_other _ (by decide), State.faultPut]
    simp [State.rd_wr]
  · rw [State.rf, State.rd_raise_other _ _ (by decide), ← State.rf, State.rf_setRf_same _ _ (by decide) (by decide)]
    rfl

theorem State.fault_frame (s : State) (unit kind : Nat) (who : Option (Sid × W16)) (loc : Nat) : onlyCsrRing s (s.fault unit kind who loc) := by
  rw [State.fault, State.faultLog]
  split
  · exact (State.setRf_onlyCsr (onlyCsr.refl s) ..).withRing
  · refine onlyCsrRing.raise (State.setRf_onlyCsr ?_ ..).withRing _
    exact State.wr_onlyCsr (State.wr_onlyCsr (State.wr_onlyCsr (State.wr_onlyCsr (onlyCsr.refl s) ..) ..) ..) ..

/-- What a host's read of a slot with a parity error leaves. -/
def State.postParity (s : State) (n : Nat) : State := ((s.fault 0x09 3 none n).raiseCause evStateParity 3).setRf (postOff n) 62 62 1

/-- Of the log's records and the posts, a parity error changes what the fault record and the slot's mark say. -/
theorem State.postParity_rd (s : State) (n : Nat) {off : Nat} (h100 : off ≠ 0x100) (h118 : off ≠ 0x118) (hpost : off ≠ postOff n) :
    (s.postParity n).rd off = (s.fault 0x09 3 none n).rd off := by
  rw [State.postParity, State.raiseCause, State.rd_setRf_other _ hpost.symm, State.rd_setRf_other _ h118.symm, State.rd_raise_other _ _ h100]

theorem State.postParity_spec (s : State) {n : Nat} (hn : n < 64) : onlyCsrRing s (s.postParity n) ∧ (s.postParity n).rb 0x100 10 = true ∧
    (s.postParity n).rb 0x118 3 = true ∧ (∀ k, k < 64 → k ≠ n → (s.postParity n).rd (0x4000 + 8 * k) = s.rd (0x4000 + 8 * k)) ∧
    (s.postParity n).rd (0x4000 + 8 * n) = putFld (s.rd (0x4000 + 8 * n)) 62 62 1 ∧
    (s.rf 0xB00 4 0 = 0 → s.rf 0xB00 12 8 = 0 → (s.postParity n).rf 0x900 63 56 = 9 ∧ (s.postParity n).rf 0x900 55 52 = 3 ∧
      (s.postParity n).rd 0x908 = BitVec.ofNat 64 n ∧ (s.postParity n).rf 0xB00 4 0 = 1) := by
  have hoff : ∀ {off}, off < 0x4000 → postOff n ≠ off := fun {off} h => by unfold postOff; omega
  refine ⟨(((s.fault_frame ..).raise _).setRf ..).setRf .., ?_, ?_, fun k hk hkn => ?_, ?_, fun hwp hrp => ?_⟩
  · rw [State.postParity, State.raiseCause, State.rb_setRf_other _ (hoff (by decide)), State.rb_setRf_other _ (by decide)]
    exact State.rb_raise_same _ (by decide)
  · rw [State.postParity, State.raiseCause, State.rb_setRf_other _ (hoff (by decide))]
    exact State.rb_setRf_same _ _ _ (by decide)
  · rw [s.postParity_rd n (by omega) (by omega) (by unfold postOff; omega), State.rd_fault_behind _ _ _ _ _ (by omega)]
  · rw [State.postParity, State.setRf, State.rd_wr]
    refine (if_pos rfl).trans (congrArg (putFld · 62 62 1) ?_)
    rw [State.raiseCause, State.rd_setRf_other _ (hoff (by decide)).symm, State.rd_raise_other _ _ (hoff (by decide)),
      State.rd_fault_behind _ _ _ _ _ (by unfold postOff; omega)]
    rfl
  · obtain ⟨hword, hloc, hcount⟩ := s.fault_first 0x09 3 n hwp hrp
    rw [State.rf, State.rf, State.rf, s.postParity_rd n (by decide) (by decide) (hoff (by decide)).symm,
      s.postParity_rd n (by decide) (by decide) (hoff (by decide)).symm, s.postParity_rd n (by decide) (by decide) (hoff (by decide)).symm, hword, hloc]
    exact ⟨by simp only [State.faultWord]; decide, by simp only [State.faultWord]; decide, rfl, hcount⟩

/-! ### A POST (07 R192) -/

theorem State.rd_raise_pending (s : State) (src : Nat) : (s.raise src).rd 0x100 = putFld (s.rd 0x100) src src 1 := by
  unfold State.raise
  dsimp only
  split <;> exact (s.rd_wr ..).trans (if_pos rfl)

/-- What a POST leaves of its slot, and of the other registers. -/
theorem State.postPut_spec (s : State) (n : Nat) (v : W32) (ev : Bool) :
    (s.postPut n v ev).rb (postOff n) 63 = true ∧ (s.postPut n v ev).rf (postOff n) 31 0 = v.toNat ∧
    (s.postPut n v ev).rf (postOff n) 47 32 = (s.rf (postOff n) 47 32 + 1) % 65536 ∧
    (∀ off, off ≠ postOff n → off ≠ 0x100 → (s.postPut n v ev).rd off = s.rd off) ∧
    (s.postPut n v ev).rd 0x100 = (if ev then putFld (s.rd 0x100) 2 2 1 else s.rd 0x100) := by
  have hoff : postOff n ≠ 0x100 := by
    unfold postOff
    omega
  have hslot : (s.postPut n v ev).rd (postOff n) =
      ((((s.setRf (postOff n) 47 32 (s.rf (postOff n) 47 32 + 1)).setRf (postOff n) 31 0 v.toNat).setRf (postOff n) 63 63 1).setRf (postOff n) 62 62 0).rd (postOff n) := by
    unfold State.postPut
    cases ev
    · rfl
    · exact State.rd_raise_other _ _ hoff
  rw [State.rb, State.rf, State.rf, hslot, ← State.rb, ← State.rf, ← State.rf]
  refine ⟨?_, ?_, ?_, fun off hne h100 => ?_, ?_⟩
  · rw [State.rb_setRf_disjoint _ _ _ (by decide) (by decide) (.inl (by decide)), State.rb_setRf_same _ _ _ (by decide)]
  · rw [State.rf_setRf_disjoint _ _ _ (by decide) (by decide) (by decide) (.inr (by decide)),
      State.rf_setRf_disjoint _ _ _ (by decide) (by decide) (by decide) (.inr (by decide)), State.rf_setRf_same _ _ (by decide) (by decide)]
    exact Nat.mod_eq_of_lt v.isLt
  · rw [State.rf_setRf_disjoint _ _ _ (by decide) (by decide) (by decide) (.inr (by decide)),
      State.rf_setRf_disjoint _ _ _ (by decide) (by decide) (by decide) (.inr (by decide)),
      State.rf_setRf_disjoint _ _ _ (by decide) (by decide) (by decide) (.inl (by decide)), State.rf_setRf_same _ _ (by decide) (by decide)]
    rfl
  · unfold State.postPut
    cases ev
    · simp [State.rd_setRf_other _ hne.symm]
    · simp [State.rd_raise_other _ _ h100, State.rd_setRf_other _ hne.symm]
  · unfold State.postPut
    cases ev
    · simp [State.rd_setRf_other _ hoff]
    · simp [State.rd_raise_pending, State.rd_setRf_other _ hoff, evPostReady]

/-! ### The command -/

section
variable {s : State} {st : Sid} {c : Slot} {lw : LwInfo}

/-- A POST of a word that an earlier write has still to reach. -/
theorem runPost_held (hform : isN (c.f 36 31) = false) (hheld : s.readWaits st lw ((selForm (s.str st).regs c (c.f 36 31) 0).addrN 0) 4 = true) :
    runPost s st c lw = .stall quietStall 0 := by
  simp [runPost, hform, hheld]

/-- The value that a POST writes. -/
def postValue (s : State) (st : Sid) (c : Slot) : W32 :=
  if isN (c.f 36 31) then (s.str st).rdN (c.f 36 31 - 8)
  else BitVec.ofNat 32 (leNat ((List.range 4).map fun i => s.spm.byte ((selForm (s.str st).regs c (c.f 36 31) 0).addrN 0 + i)))

/-- A POST has its value: a register's, or a word that no earlier write has still to reach, in place and without error. -/
def PostValued (s : State) (st : Sid) (c : Slot) (lw : LwInfo) : Prop :=
  isN (c.f 36 31) = true ∨ (s.readWaits st lw ((selForm (s.str st).regs c (c.f 36 31) 0).addrN 0) 4 = false ∧
    s.cA.log = [] ∧ s.cX.log = [] ∧ ∀ i, i < 4 → s.spm.eccAt ((selForm (s.str st).regs c (c.f 36 31) 0).addrN 0 + i) = .good)

/-- A POST that has its value writes its slot or waits for it. -/
theorem runPost_value (hvalue : PostValued s st c lw) :
    runPost s st c lw = if s.rb (postOff (postSlot (s.str st) c)) 63 then .wait s (.post (postSlot (s.str st) c) (postValue s st c) (bit c.base 37)) []
      else .ok (s.postPut (postSlot (s.str st) c) (postValue s st c) (bit c.base 37)) [] := by
  cases hform : isN (c.f 36 31)
  case true => simp [runPost, postValue, hform]
  case false =>
    obtain ⟨hheld, hA, hX, hgood⟩ := hvalue.resolve_left (by simp [hform])
    simp [runPost, postValue, hform, hheld, State.badView_good hA hX (some st) hgood, State.touchView_good hA hX (some st) hgood,
      State.peekLe_inPlace hA hX]

end

theorem began_readWaits (s : State) (st : Sid) (lw : LwInfo) (a n : Nat) : (s.began st).readWaits st lw a n = s.readWaits st lw a n := by cases st <;> rfl
theorem began_regs (s : State) (st : Sid) : ((s.began st).str st).regs = (s.str st).regs := by cases st <;> rfl
theorem began_postSlot (s : State) (st : Sid) (c : Slot) : postSlot ((s.began st).str st) c = postSlot (s.str st) c := by cases st <;> rfl
theorem began_postValue (s : State) (st : Sid) (c : Slot) : postValue (s.began st) st c = postValue s st c := by cases st <;> rfl
theorem began_postValued {s : State} {st : Sid} {c : Slot} {lw : LwInfo} (h : PostValued s st c lw) : PostValued (s.began st) st c lw := by
  cases st <;> exact h

section
variable {s : State} {st : Sid} {c0 : Slot} (h : Clear postSem s st (asOpc 0x2F c0))
include h

/-- A POST that issues names one of the 64 slots. -/
theorem post_slot : postSlot (s.str st) (asOpc 0x2F c0) < 64 := by
  have hslot : decide (postSlot ((s.began st).str st) (asOpc 0x2F c0) > 63) = false :=
    chk_passes h.sound.checks (cls := 3) (rsn := 3) (by simp [postSem, chkPost]) (by decide)
  rw [began_postSlot, decide_eq_false_iff_not] at hslot
  omega

theorem exec_post_held (hform : isN ((asOpc 0x2F c0).f 36 31) = false)
    (hheld : s.readWaits st (s.loneLw st (asOpc 0x2F c0)) ((selForm (s.str st).regs (asOpc 0x2F c0) ((asOpc 0x2F c0).f 36 31) 0).addrN 0) 4 = true) :
    exec (.post st c0) s = .next (s.modStr st fun t => { t with stall := none }) := by
  have hrun : postSem.run (s.began st) st (asOpc 0x2F c0) (s.loneLw st (asOpc 0x2F c0)) = .stall quietStall 0 :=
    runPost_held hform (by rw [began_readWaits, began_regs, hheld])
  show issueRow .. = _
  rw [issueRow_clear h, hrun]
  rfl

theorem run_post (hvalue : PostValued s st (asOpc 0x2F c0) (s.loneLw st (asOpc 0x2F c0))) :
    postSem.run (s.began st) st (asOpc 0x2F c0) (s.loneLw st (asOpc 0x2F c0)) =
      if s.rb (postOff (postSlot (s.str st) (asOpc 0x2F c0))) 63 then
        .wait (s.began st) (.post (postSlot (s.str st) (asOpc 0x2F c0)) (postValue s st (asOpc 0x2F c0)) (bit (asOpc 0x2F c0).base 37)) []
      else .ok ((s.began st).postPut (postSlot (s.str st) (asOpc 0x2F c0)) (postValue s st (asOpc 0x2F c0)) (bit (asOpc 0x2F c0).base 37)) [] := by
  refine (runPost_value (began_postValued hvalue)).trans ?_
  rw [began_postSlot, began_postValue]
  cases st <;> rfl

end

/-- Settles O25: the host's read, then the command by whether it has its value and its slot is free. -/
theorem postWritesAFreeSlot : Obligations.PostWritesAFreeSlot := by
  unfold Obligations.PostWritesAFreeSlot
  refine ⟨fun s n hs hb hd => ⟨congrArg Host.Outcome.next (State.atHost_open hs hb hd _ _), s.postParity n.toNat,
    congrArg Host.Outcome.next (State.atHost_open hs hb hd _ _), s.postParity_spec n.isLt⟩,
    fun s st c0 h => ⟨exec_post_held h, fun hvalue => ⟨post_slot h, fun hfree => ⟨?_, s.postPut_spec ..⟩, fun hfull => ?_⟩⟩⟩
  · refine (issueRow_ok h ((run_post h hvalue).trans (if_neg (by rw [Bool.not_eq_true]; exact hfree)))).trans ?_
    rw [CmdSem.left_nil]
    rfl
  · exact issueRow_wait h ((run_post h hvalue).trans (if_pos hfull))

end Sys2Proof.Machine
end

section
/-!
PROOFS. O17: the accesses of SLD and SST, and the scratchpad's service of them (06 R135, 07 R175, R176).
-/

namespace Sys2Proof.Machine

/-! ### At issue -/

section
variable {s : State} {st : Sid} {c0 : Slot}

theorem exec_sld (h : Clear sldSem s st (asOpc 0x0E c0)) : exec (.sld st c0) s = .next (s.retired st (asOpc 0x0E c0)
    ((s.began st).pushAcc st (asOpc 0x0E c0) true ((asOpc 0x0E c0).f 47 46) ((asOpc 0x0E c0).f 45 42)
      ((List.range (if (asOpc 0x0E c0).f 47 46 = 1 then 8 else 4)).map ((selForm (s.str st).regs (asOpc 0x0E c0) ((asOpc 0x0E c0).f 41 36) 0).addrN 0 + ·)) []) none []) := by
  refine issueRow_done rfl h ?_
  show runSld _ _ _ = _
  rw [runSld, began_regs]
  rfl

/-- The bytes that an SST stores, read at issue. -/
def storeBytes (t : Stream) (c : Slot) : List Byte :=
  if c.f 47 46 = 1 then leBytes 8 (t.rdA (c.f 45 42)).toNat else leBytes 4 (t.rdN (c.f 45 42)).toNat

theorem exec_sst (h : Clear sstSem s st (asOpc 0x0F c0)) : exec (.sst st c0) s = .next (s.retired st (asOpc 0x0F c0)
    ((s.began st).pushAcc st (asOpc 0x0F c0) false ((asOpc 0x0F c0).f 47 46) ((asOpc 0x0F c0).f 45 42)
      ((List.range (storeBytes (s.str st) (asOpc 0x0F c0)).length).map ((selForm (s.str st).regs (asOpc 0x0F c0) ((asOpc 0x0F c0).f 41 36) 0).addrN 0 + ·))
      (storeBytes (s.str st) (asOpc 0x0F c0))) none []) := by
  refine issueRow_done rfl h ?_
  have hbytes : storeBytes ((s.began st).str st) (asOpc 0x0F c0) = storeBytes (s.str st) (asOpc 0x0F c0) := by cases st <;> rfl
  show runSst _ _ _ = _
  rw [← hbytes, ← began_regs]
  rfl

end

/-! ### The service -/

/-- A stream's oldest access leaves its queue. -/
def State.served (s : State) (st : Sid) (rest : List ScalAcc) : State := s.modStr st fun t => { t with scal := rest }

theorem State.accLoad_wait (s : State) (st : Sid) (a : ScalAcc) (bs : List Byte) : ((s.accLoad st a bs).str st).wait = (s.str st).wait := by
  have hregs : ∀ ws, ((s.wrRegs st ws).str st).wait = (s.str st).wait := by
    intro ws
    rw [State.wrRegs, State.str_modStr_same, Stream.foldl_wrReg_only]
  unfold State.accLoad
  split
  · exact hregs _
  · exact hregs _
  all_goals cases st <;> rfl

/-- A load served: its destination is written, or a word that it meets is uncorrectable. -/
def State.readAccess (s : State) (st : Sid) (a : ScalAcc) : State :=
  match (if a.lost then a.addrs.head? else (a.addrs.filter fun k => s.spm.eccAt (s.viewAddr (some st) k) = .bad).min?) with
  | some k => s.spmHalt st a.cs a.tag a.slot a.lw (k / 8 * 8)
  | none => (s.touchWords (some st) (wordsOf (a.addrs.map fun k => (k, 1)))).accLoad st a
      (if a.bytes.isEmpty then a.addrs.map fun k => (s.touchWords (some st) (wordsOf (a.addrs.map fun k => (k, 1)))).spm.byte
        ((s.touchWords (some st) (wordsOf (a.addrs.map fun k => (k, 1)))).viewAddr (some st) k) else a.bytes)

/-- A load over good words, outside any consist's, gives its destination their bytes. -/
theorem State.readAccess_good {s : State} {st : Sid} {a : ScalAcc} (hA : s.cA.log = []) (hX : s.cX.log = []) (hlost : a.lost = false)
    (hgood : ∀ k ∈ a.addrs, s.spm.eccAt k = .good) :
    s.readAccess st a = s.accLoad st a (if a.bytes.isEmpty then a.addrs.map s.spm.byte else a.bytes) := by
  have hnone : (a.addrs.filter fun k => decide (s.spm.eccAt k = .bad)) = [] := by
    rw [List.filter_eq_nil_iff]
    intro k hk
    rw [hgood k hk]
    decide
  have htouch : s.touchWords (some st) (wordsOf (a.addrs.map fun k => (k, 1))) = s := by
    refine State.touchWords_inPlace hA hX _ fun w hw => ?_
    obtain ⟨k, hk, rfl⟩ := byte_of_mem_wordsOf hw
    exact hgood k hk
  simp [State.readAccess, hlost, htouch, State.viewAddr_inPlace hA hX, hnone]

section
variable {s : State} {st : Sid} {a : ScalAcc} {rest : List ScalAcc} (hscal : (s.str st).scal = a :: rest) (hheld : s.accHeld st a = false)
include hscal hheld

theorem exec_access_read (hload : a.isLoad = true) :
    exec (.scratchpadScalarAccess st) s = .next (((s.served st rest).readAccess st a).retryStores st) := by
  show execScratchpadScalarAccess st s = _
  simp only [execScratchpadScalarAccess, hscal, hheld, hload, Bool.false_eq_true, if_false, if_true, Bool.not_true]
  rfl

theorem exec_access_write (hstore : a.isLoad = false) (hblock : s.writeBlock (some st) a.cs (a.addrs.headD 0) a.addrs.length = none) :
    exec (.scratchpadScalarAccess st) s = .next (((s.served st rest).writePairs (some st) a.cs (a.addrs.zip a.bytes)).retryStores st) := by
  show execScratchpadScalarAccess st s = _
  simp only [execScratchpadScalarAccess, hscal, hheld, hstore, hblock, Bool.false_eq_true, if_false, if_true, Bool.not_false]
  rfl

/-- A load over good words is served. -/
theorem exec_access_good (hwait : (s.str st).wait = none) (hA : s.cA.log = []) (hX : s.cX.log = []) (hload : a.isLoad = true) (hlost : a.lost = false)
    (hgood : ∀ k ∈ a.addrs, s.spm.eccAt k = .good) : exec (.scratchpadScalarAccess st) s =
      .next ((s.served st rest).accLoad st a (if a.bytes.isEmpty then a.addrs.map s.spm.byte else a.bytes)) := by
  have hspm : (s.served st rest).spm = s.spm := State.modStr_spm ..
  rw [exec_access_read hscal hheld hload, State.readAccess_good (by simpa [State.served] using hA) (by simpa [State.served] using hX) hlost
    (by rwa [hspm]), hspm, State.retryStores_idle]
  rw [State.accLoad_wait, State.served, State.str_modStr_same, hwait]

/-- A load that latched no bytes takes those of its addresses. -/
theorem exec_access_bytes (hwait : (s.str st).wait = none) (hA : s.cA.log = []) (hX : s.cX.log = []) (hload : a.isLoad = true) (hlost : a.lost = false)
    (hgood : ∀ k ∈ a.addrs, s.spm.eccAt k = .good) (hbytes : a.bytes = []) :
    exec (.scratchpadScalarAccess st) s = .next ((s.served st rest).accLoad st a (a.addrs.map s.spm.byte)) := by
  have hexec := exec_access_good hscal hheld hwait hA hX hload hlost hgood
  rwa [hbytes] at hexec

end

/-! ### Destinations -/

theorem onlyCsrRing.trans {s t u : State} (h : onlyCsrRing s t) (h' : onlyCsrRing t u) : onlyCsrRing s u := by
  rw [onlyCsrRing] at h h' ⊢
  rw [h', h]

theorem State.noteUncorr_frame (s : State) (who : Option (Sid × W16)) (a : Nat) : onlyCsrRing s (s.noteUncorr who a) := by
  refine onlyCsrRing.trans ?_ (State.fault_frame ..)
  unfold State.noteAddr
  split
  · exact (onlyCsr.refl s).withRing
  · exact (State.wr_onlyCsr (onlyCsr.refl s) ..).withRing

/-- A deferred halt of a running stream outside a chain is taken at once. -/
theorem State.deferHalt_running {s : State} {st : Sid} (hrun : (s.str st).st = .running) (hchain : (s.str st).chain = 0) (reason detail : Nat) (tag : W16)
    (slot lw : Nat) : s.deferHalt st reason detail tag slot lw = s.takeHalt st ⟨reason, true, false, true, slot, tag, lw, 0, detail⟩ := by
  simp [State.deferHalt, hrun, hchain]

/-- A scalar load writes its register. -/
theorem accLoad_register (s : State) (st : Sid) {a : ScalAcc} (rest : List ScalAcc) (hkind : a.kind < 2) (bs : List Byte) :
    let t := (s.served st rest).accLoad st a bs
    sameSpm s t ∧ (t.str st).scal = rest ∧ (a.kind = 0 → (t.str st).rdN a.idx = BitVec.ofNat 32 (leNat bs) ∧ (t.str st).a = (s.str st).a) ∧
      (a.kind = 1 → (t.str st).rdA a.idx = BitVec.ofNat 48 (leNat bs) + a.add ∧ (t.str st).n = (s.str st).n) ∧
      (t.str st).p = (s.str st).p ∧ t.str (otherSid st) = s.str (otherSid st) := by
  obtain h0 | h1 : a.kind = 0 ∨ a.kind = 1 := by omega
  · have hload : (s.served st rest).accLoad st a bs = (s.served st rest).wrRegs st [⟨0, a.idx, leNat bs⟩] := by simp only [State.accLoad, h0]
    have hstr : ((s.served st rest).wrRegs st [⟨0, a.idx, leNat bs⟩]).str st =
        { s.str st with scal := rest, n := tset 0 (s.str st).n a.idx (BitVec.ofNat 32 (leNat bs)) } := by cases st <;> rfl
    intro t
    rw [show t = _ from hload, hstr]
    refine ⟨by cases st <;> rfl, rfl, fun _ => ⟨tget_tset_same .., rfl⟩, fun h => absurd (h0.symm.trans h) (by decide), rfl, by cases st <;> rfl⟩
  · have hload : (s.served st rest).accLoad st a bs = (s.served st rest).wrRegs st [⟨1, a.idx, leNat bs + a.add.toNat⟩] := by simp only [State.accLoad, h1]
    have hstr : ((s.served st rest).wrRegs st [⟨1, a.idx, leNat bs + a.add.toNat⟩]).str st =
        { s.str st with scal := rest, a := tset 0 (s.str st).a a.idx (BitVec.ofNat 48 (leNat bs + a.add.toNat)) } := by cases st <;> rfl
    have hsum : BitVec.ofNat 48 (leNat bs + a.add.toNat) = BitVec.ofNat 48 (leNat bs) + a.add := by rw [BitVec.ofNat_add, BitVec.ofNat_toNat, BitVec.setWidth_eq]
    intro t
    rw [show t = _ from hload, hstr]
    refine ⟨by cases st <;> rfl, rfl, fun h => absurd (h1.symm.trans h) (by decide), fun _ => ⟨(tget_tset_same ..).trans hsum, rfl⟩, rfl, by cases st <;> rfl⟩

theorem sameRegs.trans {s t u : State} (h : sameRegs s t) (h' : sameRegs t u) : sameRegs s u := fun o =>
  ⟨(h' o).1.trans (h o).1, (h' o).2.1.trans (h o).2.1, (h' o).2.2.trans (h o).2.2⟩

theorem sameRegs_served (s : State) (st : Sid) (rest : List ScalAcc) : sameRegs s (s.served st rest) := by
  intro o
  cases o <;> cases st <;> exact ⟨rfl, rfl, rfl⟩

/-- A load of a key sets the key register's seed, stream and step. -/
theorem accLoad_key (s : State) (st : Sid) {a : ScalAcc} (rest : List ScalAcc) (hkind : a.kind = 3) (bs : List Byte) :
    let t := (s.served st rest).accLoad st a bs
    sameSpm s t ∧ sameRegs s t ∧ (t.str st).scal = rest ∧ (∀ j, j ≠ a.idx → t.key j = s.key j) ∧
      t.key a.idx = { s.key a.idx with
        seed := BitVec.ofNat 64 (rdLe bs 0 8), stream := BitVec.ofNat 32 (rdLe bs 8 4), step := BitVec.ofNat 32 (rdLe bs 12 4), seq := false } := by
  have hkeys : (s.served st rest).keys = s.keys := State.modStr_keys ..
  intro t
  simp only [t, State.accLoad, hkind, State.key, hkeys]
  refine ⟨by cases st <;> rfl, ?_, by cases st <;> rfl, fun j hj => tget_tset_other _ _ _ hj.symm, tget_tset_same ..⟩
  exact sameRegs_served s st rest

/-- A load of a schedule puts in the record that its command latched. -/
theorem accLoad_sched (s : State) (st : Sid) {a : ScalAcc} (rest : List ScalAcc) (hkind : a.kind = 4) (bs : List Byte) :
    let t := (s.served st rest).accLoad st a bs
    sameSpm s t ∧ sameRegs s t ∧ (t.str st).scal = rest ∧ t.sched a.idx = ⟨bs, true, BitVec.ofNat 32 (rdLe bs 4 4)⟩ ∧
      ∀ j, j ≠ a.idx → t.sched j = s.sched j := by
  have horr : (s.served st rest).orr = s.orr := State.modStr_orr ..
  intro t
  simp only [t, State.accLoad, hkind, State.sched, State.setSched, horr]
  refine ⟨by cases st <;> rfl, ?_, by cases st <;> rfl, tget_tset_same .., fun j hj => tget_tset_other _ _ _ hj.symm⟩
  exact sameRegs_served s st rest

/-- A schedule's record that was uncorrectable halts its stream, and the schedule stays. -/
theorem exec_access_lost {s : State} {st : Sid} {a : ScalAcc} {rest : List ScalAcc} (hscal : (s.str st).scal = a :: rest) (hheld : s.accHeld st a = false)
    (hcs : a.cs = none) (hwait : (s.str st).wait = none) (hload : a.isLoad = true) (hlost : a.lost = true) {k : Nat} {l : List Nat} (haddrs : a.addrs = k :: l)
    (hrun : (s.str st).st = .running) (hchain : (s.str st).chain = 0) :
    ∃ t : State, exec (.scratchpadScalarAccess st) s = .next t ∧ sameSpm s t ∧ sameRegs s t ∧ t.orr = s.orr ∧ (t.str st).st = .halted ∧
      t.rf (haltBase st) 63 56 = 0x0B := by
  obtain ⟨u, hu⟩ : ∃ u, u = (s.served st rest).noteUncorr (some (st, a.tag)) (k / 8 * 8) := ⟨_, rfl⟩
  have hframe : onlyCsrRing (s.served st rest) u := hu ▸ State.noteUncorr_frame ..
  have hstr : u.str st = { s.str st with scal := rest } := by
    rw [hframe]
    cases st <;> rfl
  have hr : (s.served st rest).readAccess st a = u.takeHalt st ⟨0x0B, true, false, true, a.slot, a.tag, a.lw, 0, k / 8 * 8⟩ := by
    rw [State.readAccess, hlost, haddrs, hcs]
    refine Eq.trans ?_ (State.deferHalt_running (by rw [hstr]; exact hrun) (by rw [hstr]; exact hchain) 0x0B (k / 8 * 8) a.tag a.slot a.lw)
    rw [hu]
    rfl
  obtain ⟨hself, -, hspm, hregs, horr⟩ := u.takeHalt_streams st ⟨0x0B, true, false, true, a.slot, a.tag, a.lw, 0, k / 8 * 8⟩
  obtain ⟨hreason, -⟩ := (u.takeHalt_shown st ⟨0x0B, true, false, true, a.slot, a.tag, a.lw, 0, k / 8 * 8⟩).1.fields
  rw [State.landed_none (by rw [hstr]; exact hwait)] at hself hregs
  have hkept : sameRegs s u := by
    rw [hframe]
    exact sameRegs_served s st rest
  refine ⟨_, ?_, hspm.trans ?_, hkept.trans hregs, horr.trans ?_, by rw [hself]; rfl, hreason⟩
  · rw [exec_access_read hscal hheld hload, hr, State.retryStores_idle (by rw [hself]; rfl)]
  · rw [hframe]
    exact State.modStr_spm ..
  · rw [hframe]
    exact State.modStr_orr ..

/-- Bytes at consecutive addresses, one by one. -/
theorem zip_pairsAt (base : Nat) (bs : List Byte) : ((List.range bs.length).map (base + ·)).zip bs = pairsAt base bs :=
  List.ext_getElem (by simp [pairsAt]) fun i _ _ => by simp [pairsAt]

/-- A store outside any consist writes its bytes in place. -/
theorem exec_access_store {s : State} {st : Sid} {a : ScalAcc} {rest : List ScalAcc} {base : Nat} (hscal : (s.str st).scal = a :: rest)
    (hheld : s.accHeld st a = false) (hcs : a.cs = none) (hplace : InPlace s) (hwait : (s.str st).wait = none) (hstore : a.isLoad = false)
    (hblock : s.writeBlock (some st) none base a.addrs.length = none) (haddrs : a.addrs = (List.range a.bytes.length).map (base + ·)) (hne : a.bytes ≠ []) :
    ∃ t : State, exec (.scratchpadScalarAccess st) s = .next t ∧ (t.str st).scal = rest ∧ sameRegs s t ∧
      ∀ x, t.spm.byte x = if base ≤ x ∧ x < base + a.bytes.length then a.bytes.getD (x - base) 0 else s.spm.byte x := by
  have hlo : a.addrs.headD 0 = base := by
    cases hb : a.bytes with
    | nil => exact absurd hb hne
    | cons b bs => simp [haddrs, hb, List.range_succ_eq_map]
  have hin : InPlace (s.served st rest) := by
    obtain ⟨hA, hX, hdirA, hdirX, hgone⟩ := hplace
    cases st <;> exact ⟨hA, hX, hdirA, hdirX, hgone⟩
  obtain ⟨honly, -, hbytes⟩ := State.stores_writePairs hin st (a.addrs.zip a.bytes) false
  rw [haddrs, zip_pairsAt] at honly hbytes
  have hregs := sameRegs_served s st rest
  refine ⟨(s.served st rest).writePairs (some st) none (pairsAt base a.bytes), ?_, ?_, ?_, fun x => ?_⟩
  · rw [exec_access_write hscal hheld hstore (by rw [hcs, hlo]; exact hblock), hcs, haddrs, zip_pairsAt, State.retryStores_idle]
    rw [honly]
    refine Eq.trans ?_ hwait
    cases st <;> rfl
  · rw [honly]
    cases st <;> rfl
  · rw [honly]
    intro o
    cases o with
    | a => exact hregs .a
    | x => exact hregs .x
  · rw [hbytes, putBytes_pairsAt]
    exact if_congr Iff.rfl rfl (congrFun (congrArg Spm.byte (State.modStr_spm ..)) x)

/-- Settles O17: the accesses as SLD and SST leave them, and each kind of access as it is served. -/
theorem scalarLoadsAndStores : Obligations.ScalarLoadsAndStores := by
  unfold Obligations.ScalarLoadsAndStores
  refine ⟨fun s st c0 => ⟨exec_sld, fun h => ⟨fun hk => ?_, fun hk => ?_⟩⟩, fun s st a rest base hscal hheld hcs hA hX hdirA hdirX hwait =>
    ⟨fun hload hkind hbytes hgood _ _ => ?_, fun hload hkind hbytes hgood _ _ => ?_, fun hload hkind hbytes hgood _ => ?_,
      fun k l hload hkind hbytes haddrs hrun hchain => ?_, fun hstore hblock hgone haddrs hne => ?_⟩⟩
  · have hst := exec_sst h
    simpa only [storeBytes, hk, if_neg (show ¬ (0 = 1) by decide), leBytes_length] using hst
  · have hst := exec_sst h
    simpa only [storeBytes, hk, if_true, leBytes_length] using hst
  · have hlost : a.lost = false := by simp [ScalAcc.lost, show a.kind ≠ 4 by omega]
    exact ⟨_, exec_access_bytes hscal hheld hwait hA hX hload hlost hgood hbytes, accLoad_register s st rest hkind _⟩
  · have hlost : a.lost = false := by simp [ScalAcc.lost, hkind]
    exact ⟨_, exec_access_bytes hscal hheld hwait hA hX hload hlost hgood hbytes, accLoad_key s st rest hkind _⟩
  · have hlost : a.lost = false := by simp [ScalAcc.lost, hbytes]
    have hexec := exec_access_good hscal hheld hwait hA hX hload hlost hgood
    rw [if_neg (by simpa using hbytes)] at hexec
    exact ⟨_, hexec, accLoad_sched s st rest hkind _⟩
  · exact exec_access_lost hscal hheld hcs hwait hload (by simp [ScalAcc.lost, hkind, hbytes]) haddrs hrun hchain
  · exact exec_access_store hscal hheld hcs ⟨hA, hX, hdirA, hdirX, hgone⟩ hwait hstore hblock haddrs hne

end Sys2Proof.Machine
end

section
/-!
PROOFS. O46: what a stream does at a boundary: it stops, halts, co-halts or takes a switch (07 R197, R198, R201, R202, 09 R245, R257).
-/

namespace Sys2Proof.Machine

/-- The halts of a boundary, as the statement says them. -/
theorem State.takeHalt_spec (s : State) (st : Sid) (r : HaltRec) : let t := s.takeHalt st r
    (t.str st).st = .halted ∧ (t.str st).wait = none ∧ sameSpm s t ∧ sameRegs (s.landed st) t ∧ t.rf (haltBase st) 63 56 = r.reason % 256 ∧
      t.rb (haltBase st) 55 = true ∧ t.rb (haltBase st) 54 = r.deferred ∧ t.rb (haltBase st) 53 = r.partner ∧ t.rf (haltBase st) 16 0 = r.addr % 2 ^ 17 ∧
      t.rd (haltBase st + 8) = (s.str st).cc ∧ t.rf (strmBase st + 8) 15 8 = r.reason % 256 ∧ t.rb 0x100 (evHalt st) = true := by
  obtain ⟨hself, -, hspm, hregs, -⟩ := s.takeHalt_streams st r
  obtain ⟨hshown, hevent⟩ := s.takeHalt_shown st r
  obtain ⟨hreason, hvalid, hdeferred, hpartner, haddr⟩ := hshown.fields
  exact ⟨by rw [hself]; rfl, by rw [hself]; rfl, hspm, hregs, hreason, hvalid, hdeferred, hpartner, haddr, hshown.count, hshown.reason, hevent⟩

/-! ### A switch (09 R245) -/

/-- The image's checks read the window alone, and not the mark of a switch that waits. -/
theorem State.imageBad_congr {s t : State} (h : ∀ off, off ≠ 0x208 → t.rd off = s.rd off) (hbank : t.runBank = s.runBank) (needValid : Bool) :
    t.imageBad needValid = s.imageBad needValid := by
  have hinfo : t.rd (bankInfo s.runBank) = s.rd (bankInfo s.runBank) := h _ (by unfold bankInfo; omega)
  simp only [State.imageBad, State.rf, hbank, hinfo, h 0 (by decide)]
  rfl

/-- The running stream at the entry of the running bank. -/
def State.switched (s : State) (st : Sid) : State :=
  (s.modStr st fun t => { t with swPend := false, loops := [], pc := BitVec.ofNat 17 (s.bankEntry s.runBank st), stall := none }).settleSwitch

theorem State.takeSwitch_sound {s : State} {st : Sid} (himage : s.imageBad false = none) : s.takeSwitch st = s.switched st := by
  have hkept : (s.switched st).imageBad false = none := by
    rw [← himage]
    refine State.imageBad_congr (fun off hoff => ?_) ?_ false
    · rw [State.switched, State.settleSwitch, State.rd_setRf_other _ hoff.symm, State.rd_modStr]
    · rw [State.runBank, State.switched, State.settleSwitch, State.rf_setRf_disjoint _ _ _ (by decide) (by decide) (by decide) (.inl (by decide))]
      exact congrArg (fld · 8 8) (State.rd_modStr ..)
  have htake : s.takeSwitch st = match ((s.switched st).str st).st, (s.switched st).imageBad false with
      | .stopped, _ => s.switched st
      | _, some d => (s.switched st).haltB st 0x19 d
      | _, none => s.switched st := rfl
  rw [htake, hkept]
  split
  · rfl
  · contradiction
  · rfl

theorem b2n_testBit (b : Bool) : (b2n b).testBit 0 = b := by cases b <;> rfl

theorem State.switched_spec (s : State) (st : Sid) : let t := s.switched st
    (t.str st).st = (s.str st).st ∧ (t.str st).swPend = false ∧ (t.str st).loops = [] ∧ (t.str st).pc = BitVec.ofNat 17 (s.bankEntry s.runBank st) ∧
      t.runBank = s.runBank ∧ sameSpm s t ∧ sameRegs s t ∧ t.str (otherSid st) = s.str (otherSid st) ∧
      t.rb 0x208 2 = (s.str (otherSid st)).swPend := by
  refine ⟨by cases st <;> rfl, by cases st <;> rfl, by cases st <;> rfl, by cases st <;> rfl, ?_, by cases st <;> rfl, fun o => ?_, by cases st <;> rfl, ?_⟩
  · rw [State.runBank, State.switched, State.settleSwitch, State.rf_setRf_disjoint _ _ _ (by decide) (by decide) (by decide) (.inl (by decide))]
    exact congrArg (fld · 8 8) (State.rd_modStr ..)
  · cases o <;> cases st <;> exact ⟨rfl, rfl, rfl⟩
  · rw [State.switched, State.settleSwitch, State.rb_setRf_bit _ _ (by decide), b2n_testBit]
    cases st
    · exact Bool.false_or _
    · exact Bool.or_false _

/-- Settles O46: each event by the state in which its boundary finds the stream. -/
theorem boundariesHaltAndSwitch : Obligations.BoundariesHaltAndSwitch := by
  unfold Obligations.BoundariesHaltAndSwitch
  intro s st hchain state landed halted
  have hhalted : ∀ {reason : Nat} {partner : Bool} (detail : Nat), reason < 256 →
      halted (s.takeHalt st ⟨reason, false, partner, false, 0, 0, s.here st, 0, detail⟩) reason partner := by
    intro reason partner detail hlt
    have hspec := s.takeHalt_spec st ⟨reason, false, partner, false, 0, 0, s.here st, 0, detail⟩
    simp only [s.here_addr st, Nat.mod_eq_of_lt hlt] at hspec
    exact hspec
  refine ⟨fun hstop hwait hlock hreq hsw => ?_, fun hrun hreq => ⟨_, ?_, hhalted 0 (by decide), fun hco hother => ?_⟩,
    fun hrun hreq => ⟨_, ?_, hhalted 0 ?_, ?_⟩, fun hrun hsw hwait hlock hc himage => ⟨s.switched st, ?_, ?_⟩⟩
  · refine congrArg Host.Outcome.next ?_
    simp [show (s.str st).st = .stopping from hstop, hwait, hlock, hchain, hreq, hsw]
  · refine congrArg Host.Outcome.next (if_pos ?_)
    simpa [hchain, hreq] using hrun
  · rw [(s.takeHalt_streams st _).2.1]
    simp [State.asksPartner, hco, hother]
  · refine congrArg Host.Outcome.next (if_pos ?_)
    simpa [hchain, hreq, or_assoc] using hrun
  · rw [State.rf, fld_eq_div_mod]
    exact Nat.mod_lt _ (by decide)
  · rw [(s.takeHalt_streams st _).2.1]
    simp [State.asksPartner]
  · refine congrArg Host.Outcome.next ((if_pos ?_).trans (State.takeSwitch_sound himage))
    simp [hsw, hwait, hlock, hchain, hc]
  · obtain ⟨hstate, hspec⟩ := s.switched_spec st
    exact ⟨hstate.trans hrun, hspec⟩

end Sys2Proof.Machine
end

section
/-!
PROOFS. O48: of several actions in one write of STRM.CTRL the highest acts (07 R204).
-/

namespace Sys2Proof.Machine

/-- The four commands of STRM.CTRL act where the host's access reaches its register. -/
theorem exec_strm {s : State} (hs : s.pins.stopReady = true) (hb : s.pins.bypassClosed = false) (hd : s.rb 8 0 = true) (st : Sid) :
    exec (.strmStart st) s = .next (s.startStream st).1 ∧ exec (.strmStop st) s = .next (s.stopStream st) ∧
      exec (.strmHalt st) s = .next (s.haltStream st) ∧ exec (.strmReset st) s = .next (s.resetStream st) :=
  ⟨congrArg Host.Outcome.next (State.atHost_open hs hb hd _ _), congrArg Host.Outcome.next (State.atHost_open hs hb hd _ _),
    congrArg Host.Outcome.next (State.atHost_open hs hb hd _ _), congrArg Host.Outcome.next (State.atHost_open hs hb hd _ _)⟩

/-- A host's write of STRM.CTRL is a write by that register's own rules. -/
theorem exec_strmCtrl {s : State} (hs : s.pins.stopReady = true) (hb : s.pins.bypassClosed = false) (hd : s.rb 8 0 = true) (st : Sid) (v : W64) :
    exec (.registerWrite (BitVec.ofNat 16 (strmBase st)) v) s = .next (s.strmCtrlWrite st v) := by
  rw [exec_registerWrite, State.atHost_open hs hb hd]
  cases st <;> rfl

/-- The highest action of a write, alone. -/
def State.highestAction (s : State) (st : Sid) (v : W64) : State :=
  if bit v 3 then s.resetStream st else if bit v 2 then s.haltStream st else s.stopStream st

/-- A write with two or more actions. -/
theorem State.strmCtrlWrite_several (s : State) (st : Sid) {v : W64} (h : 2 ≤ (([0, 1, 2, 3] : List Nat).filter fun i => bit v i).length) :
    s.strmCtrlWrite st v = ((s.setRf (strmBase st) 8 8 (fld v 8 8)).highestAction st v).setRf (strmBase st + 8) 20 20 1 := by
  have hcount : ([0, 1, 2, 3].filter fun i => bit v i).length = b2n (bit v 0) + b2n (bit v 1) + b2n (bit v 2) + b2n (bit v 3) := by
    simp only [List.filter_cons, List.filter_nil]
    cases bit v 0 <;> cases bit v 1 <;> cases bit v 2 <;> cases bit v 3 <;> rfl
  have hstop : bit v 3 = false → bit v 2 = false → bit v 1 = true := by
    intro h3 h2
    rw [hcount, h3, h2] at h
    cases h1 : bit v 1
    case true => rfl
    case false =>
      have hone : b2n (bit v 0) ≤ 1 := by cases bit v 0 <;> decide
      rw [h1] at h
      have hzero : b2n false = 0 := rfl
      omega
  have hact : (if bit v 3 then (s.setRf (strmBase st) 8 8 (fld v 8 8)).resetStream st else if bit v 2 then (s.setRf (strmBase st) 8 8 (fld v 8 8)).haltStream st
      else if bit v 1 then (s.setRf (strmBase st) 8 8 (fld v 8 8)).stopStream st
      else if bit v 0 then ((s.setRf (strmBase st) 8 8 (fld v 8 8)).startStream st).1 else s.setRf (strmBase st) 8 8 (fld v 8 8)) =
      (s.setRf (strmBase st) 8 8 (fld v 8 8)).highestAction st v := by
    unfold State.highestAction
    cases h3 : bit v 3
    case true => rfl
    case false =>
      cases h2 : bit v 2
      case true => rfl
      case false => simp [hstop h3 h2]
  rw [State.strmCtrlWrite, hact]
  exact if_pos (by rw [← hcount]; exact h)

/-- Settles O48: the write is the highest action's command, then IGN. -/
theorem onlyTheHighestActionActs : Obligations.OnlyTheHighestActionActs := by
  unfold Obligations.OnlyTheHighestActionActs
  intro s st v hs hb hd hseveral s1
  have hd1 : s1.rb 8 0 = true := (s.rb_setRf_other (by cases st <;> decide) ..).trans hd
  obtain ⟨-, hstop, hhalt, hreset⟩ := exec_strm (s := s1) hs hb hd1 st
  refine ⟨s1.highestAction st v, fun h3 => ?_, fun h3 h2 => ?_, fun h3 h2 => ?_, ?_⟩
  · rw [hreset, State.highestAction, h3, if_pos rfl]
  · rw [hhalt, State.highestAction, h3, h2, if_neg Bool.false_ne_true, if_pos rfl]
  · rw [hstop, State.highestAction, h3, h2, if_neg Bool.false_ne_true, if_neg Bool.false_ne_true]
  · rw [exec_strmCtrl hs hb hd, s.strmCtrlWrite_several st hseveral]

end Sys2Proof.Machine
end

section
/-!
PROOFS. O45: STRM.CTRL's commands, and the end of a reset (07 R199 to R203, 00 R6, 05 R133).
-/

namespace Sys2Proof.Machine

/-! ### START (07 R199, R200) -/

/-- A stream as it starts from IDLE. -/
def Stream.started (entry : Nat) : Stream := { Stream.reset with st := .running, pc := BitVec.ofNat 17 entry, fresh := true }

/-- The running bank's entry of a stream, in bytes. -/
def State.entry (s : State) (st : Sid) : Nat := s.rf (strmBase st + 0x10) 16 4 * 16

theorem State.entry_lt (s : State) (st : Sid) : s.entry st < 2 ^ 17 := by
  have := fld_eq_div_mod (s.rd (strmBase st + 0x10)) 16 4
  rw [State.entry, State.rf, this]
  omega

theorem State.startStream_idle {s : State} {st : Sid} (hst : (s.str st).st = .idle) (h3 : s.rf 0x1808 6 5 ≠ 3) (h1 : s.rf 0x1808 6 5 ≠ 1)
    (hbist : s.bist = none) : (s.startStream st).1 = (s.modStr st fun _ => Stream.started (s.entry st)).startChecks st true := by
  simp only [State.startStream, hst, hbist, h3, h1, decide_false, Bool.or_false, Bool.false_eq_true, if_false]
  rfl

theorem State.startStream_stopped {s : State} {st : Sid} (hst : (s.str st).st = .stopped) (hbist : s.bist = none) :
    (s.startStream st).1 = (s.modStr st fun t => { t with st := .running }).startChecks st false := by
  simp only [State.startStream, hst, hbist, Bool.false_eq_true, if_false]

theorem State.startStream_ignored {s : State} {st : Sid} (hidle : (s.str st).st ≠ .idle) (hstop : (s.str st).st ≠ .stopped) :
    (s.startStream st).1 = s.ignore st := by
  unfold State.startStream
  split
  · contradiction
  · contradiction
  · rfl

theorem State.imageBad_modStr (s : State) (st : Sid) (f : Stream → Stream) (needValid : Bool) : (s.modStr st f).imageBad needValid = s.imageBad needValid :=
  State.imageBad_congr (fun off _ => s.rd_modStr st f off) (congrArg (fld · 8 8) (s.rd_modStr st f _)) needValid

/-- A sound image and no key positions to check. -/
theorem State.startChecks_sound {s : State} {st : Sid} {needValid : Bool} (himage : s.imageBad needValid = none) (hrng : st = .x → s.cke.rngCheck = false) :
    s.startChecks st needValid = s := by
  have hskip : (decide (st = .x) && s.cke.rngCheck) = false := by
    rw [Bool.and_eq_false_iff, decide_eq_false_iff_not]
    exact (em (st = .x)).elim (fun h => .inr (hrng h)) .inl
  simp [State.startChecks, himage, hskip]

theorem State.startChecks_bad {s : State} {st : Sid} {needValid : Bool} {d : Nat} (himage : s.imageBad needValid = some d) :
    s.startChecks st needValid = s.haltB st 0x19 d := by
  simp [State.startChecks, himage]

/-- DETAIL of a bad image fits its field. -/
theorem State.imageBad_lt {s : State} {needValid : Bool} {d : Nat} (h : s.imageBad needValid = some d) : d < 2 ^ 48 := by
  unfold State.imageBad at h
  dsimp only at h
  generalize s.rd (bankInfo s.runBank) = w at h
  split at h
  case isFalse => cases h
  case isTrue =>
    have hmajor := fld_eq_div_mod w 47 40
    have hminor := fld_eq_div_mod w 39 32
    have hcode := fld_eq_div_mod w 61 59
    have herr : (if bit w 63 then 0 else if fld w 61 59 ≠ 0 then fld w 61 59 else 0xFF) ≤ 0xFF := by
      split
      · decide
      split
      · omega
      · decide
    rw [Option.some.injEq] at h
    omega

/-- A halt for a bad image. -/
theorem State.haltB_refused (s : State) (st : Sid) {d : Nat} (hd : d < 2 ^ 48) : let t := s.haltB st 0x19 d
    ((t.str st).st = .halted ∧ t.rb (haltBase st) 55 = true ∧ t.rb (haltBase st) 54 = false ∧ t.rf (haltBase st) 63 56 = 0x19 ∧
      t.rf (haltBase st + 16) 47 0 = d ∧ t.rf (strmBase st + 8) 15 8 = 0x19 ∧ t.rb 0x100 (evHalt st) = true ∧ sameSpm s t) ∧
    t.rf (haltBase st) 16 0 = (s.str st).pc.toNat ∧ t.rd (haltBase st + 8) = (s.str st).cc ∧ sameRegs (s.landed st) t := by
  obtain ⟨hst, -, hspm, hregs, hreason, hvalid, hdeferred, -, haddr, hcount, hstatus, hevent⟩ :=
    s.takeHalt_spec st ⟨0x19, false, false, false, 0, 0, s.here st, 0, d⟩
  have hdetail : (s.takeHalt st ⟨0x19, false, false, false, 0, 0, s.here st, 0, d⟩).rd (haltBase st + 16) = BitVec.ofNat 64 (d % 2 ^ 48) := by
    rw [(s.takeHalt_shown st _).1.detail]
    simp only [Nat.zero_mod, Nat.zero_mul, Nat.zero_add]
  refine ⟨⟨hst, hvalid, hdeferred, hreason, ?_, hstatus, hevent, hspm⟩, haddr.trans (s.here_addr st), hcount, hregs⟩
  rw [State.rf, State.haltB, hdetail, fld_eq_div_mod, BitVec.toNat_ofNat]
  omega

/-! ### STOP and HALT (07 R201, R202) -/

theorem State.stopStream_ignored {s : State} {st : Sid} (h : (s.str st).st ≠ .running) : s.stopStream st = s.ignore st := by
  unfold State.stopStream
  split
  · contradiction
  · rfl

theorem State.stopStream_running {s : State} {st : Sid} (h : (s.str st).st = .running) : s.stopStream st = s.modStr st fun t => { t with st := .stopping } := by
  simp only [State.stopStream, h]

theorem State.haltStream_going {s : State} {st : Sid} (h : (s.str st).st = .running ∨ (s.str st).st = .stopping) :
    s.haltStream st = s.modStr st fun t => { t with haltReq := true } := by
  obtain h | h := h <;> simp only [State.haltStream, h]

theorem State.haltStream_stopped {s : State} {st : Sid} (h : (s.str st).st = .stopped) : s.haltStream st = s.haltB st 0x18 0 := by
  simp only [State.haltStream, h]

theorem State.haltStream_ignored {s : State} {st : Sid} (h : (s.str st).st = .idle ∨ (s.str st).st = .halted ∨ (s.str st).st = .resetting) :
    s.haltStream st = s.ignore st := by
  obtain h | h | h := h <;> simp only [State.haltStream, h]

/-! ### RESET (07 R203) -/

/-- A stream that resets: what it waited for is withdrawn. -/
def Stream.resetting (t : Stream) : Stream :=
  { t.withdrawn with st := .resetting, chain := 0, pendHalt := none, haltReq := false, coReq := false, swPend := false, fresh := false }

/-- The stream reads RESETTING; its consist and its engines follow. -/
def State.resetBegun (s : State) (st : Sid) : State :=
  ((s.withdraw st).modStr st fun t =>
    { t with st := .resetting, chain := 0, pendHalt := none, haltReq := false, coReq := false, swPend := false, fresh := false }).settleSwitch

/-- The engines of a stream abandon their work. -/
def State.resetEngines (s : State) (st : Sid) : State :=
  match st with
  | .a => s.abandonDma.allChans State.dropRing
  | .x => { s with vec := { s.vec with ve := [], redq := [] }
                   arr := { s.arr with west := [], north := [], waiting := [], running := [], ftq := [], live := [], shadow := [], drain := [] } }

theorem State.resetStream_ignored {s : State} {st : Sid} (h : (s.str st).st = .resetting) : s.resetStream st = s.ignore st := by
  simp only [State.resetStream, h]

theorem State.resetStream_eq {s : State} {st : Sid} (h : (s.str st).st ≠ .resetting) :
    s.resetStream st = (((s.resetBegun st).resetConsist st).dropBlocked st).resetEngines st := by
  unfold State.resetStream
  split
  · contradiction
  · cases st <;> rfl

theorem State.resetBegun_eq (s : State) (st : Sid) : ∃ csr qsy, s.resetBegun st = { (s.landed st).modStr st Stream.resetting with csr := csr, qsy := qsy } := by
  obtain ⟨qsy, hw⟩ := s.withdraw_eq st
  rw [State.resetBegun, hw]
  cases st <;> exact ⟨_, qsy, rfl⟩

/-- What the withdrawal of DMA work and of a ring's entries may change. -/
def onlyDma (s t : State) : Prop := t = { s with qsy := t.qsy, fab := t.fab, chans := t.chans }

theorem onlyDma.trans {s t u : State} (h : onlyDma s t) (h' : onlyDma t u) : onlyDma s u := by
  rw [onlyDma] at h h' ⊢
  rw [h', h]

theorem onlyDma.foldl {α : Type} {f : State → α → State} (hf : ∀ s a, onlyDma s (f s a)) (l : List α) (s : State) : onlyDma s (l.foldl f s) := by
  induction l generalizing s with
  | nil => rfl
  | cons a l ih => exact (hf s a).trans (ih _)

theorem State.modChan_only (s : State) (ch tkt : Nat) (f : Chan → Chan) : onlyDma s (s.modChan ch tkt f) := rfl
theorem State.dropRing_only (s : State) (ch : Nat) : onlyDma s (s.dropRing ch) := rfl

theorem State.abandonDma_only (s : State) : onlyDma s s.abandonDma := by
  have hdrop : onlyDma s (s.dropChanWaits fun _ => true) := rfl
  refine hdrop.trans (onlyDma.foldl (fun s ch => ?_) _ _)
  have htodo : onlyDma s { s with fab := { s.fab with todo := s.fab.todo.filter fun r => !(r.ch = ch) } } := rfl
  exact htodo.trans (onlyDma.foldl (fun s c => s.modChan_only ..) _ _)

theorem State.dropRings_only (s : State) : onlyDma s (s.allChans State.dropRing) := onlyDma.foldl State.dropRing_only _ _

/-- The rings of the first channels are dropped one by one. -/
theorem State.ctx_dropRings (s : State) (n ch : Nat) : ((upto n).foldl State.dropRing s).ctx (16 + ch) =
    if ch < n then { s.ctx (16 + ch) with entries := [], et := (s.ctx (16 + ch)).nt } else s.ctx (16 + ch) := by
  induction n with
  | zero => rfl
  | succ n ih =>
    rw [upto, List.range_succ, List.foldl_append, ← upto]
    show tget Ctx.zero (tset Ctx.zero _ (16 + n) _) (16 + ch) = _
    rw [tget_tset]
    by_cases hch : n = ch
    · subst hch
      rw [if_pos rfl, if_pos n.lt_succ_self]
      show { ((upto n).foldl State.dropRing s).ctx (16 + n) with entries := [], et := (((upto n).foldl State.dropRing s).ctx (16 + n)).nt } = _
      rw [ih, if_neg n.lt_irrefl]
    · rw [if_neg (by omega)]
      exact ih.trans (if_congr (by omega) rfl rfl)

/-- After a reset the A-stream's rings are empty, and the X-stream's engines hold nothing. -/
theorem State.resetEngines_spec (s : State) (st : Sid) : let t := s.resetEngines st
    t.sA = s.sA ∧ t.sX = s.sX ∧ t.cA = s.cA ∧ t.cX = s.cX ∧ sameSpm s t ∧
      (st = .a → ∀ ch, ch < 16 → (t.ctx (16 + ch)).entries = [] ∧ (t.ctx (16 + ch)).et = (t.ctx (16 + ch)).nt) ∧
      (st = .x → t.vec.ve = [] ∧ t.vec.redq = [] ∧ t.arr.waiting = [] ∧ t.arr.running = [] ∧ t.arr.ftq = [] ∧ t.vec.m = s.vec.m) := by
  cases st with
  | a =>
    have honly : onlyDma s (s.abandonDma.allChans State.dropRing) := s.abandonDma_only.trans (State.dropRings_only _)
    refine ⟨by rw [State.resetEngines, honly], by rw [State.resetEngines, honly], by rw [State.resetEngines, honly], by rw [State.resetEngines, honly],
      by rw [State.resetEngines, honly]; rfl, fun _ ch hch => ?_, nofun⟩
    have hctx := s.abandonDma.ctx_dropRings 16 ch
    rw [if_pos hch] at hctx
    rw [State.resetEngines, State.allChans, hctx]
    exact ⟨rfl, rfl⟩
  | x => exact ⟨rfl, rfl, rfl, rfl, rfl, nofun, fun _ => ⟨rfl, rfl, rfl, rfl, rfl, rfl⟩⟩

theorem State.resetEngines_str (s : State) (st o : Sid) : ((s.resetEngines st).str o) = s.str o := by
  obtain ⟨hA, hX, -⟩ := s.resetEngines_spec st
  cases o
  · exact hA
  · exact hX

theorem State.resetEngines_csu (s : State) (st o : Sid) : ((s.resetEngines st).csu o) = s.csu o := by
  obtain ⟨-, -, hA, hX, -⟩ := s.resetEngines_spec st
  cases o
  · exact hA
  · exact hX

theorem State.dropBlocked_eq (s : State) (st : Sid) : ∃ cA cX, s.dropBlocked st = { s with cA := cA, cX := cX } ∧
    ((s.dropBlocked st).csu st).verdict = (s.csu st).verdict := by
  unfold State.dropBlocked
  split
  · exact ⟨_, _, rfl, rfl⟩
  · cases st <;> exact ⟨_, _, rfl, rfl⟩

/-- A reset ends an open consist: it rolls back with the reason EXPLICIT (11 Table 11-3). -/
theorem State.resetConsist_opened {s : State} {st : Sid} (h : (s.csu st).st = .opened) (hdue : (s.csu st).due = none) (hstop : s.cstate ≠ 1) :
    s.resetConsist st = (s.modCsu st fun c => { c with code := 1, detail := 1 }).rollBack st .rollback := by
  simp [State.resetConsist, State.endExplicit, h, hdue, State.rollBackDue, State.cstate_modCsu, hstop]

/-- A reset leaves a consist that is not active as it is. -/
theorem State.resetConsist_over {s : State} {st : Sid} (h : (s.csu st).st = .idle ∨ (s.csu st).st = .rollback) : s.resetConsist st = s := by
  obtain h | h := h <;> simp only [State.resetConsist, State.endExplicit, h]

section
variable (s : State) (st : Sid)

theorem State.resetBegun_str : (s.resetBegun st).str st = Stream.resetting ((s.landed st).str st) := by
  obtain ⟨csr, qsy, hb⟩ := s.resetBegun_eq st
  rw [hb]
  cases st <;> rfl

theorem State.resetBegun_csu : (s.resetBegun st).csu st = s.csu st := by
  obtain ⟨csr, qsy, hb⟩ := s.resetBegun_eq st
  obtain ⟨l, hl⟩ := s.landed_eq st
  rw [hb, hl]
  cases st <;> rfl

theorem State.resetBegun_cstate : (s.resetBegun st).cstate = s.cstate := by
  have hrd : (s.resetBegun st).rd 0x1808 = s.rd 0x1808 := by
    rw [State.resetBegun, State.settleSwitch, State.rd_setRf_other _ (by decide), State.rd_modStr]
    exact s.withdraw_rd st _
  rw [State.cstate, State.rf, hrd]
  rfl

variable {s st} (hst : (s.str st).st ≠ .resetting)
include hst

/-- RESET of a stream with an open consist. -/
theorem State.resetStream_opened (h : (s.csu st).st = .opened) (hdue : (s.csu st).due = none) (hstop : s.cstate ≠ 1) :
    ((s.resetStream st).str st).st = .resetting ∧ ((s.resetStream st).csu st).verdict = (.rollback, 1, 1) := by
  have hcsu := s.resetBegun_csu st
  have hconsist := State.resetConsist_opened (s := s.resetBegun st) (by rw [hcsu]; exact h) (by rw [hcsu]; exact hdue) (by rw [s.resetBegun_cstate]; exact hstop)
  rw [State.resetStream_eq hst, hconsist, State.resetEngines_str, State.resetEngines_csu]
  have hcalm : Calm (s.resetBegun st) (((s.resetBegun st).modCsu st fun c => { c with code := 1, detail := 1 }).rollBack st .rollback) :=
    (Calm.refl _).modCsu.rollBack
  obtain ⟨cA, cX, hdrop, hverdict⟩ := (((s.resetBegun st).modCsu st fun c => { c with code := 1, detail := 1 }).rollBack st .rollback).dropBlocked_eq st
  refine ⟨?_, hverdict.trans ?_⟩
  · have hstr : (((s.resetBegun st).modCsu st fun c => { c with code := 1, detail := 1 }).rollBack st .rollback).str st = (s.resetBegun st).str st := by
      cases st
      · exact hcalm.sA
      · exact hcalm.sX
    rw [hdrop]
    refine (congrArg Stream.st (Eq.trans ?_ (hstr.trans (s.resetBegun_str st)))).trans rfl
    cases st <;> rfl
  · rw [State.rollBack_verdict, State.csu_modCsu_same]

/-- RESET of a stream whose consist is not active. -/
theorem State.resetStream_over (h : (s.csu st).st = .idle ∨ (s.csu st).st = .rollback) : let t := s.resetStream st
    (t.str st).st = .resetting ∧ (t.str st).wait = none ∧ sameSpm s t ∧ sameRegs (s.landed st) t ∧ t.str (otherSid st) = s.str (otherSid st) ∧
      (st = .a → ∀ ch, ch < 16 → (t.ctx (16 + ch)).entries = [] ∧ (t.ctx (16 + ch)).et = (t.ctx (16 + ch)).nt) ∧
      (st = .x → t.vec.ve = [] ∧ t.vec.redq = [] ∧ t.arr.waiting = [] ∧ t.arr.running = [] ∧ t.arr.ftq = [] ∧ t.vec.m = s.vec.m) := by
  obtain ⟨csr, qsy, hb⟩ := s.resetBegun_eq st
  obtain ⟨l, hl⟩ := s.landed_eq st
  have hconsist := State.resetConsist_over (s := s.resetBegun st) (st := st) (by rw [s.resetBegun_csu]; exact h)
  obtain ⟨cA, cX, hdrop, -⟩ := (s.resetBegun st).dropBlocked_eq st
  have hself := s.resetBegun_str st
  rw [State.resetStream_eq hst, hconsist]
  obtain ⟨-, -, -, -, hspm, hrings, hengines⟩ := ((s.resetBegun st).dropBlocked st).resetEngines_spec st
  intro t
  have hstr : ∀ o, t.str o = ((s.landed st).modStr st Stream.resetting).str o := by
    intro o
    rw [show t.str o = _ from State.resetEngines_str .., hdrop, hb]
    cases o <;> rfl
  refine ⟨?_, ?_, hspm.trans ?_, fun o => ?_, ?_, hrings, fun hx => ?_⟩
  · rw [hstr, State.str_modStr_same]
    rfl
  · rw [hstr, State.str_modStr_same]
    rfl
  · rw [hdrop, hb, hl]
    cases st <;> rfl
  · rw [hstr]
    cases o <;> cases st <;> exact ⟨rfl, rfl, rfl⟩
  · rw [hstr, hl]
    cases st <;> rfl
  · obtain ⟨hve, hredq, hwaiting, hrunning, hftq, hm⟩ := hengines hx
    refine ⟨hve, hredq, hwaiting, hrunning, hftq, hm.trans ?_⟩
    rw [hdrop, hb, hl]
    cases st <;> rfl

end

/-! ### STREAM_RESET_DONE (07 R203, 05 R133) -/

/-- The stream as after reset, its record and the X-stream's vector state cleared. -/
def State.resetDone (s : State) (st : Sid) : State :=
  (match st with
    | .a => s.modStr st fun _ => Stream.reset
    | .x => { s.modStr st fun _ => Stream.reset with vec := { s.vec with vlen := 0, m := [], k := [] }, keys := [] }).clearHalt st

theorem exec_streamResetDone {s : State} {st : Sid} (h : (s.str st).st = .resetting) (hscal : (s.str st).scal = []) :
    exec (.streamResetDone st) s = .next (s.resetDone st) := by
  have hdrain : s.drainStores st = s := by rw [State.drainStores, hscal]; rfl
  show execStreamResetDone st s = _
  rw [execStreamResetDone, if_pos h, hdrain]
  cases st <;> rfl

theorem State.clearHalt_spec (s : State) (st : Sid) : onlyCsr s (s.clearHalt st) ∧ (s.clearHalt st).rb (haltBase st) 55 = false ∧
    (s.clearHalt st).rf (strmBase st + 8) 15 8 = 0 := by
  have hoff : haltBase st ≠ strmBase st + 8 := by cases st <;> decide
  refine ⟨State.setRf_onlyCsr (State.setRf_onlyCsr (State.setRf_onlyCsr (State.setRf_onlyCsr (onlyCsr.refl s) ..) ..) ..) .., State.rb_setRf_bit _ _ (by decide) 0, ?_⟩
  rw [State.clearHalt, State.rf_setRf_other _ hoff, State.rf_setRf_disjoint _ _ _ (by decide) (by decide) (by decide) (.inr (by decide)),
    State.rf_setRf_disjoint _ _ _ (by decide) (by decide) (by decide) (.inr (by decide)), State.rf_setRf_same _ _ (by decide) (by decide)]
  rfl

theorem State.resetDone_spec (s : State) (st : Sid) : let t := s.resetDone st
    t.str st = Stream.reset ∧ sameSpm s t ∧ t.str (otherSid st) = s.str (otherSid st) ∧ t.rb (haltBase st) 55 = false ∧ t.rf (strmBase st + 8) 15 8 = 0 ∧
      (st = .x → t.vec.vlen = 0 ∧ t.vec.m = [] ∧ t.vec.k = [] ∧ t.keys = []) := by
  cases st with
  | a =>
    obtain ⟨honly, hrec, hstatus⟩ := (s.modStr .a fun _ => Stream.reset).clearHalt_spec .a
    rw [onlyCsr] at honly
    refine ⟨by rw [State.resetDone, honly]; rfl, by rw [State.resetDone, honly]; rfl, by rw [State.resetDone, honly]; rfl, hrec, hstatus, nofun⟩
  | x =>
    obtain ⟨honly, hrec, hstatus⟩ := ({ s.modStr .x fun _ => Stream.reset with vec := { s.vec with vlen := 0, m := [], k := [] }, keys := [] }).clearHalt_spec .x
    rw [onlyCsr] at honly
    refine ⟨by rw [State.resetDone, honly]; rfl, by rw [State.resetDone, honly]; rfl, by rw [State.resetDone, honly]; rfl, hrec, hstatus, fun _ => ?_⟩
    rw [State.resetDone, honly]
    exact ⟨rfl, rfl, rfl, rfl⟩

/-- What lands does not depend on the state that its stream reads. -/
theorem State.landed_run (s : State) (st : Sid) : sameRegs (s.landed st) ((s.modStr st fun t => { t with st := .running }).landed st) := by
  have hstr : (s.modStr st fun t => { t with st := .running }).str st = { s.str st with st := .running } := State.str_modStr_same ..
  have hwait : ((s.modStr st fun t => { t with st := .running }).str st).wait = (s.str st).wait := by rw [hstr]
  rw [State.landed, State.landed, hwait]
  cases (s.str st).wait with
  | none =>
    intro o
    cases o <;> cases st <;> exact ⟨rfl, rfl, rfl⟩
  | some w =>
    have hself := Stream.foldl_wrReg_scalars w.late (t := { s.str st with st := .running }) (u := s.str st) rfl
    intro o
    cases o <;> cases st
    · exact Stream.scalars_eq.mp hself
    · exact ⟨rfl, rfl, rfl⟩
    · exact ⟨rfl, rfl, rfl⟩
    · exact Stream.scalars_eq.mp hself

/-- A START that its image stops is as refused as the halt on the state that it began from. -/
theorem State.startRefused (s : State) (st : Sid) (f : Stream → Stream) {d : Nat} (hd : d < 2 ^ 48) : let t := (s.modStr st f).haltB st 0x19 d
    ((t.str st).st = .halted ∧ t.rb (haltBase st) 55 = true ∧ t.rb (haltBase st) 54 = false ∧ t.rf (haltBase st) 63 56 = 0x19 ∧
      t.rf (haltBase st + 16) 47 0 = d ∧ t.rf (strmBase st + 8) 15 8 = 0x19 ∧ t.rb 0x100 (evHalt st) = true ∧ sameSpm s t) ∧
    t.rf (haltBase st) 16 0 = (f (s.str st)).pc.toNat ∧ t.rd (haltBase st + 8) = (f (s.str st)).cc ∧ sameRegs ((s.modStr st f).landed st) t := by
  obtain ⟨⟨hst, hvalid, hdeferred, hreason, hdetail, hstatus, hevent, hspm⟩, haddr, hcount, hregs⟩ := (s.modStr st f).haltB_refused st hd
  rw [State.str_modStr_same] at haddr hcount
  exact ⟨⟨hst, hvalid, hdeferred, hreason, hdetail, hstatus, hevent, hspm.trans (State.modStr_spm ..)⟩, haddr, hcount, hregs⟩

/-- Settles O45: each command by the state that it finds the stream in. -/
theorem streamControlCommands : Obligations.StreamControlCommands := by
  unfold Obligations.StreamControlCommands
  intro s st hs hb hd state ign landed refused
  obtain ⟨hstart, hstop, hhalt, hreset⟩ := exec_strm hs hb hd st
  rw [hstart, hstop, hhalt, hreset]
  refine ⟨fun hst h3 h1 hbist himage hrng => ?_, fun hst hbist himage hrng => ?_, fun d hst h3 h1 hbist himage => ⟨_, rfl, ?_⟩,
    fun d hst hbist himage => ⟨_, rfl, ?_⟩, fun hidle hstop => congrArg _ (State.startStream_ignored hidle hstop),
    fun hst => congrArg _ (State.stopStream_running hst), fun hst => congrArg _ (State.stopStream_ignored hst),
    fun hst => congrArg _ (State.haltStream_going hst), fun hst => congrArg _ (State.haltStream_ignored hst),
    fun hst => congrArg _ (State.resetStream_ignored hst), fun hst => ⟨_, rfl, ?_⟩, fun hst hopen hdue _ hstop => ⟨_, rfl, ?_⟩,
    fun hst hover => ⟨_, rfl, State.resetStream_over hst hover⟩, fun hst hscal => ⟨_, exec_streamResetDone hst hscal, s.resetDone_spec st⟩⟩
  · rw [State.startStream_idle hst h3 h1 hbist, State.startChecks_sound ((s.imageBad_modStr ..).trans himage) (by simpa using hrng)]
    rfl
  · rw [State.startStream_stopped hst hbist, State.startChecks_sound ((s.imageBad_modStr ..).trans himage) (by simpa using hrng)]
  · rw [State.startStream_idle hst h3 h1 hbist, State.startChecks_bad ((s.imageBad_modStr ..).trans himage)]
    obtain ⟨hrefused, haddr, hcount, -⟩ := s.startRefused st (fun _ => Stream.started (s.entry st)) (State.imageBad_lt himage)
    have hself := ((s.modStr st fun _ => Stream.started (s.entry st)).takeHalt_streams st
      ⟨0x19, false, false, false, 0, 0, (s.modStr st fun _ => Stream.started (s.entry st)).here st, 0, d⟩).1
    rw [State.landed_none (by rw [State.str_modStr_same]; rfl), State.str_modStr_same] at hself
    refine ⟨hrefused, haddr.trans ?_, hcount, hself⟩
    exact (BitVec.toNat_ofNat ..).trans (Nat.mod_eq_of_lt (s.entry_lt st))
  · rw [State.startStream_stopped hst hbist, State.startChecks_bad ((s.imageBad_modStr ..).trans himage)]
    obtain ⟨hrefused, haddr, hcount, hregs⟩ := s.startRefused st (fun t => { t with st := .running }) (State.imageBad_lt himage)
    exact ⟨hrefused, haddr, hcount, (s.landed_run st).trans hregs⟩
  · rw [State.haltStream_stopped hst]
    obtain ⟨hst', -, hspm, -, hreason, hvalid, -⟩ := s.takeHalt_spec st ⟨0x18, false, false, false, 0, 0, s.here st, 0, 0⟩
    exact ⟨hst', hvalid, hreason, hspm⟩
  · obtain ⟨hreset, hverdict⟩ := State.resetStream_opened hst hopen hdue hstop
    obtain ⟨hcsu, hcode, hdetail⟩ := Csu.verdict_eq.mp hverdict
    exact ⟨hreset, hcsu, hcode, hdetail⟩

end Sys2Proof.Machine
end
